-- ==== Sys2Proof/Word.lean ====
section
/-! DEFINITION. The words of the KD31: bytes, 32-bit timestamps and converter values
(00_scope.md, Units; R1, R6). Everything the manual counts rather than masks is a `Nat`. -/

namespace Sys2Proof

/-- One byte of the window, of the link or of an image. -/
abbrev Byte := BitVec 8

/-- A value of the Timebase's 32-bit timestamp counter (R1). -/
abbrev Stamp := BitVec 32

/-- A converter value or sense ratio, 0 to 1023 (R6, R56). -/
abbrev Sample := BitVec 10

/-- The 13 notice bits and their enables (R173). -/
abbrev NoticeWord := BitVec 13

end Sys2Proof
end

