-- ==== Sys2Proof/Syntax.lean ====
section
/-! DEFINITION. The commands of the KD31: one constructor for each row of spec/opcode_table.json,
with the operands the row's rule gives it. -/

namespace Sys2Proof

/-- The two requesting sides (00_scope.md, Requesting sides). -/
inductive Side where
  | window
  | workshop
  deriving DecidableEq, Repr

/-- The four claims, in the order of their bytes and numbers (R158, R164). -/
inductive Claim where
  | faults
  | odometer
  | config
  | outputs
  deriving DecidableEq, Repr

/-- The two flash phases (R4). -/
inductive Phase where
  | slow
  | fast
  deriving DecidableEq, Repr

/-- One command: an operation or event of the operation table, whole and indivisible. -/
inductive Instr where
  /-- FULL_RESTART (R175). -/
  | fullRestart
  /-- SENSE_SAMPLE (R8): the 32 ratios, whether PULSE_V reads OPEN (R28), and the converter values of
  AIN1 to AIN5 and VSUP (R56). -/
  | senseSample (ratios : Vector Sample 32) (wireOpen : Bool) (inputs : Vector Sample 6)
  /-- TIMER_STEP (R3). -/
  | timerStep
  /-- STANDSTILL_MATURE (R84). -/
  | standstillMature
  /-- LAMP_REFRESH (R114). -/
  | lampRefresh
  /-- PHASE_EDGE (R4). -/
  | phaseEdge (phase : Phase)
  /-- GAUGE_CYCLE (R2). -/
  | gaugeCycle
  /-- PULSE_V_EDGE (R19): a rising edge, `gap` microseconds after the present instant. -/
  | pulseVEdge (gap : Nat)
  /-- PULSE_E_EDGE (R34): a rising edge, `gap` microseconds after the present instant. -/
  | pulseEEdge (gap : Nat)
  /-- HOLD_TIMER_EXPIRY (R62) of a sender channel. -/
  | holdTimerExpiry (channel : Fin 5)
  /-- LOW_SUPPLY_WATCH_EXPIRY (R44). -/
  | lowSupplyWatchExpiry
  /-- TRAVEL_TIMER_EXPIRY (R73) of a doorway. -/
  | travelTimerExpiry (doorway : Fin 4)
  /-- CONFLICT_TIMER_EXPIRY (R74) of a doorway. -/
  | conflictTimerExpiry (doorway : Fin 4)
  /-- ONSET_TIMER_EXPIRY (R95) of a warning. -/
  | onsetTimerExpiry (warning : Fin 48)
  /-- REPEAT_HALF_EXPIRY (R106). -/
  | repeatHalfExpiry
  /-- BURST_INTERVAL_EXPIRY (R107). -/
  | burstIntervalExpiry
  /-- TEST_DURATION_EXPIRY (R120). -/
  | testDurationExpiry
  /-- LAMP_WALK_STEP (R118). -/
  | lampWalkStep
  /-- TEST_BUZZER_HALF (R118). -/
  | testBuzzerHalf
  /-- SUPV_PERIOD_EXPIRY (R123). -/
  | supvPeriodExpiry
  /-- HRSTN_TIMER_EXPIRY (R124). -/
  | hrstnTimerExpiry
  /-- JOB_START (R142). -/
  | jobStart
  /-- PAGE_START (R143). -/
  | pageStart
  /-- PAGE_COMPLETION (R143): whether the verify matches the content written. -/
  | pageCompletion (verified : Bool)
  /-- REQUEST_FRAME (R153): whether a mark open comes first, the whole characters the tester clocks,
  and the bits of a last character it does not finish. -/
  | requestFrame (opens : Bool) (chars : List Byte) (bits : List Bool)
  /-- FETCH_FRAME (R156): the head's low seven bits when a mark open and a head come first, the
  tester's answer bits after the characters the part sends (false is low, accept), and the clocks of a
  last character it does not finish. -/
  | fetchFrame (head : Option (BitVec 7)) (answers : List Bool) (clocks : Nat)
  /-- MARK_CLOSE (R151). -/
  | markClose
  /-- LINK_HOLD_EXPIRY (R152). -/
  | linkHoldExpiry
  /-- SESSION_TIMER_EXPIRY (R157). -/
  | sessionTimerExpiry
  /-- OPEN_SESSION (R157). -/
  | openSession
  /-- CLOSE_SESSION (R157). -/
  | closeSession
  /-- KEEP_SESSION (R159). -/
  | keepSession
  /-- READ_IDENT (R159). -/
  | readIdent
  /-- READ_CHANNELS (R70). -/
  | readChannels
  /-- READ_SENSE (R16). -/
  | readSense
  /-- READ_DOORS (R86). -/
  | readDoors
  /-- READ_WARNINGS (R160). -/
  | readWarnings
  /-- READ_FAULT_SUMMARY (R138). -/
  | readFaultSummary
  /-- READ_FAULT (R138). -/
  | readFault
  /-- READ_ODOMETER (R54). -/
  | readOdometer
  /-- READ_K_FACTOR (R38). -/
  | readKFactor
  /-- READ_STOP_JOURNAL (R87). -/
  | readStopJournal
  /-- TAKE_CLAIM (R158). -/
  | takeClaim
  /-- GIVE_CLAIM (R158). -/
  | giveClaim
  /-- WRITE_K_FACTOR (R53). -/
  | writeKFactor
  /-- UNKNOWN_KIND (R169, R154): from a slot or from the link. -/
  | unknownKind (side : Side)
  /-- ADOPT_CONFIG (R171). -/
  | adoptConfig
  /-- ACK_WARNINGS (R104). -/
  | ackWarnings
  /-- TRIP_CONTROL (R42). -/
  | tripControl
  /-- CLEAR_FAULTS (R134). -/
  | clearFaults (side : Side)
  /-- PRESET_ODOMETER (R52). -/
  | presetOdometer (side : Side)
  /-- SET_K_FACTOR (R53). -/
  | setKFactor
  /-- OUTPUT_TEST (R117). -/
  | outputTest (side : Side)
  /-- OUTPUT_TEST_STOP (R121). -/
  | outputTestStop (side : Side)
  /-- CLAIM_TAKE_READ (R167): the fetch of data byte `index` of a READ transaction that starts at
  `start` (R163). Only the first data byte of a transaction that starts at a claim byte can take. -/
  | claimTakeRead (start : BitVec 16) (index : Nat)
  /-- CLAIM_RELEASE_WRITE (R167): the value written to the claim byte. -/
  | claimReleaseWrite (claim : Claim) (value : Byte)
  /-- SLOT_POST (R168): POSTED written to the slot's state byte. -/
  | slotPost (slot : Fin 8)
  /-- SLOT_FREE (R168): FREE written to the slot's state byte. -/
  | slotFree (slot : Fin 8)
  /-- ATTN_SET (R169). -/
  | attnSet (mask : Byte)
  /-- ATTN_CLEAR (R165). -/
  | attnClear (mask : Byte)
  /-- NOTICE_CLEAR (R173): the word's high or low byte and the value. -/
  | noticeClear (high : Bool) (value : Byte)
  /-- NOTICE_ENABLE (R173): the word's high or low byte and the value. -/
  | noticeEnable (high : Bool) (value : Byte)
  /-- SUPV_CONTROL_PERIOD (R122). -/
  | supvControlPeriod (value : Byte)
  /-- SUPV_CONTROL_MODE (R122). -/
  | supvControlMode (value : Byte)
  /-- SUPV_REFRESH (R123). -/
  | supvRefresh (value : Byte)
  /-- SOFT_RESTART (R174): the value written to RESTART. -/
  | softRestart (value : Byte)
  /-- PORT_FAULT_CLEAR (R166): the byte of the PORT_FAULT word and the value. -/
  | portFaultClear (offset : Fin 4) (value : Byte)
  /-- WINDOW_WRITE (R164): data byte `index` of a WRITE transaction that starts at `start` (R163). -/
  | windowWrite (start : BitVec 16) (index : Nat) (value : Byte)
  deriving DecidableEq, Repr

end Sys2Proof
end

