-- ==== Sys2Proof/Decode.lean ====
section
/-! DEFINITION. The command that a word spells by the bits of the operation table. The table gives bits to
none of its rows: a command of this block arrives as bytes of an SPI transaction, as clocks of the link,
as samples, edges and expiries, and none of them is a word of the table. Log entry 25. -/

namespace Sys2Proof

/-- No row of the table has bits, so no word spells a command. -/
def decodeTableWord (_nbits _w : Nat) : Option Instr := none

end Sys2Proof
end

