-- ==== Sys2Proof/Config.lean ====
section
/-! DEFINITION. What the part of this manual fixes, and the values the manual leaves open. -/

namespace Sys2Proof.Config

/-- Family code read from IDENT and READ_IDENT (R159, R176). -/
def familyCode : Nat := 0x4B31

/-- Revision code of the part of this manual (R176). -/
def revision : Nat := 0x01

/-- The raw mean of a sample group that holds no sample. No rule states it: in service a group holds
19 or 20 samples (R56). A FREE VALUE, applied to the instant of the gauge cycle; log entry 6. -/
opaque emptyGroupMean : Nat → Sample

/-- What SDO gives during a data byte of a WRITE transaction. R163 states SDO only for the opcode, the address,
the turnaround and the data of a READ. A FREE VALUE, applied to the byte's index; log entry 17. -/
opaque writeDataOut : Nat → Byte

/-- The check byte that the Retained Store computes over what a page holds (R140). No rule states its algorithm,
nor the layout of every page's 32 bytes. A FREE VALUE, applied to the kind of the object and to the numbers that
the page holds; log entry 7. -/
opaque pageCheck : Nat → List Nat → Byte

/-- By what the stored check byte of a page that fails its check differs from the computed one, where a write was
cut off or never made. R140 and R146 say only that the page fails. DESIGN CHOICE, log entry 8. -/
def failedCheck : Byte := 1

/-- Periods of the cadences in microseconds (R2). -/
def sensePeriod : Nat := 5000
/-- The timer step (R2). -/
def stepPeriod : Nat := 10000
/-- The lamp refresh (R2). -/
def lampPeriod : Nat := 20000
/-- The gauge cycle (R2). -/
def gaugePeriod : Nat := 100000
/-- Half a FAST period: FAST edges fall at its multiples (R4). -/
def fastHalf : Nat := 125000
/-- Half a SLOW period: SLOW edges fall at its multiples (R4). -/
def slowHalf : Nat := 500000
/-- A page write takes 6 ms (R140). -/
def pageTime : Nat := 6000
/-- The least SUPPLY at which a page is started, 16.00 V (R44, R143). -/
def pageSupply : Int := 1600

end Sys2Proof.Config
end

