-- ==== Sys2Proof/Machine/Memory.lean ====
section
/-! DEFINITION. The byte memory used for the window RAM (R164, R175) and for configuration images
(R179): cells of an address and a byte, addresses strictly rising, no cell holding 0. What is not
listed reads 0 (R175: "window RAM is zeroed"; R180: "all fields not stated below being 0"). -/

namespace Sys2Proof.Machine

/-- A byte memory: see `Mem.wf` for its one canonical form. -/
abbrev Mem := List Host.Cell

/-- The canonical form: addresses strictly rising, and no cell equal to what an unlisted address
reads as. -/
abbrev Mem.wf (m : Mem) : Prop :=
  m.Pairwise (fun c d => c.1 < d.1) ∧ ∀ c ∈ m, c.2 ≠ 0

/-- The byte at an address. -/
def Mem.read : Mem → Nat → Byte
  | [], _ => 0
  | (b, v) :: m, a => if a = b then v else Mem.read m a

/-- One byte stored: the cell is removed where 0 is stored. -/
def Mem.write : Mem → Nat → Byte → Mem
  | [], a, v => if v = 0 then [] else [(a, v)]
  | (b, w) :: m, a, v =>
    if a < b then (if v = 0 then (b, w) :: m else (a, v) :: (b, w) :: m)
    else if a = b then (if v = 0 then m else (a, v) :: m)
    else (b, w) :: Mem.write m a v

/-- The cells of a run of bytes from an address. -/
def Mem.cells : Nat → List Byte → Mem
  | _, [] => []
  | a, v :: vs => if v = 0 then Mem.cells (a + 1) vs else (a, v) :: Mem.cells (a + 1) vs

/-- Replaces the `size` bytes from `base` by `bytes`, and by 0 past the end of `bytes`. -/
def Mem.fill (m : Mem) (base size : Nat) (bytes : List Byte) : Mem :=
  m.filter (fun c => c.1 < base) ++ (Mem.cells base (bytes.take size) ++
    m.filter (fun c => base + size ≤ c.1))

/-- The `size` bytes from `base` as a memory of their own, its addresses counted from 0. -/
def Mem.slice (m : Mem) (base size : Nat) : Mem :=
  (m.filter (fun c => base ≤ c.1 ∧ c.1 < base + size)).map (fun c => (c.1 - base, c.2))

/-- The `size` bytes from `base` as a list. -/
def Mem.bytes (m : Mem) (base size : Nat) : List Byte :=
  (List.range size).map (fun i => m.read (base + i))

/-- A little-endian 16-bit number (00_scope.md, Byte order). -/
def Mem.read16 (m : Mem) (a : Nat) : Nat := (m.read a).toNat + 256 * (m.read (a + 1)).toNat

/-- A little-endian signed 16-bit number. -/
def Mem.readInt16 (m : Mem) (a : Nat) : Int := (BitVec.ofNat 16 (m.read16 a)).toInt

end Sys2Proof.Machine
end

