-- ==== Sys2Proof/Machine/Image.lean ====
section
/-! DEFINITION. The configuration image: its codes, the fields each block reads from it, its
validation (R179) and the built-in default image (R180). -/

namespace Sys2Proof.Machine

/-- The roles of the role catalogue (R14). -/
inductive Role where
  | unused
  | ignition
  | general
  | kneel
  | ramp
  | stopRequest
  | parkingBrake
  | ackButton
  | switchClosed (doorway : Fin 4)
  | openEnd (doorway : Fin 4)
  | edge (doorway : Fin 4)
  | emergency (doorway : Fin 4)
  deriving DecidableEq, Repr

/-- A line's entry (R5). -/
structure LineEntry where
  role : Role
  /-- Polarity OPENED_ACTIVE. -/
  openedActive : Bool
  /-- Diagnosis ON. -/
  diagnosis : Bool
  /-- The debounce count N. -/
  n : Nat
  deriving DecidableEq, Repr

/-- The parameters of the Pulse Channel Unit and the permit delay (R36, R71). -/
structure PulseParams where
  /-- Standstill timeout, ms. -/
  timeout : Nat
  /-- Speed filter shift s. -/
  shift : Nat
  /-- Engine pulses per revolution, tenths. -/
  p10 : Nat
  rOn : Nat
  rOff : Nat
  /-- Permit delay, ms. -/
  permitDelay : Nat
  deriving DecidableEq, Repr

/-- A sender channel's entry (R55). -/
structure SenderEntry where
  /-- Breakpoints (raw, value), ascending. -/
  table : List (Nat × Int)
  shortLimit : Nat
  openLimit : Nat
  /-- Hold time, tenths of a second. -/
  hold : Nat
  shift : Nat
  /-- Adopt margin M. -/
  margin : Nat
  deriving DecidableEq, Repr

/-- A warning's source (R90 to R93). -/
inductive Source where
  | senseActive (line : Fin 32)
  | senseInactive (line : Fin 32)
  | gaugeAbove (channel : Fin 8)
  | gaugeBelow (channel : Fin 8)
  | doorOpenMoving
  | rampMoving
  | kneelMoving
  | doorStalled (doorway : Fin 4)
  | doorConflict (doorway : Fin 4)
  | doorEmergency (doorway : Fin 4)
  | senderFault (channel : Fin 5)
  | wireFault (line : Fin 32)
  | speedSourceFault
  | supplyLow
  | storeFault
  | configDefaults
  | supervisionFallback
  deriving DecidableEq, Repr

/-- Qualifiers (R94). -/
inductive Qualifier where
  | always
  | ignitionOn
  | engineRunning
  | moving
  deriving DecidableEq, Repr

/-- Warning classes, in rank order (R99). -/
inductive WarnClass where
  | stop
  | caution
  | info
  deriving DecidableEq, Repr

/-- A warning definition (R89). -/
structure WarningDef where
  enabled : Bool
  /-- Latch mode LATCH_UNTIL_ACK. -/
  latch : Bool
  chime : Bool
  record : Bool
  /-- The source code as the image holds it (R127, R176). -/
  code : Byte
  source : Option Source
  threshold : Int
  hysteresis : Nat
  qualifier : Qualifier
  /-- Onset delay, tenths of a second. -/
  delay : Nat
  cls : WarnClass
  lamp : Option (Fin 16)
  deriving DecidableEq, Repr

/-- Lamp appearances (R112). -/
inductive Appearance where
  | off
  | on
  | slow
  | fast
  deriving DecidableEq, Repr

/-- Lamp sources (R112). -/
inductive LampSource where
  | none
  | hostRequest
  | warnings
  | senseMirror (line : Fin 32) (appearance : Appearance)
  | doorway (doorway : Fin 4)
  | doorwayAny
  | stopRequest
  | permit
  deriving DecidableEq, Repr

/-- A number cut into a range by its remainder: used only on codes already known to lie in it. -/
def finOf (n : Nat) [NeZero n] (v : Nat) : Fin n := Fin.ofNat n v

/-- Role codes (R179). A code of no role reads as UNUSED; validation item 2 keeps such images out. -/
def roleOfCode (c : Nat) : Role :=
  if c = 1 then .ignition else if c = 2 then .general else if c = 3 then .kneel
  else if c = 4 then .ramp else if c = 5 then .stopRequest else if c = 6 then .parkingBrake
  else if c = 7 then .ackButton
  else if 8 ≤ c ∧ c < 12 then .switchClosed (finOf 4 (c - 8))
  else if 12 ≤ c ∧ c < 16 then .openEnd (finOf 4 (c - 12))
  else if 16 ≤ c ∧ c < 20 then .edge (finOf 4 (c - 16))
  else if 20 ≤ c ∧ c < 24 then .emergency (finOf 4 (c - 20))
  else .unused

/-- The code of a role (R179). -/
def Role.code : Role → Nat
  | .unused => 0
  | .ignition => 1
  | .general => 2
  | .kneel => 3
  | .ramp => 4
  | .stopRequest => 5
  | .parkingBrake => 6
  | .ackButton => 7
  | .switchClosed n => 8 + n.val
  | .openEnd n => 12 + n.val
  | .edge n => 16 + n.val
  | .emergency n => 20 + n.val

/-- Source codes (R179). -/
def sourceOfCode (c : Nat) : Option Source :=
  if c < 32 then some (.senseActive (finOf 32 c))
  else if c < 64 then some (.senseInactive (finOf 32 (c - 32)))
  else if c < 72 then some (.gaugeAbove (finOf 8 (c - 64)))
  else if c < 80 then some (.gaugeBelow (finOf 8 (c - 72)))
  else if c = 80 then some .doorOpenMoving
  else if c = 81 then some .rampMoving
  else if c = 82 then some .kneelMoving
  else if c < 87 then some (.doorStalled (finOf 4 (c - 83)))
  else if c < 91 then some (.doorConflict (finOf 4 (c - 87)))
  else if c < 95 then some (.doorEmergency (finOf 4 (c - 91)))
  else if c = 95 then none
  else if c < 101 then some (.senderFault (finOf 5 (c - 96)))
  else if c < 133 then some (.wireFault (finOf 32 (c - 101)))
  else if c = 133 then some .speedSourceFault
  else if c = 134 then some .supplyLow
  else if c = 135 then some .storeFault
  else if c = 136 then some .configDefaults
  else if c = 137 then some .supervisionFallback
  else none

/-- Appearance codes (R112, R176). -/
def appearanceOfCode (c : Nat) : Appearance :=
  if c = 1 then .on else if c = 2 then .slow else if c = 3 then .fast else .off

/-- Lamp source kinds and their parameters (R179). -/
def lampSourceOf (kind p1 p2 : Nat) : LampSource :=
  if kind = 1 then .hostRequest
  else if kind = 2 then .warnings
  else if kind = 3 then .senseMirror (finOf 32 p1) (appearanceOfCode p2)
  else if kind = 4 then (if p1 = 4 then .doorwayAny else .doorway (finOf 4 p1))
  else if kind = 5 then .stopRequest
  else if kind = 6 then .permit
  else .none

/-- Qualifier codes (R179). -/
def qualifierOfCode (c : Nat) : Qualifier :=
  if c = 1 then .ignitionOn else if c = 2 then .engineRunning else if c = 3 then .moving else .always

/-- Class codes (R179). -/
def classOfCode (c : Nat) : WarnClass :=
  if c = 0 then .stop else if c = 1 then .caution else .info

/-- The entry of a sense line (R5, R179). -/
def lineEntry (img : Mem) (n : Fin 32) : LineEntry :=
  let flags := img.read (0x011 + 2 * n.val)
  { role := roleOfCode (img.read (0x010 + 2 * n.val)).toNat
    openedActive := flags.getLsbD 0
    diagnosis := flags.getLsbD 1
    n := flags.toNat / 16 }

/-- The pulse-channel section (R36, R179). -/
def pulseParams (img : Mem) : PulseParams :=
  { timeout := img.read16 0x050
    shift := (img.read 0x052).toNat
    p10 := img.read16 0x053
    rOn := img.read16 0x055
    rOff := img.read16 0x057
    permitDelay := img.read16 0x059 }

/-- The crank threshold (R55, R179). -/
def crankThreshold (img : Mem) : Nat := img.read16 0x060

/-- The address of a sender's section. -/
def senderBase (c : Fin 5) : Nat := 0x080 + 80 * c.val

/-- A sender's entry (R55, R179). -/
def senderEntry (img : Mem) (c : Fin 5) : SenderEntry :=
  let b := senderBase c
  { table := (List.range (img.read b).toNat).map (fun i =>
      (img.read16 (b + 10 + 4 * i), img.readInt16 (b + 12 + 4 * i)))
    shortLimit := img.read16 (b + 1)
    openLimit := img.read16 (b + 3)
    hold := (img.read (b + 5)).toNat
    shift := (img.read (b + 6)).toNat
    margin := img.read16 (b + 7) }

/-- A doorway's present flag (R71, R179). -/
def doorwayPresent (img : Mem) (n : Fin 4) : Bool := decide (img.read (0x210 + 2 * n.val) = 1)

/-- A doorway's travel limit in tenths of a second (R71, R179). -/
def travelLimit (img : Mem) (n : Fin 4) : Nat := (img.read (0x211 + 2 * n.val)).toNat

/-- The address of a warning's definition. -/
def warningBase (w : Fin 48) : Nat := 0x220 + 16 * w.val

/-- A warning's definition (R89, R179). -/
def warningDef (img : Mem) (w : Fin 48) : WarningDef :=
  let b := warningBase w
  let flags := img.read b
  let code := img.read (b + 1)
  let lamp := (img.read (b + 9)).toNat
  { enabled := flags.getLsbD 0
    latch := flags.getLsbD 1
    chime := flags.getLsbD 2
    record := flags.getLsbD 3
    code := code
    source := sourceOfCode code.toNat
    threshold := img.readInt16 (b + 2)
    hysteresis := img.read16 (b + 4)
    qualifier := qualifierOfCode (img.read (b + 6)).toNat
    delay := (img.read (b + 7)).toNat
    cls := classOfCode (img.read (b + 8)).toNat
    lamp := if lamp < 16 then some (finOf 16 lamp) else none }

/-- A lamp's normal source (R111, R179). -/
def lampNormal (img : Mem) (m : Fin 16) : LampSource :=
  let b := 0x520 + 8 * m.val
  lampSourceOf (img.read b).toNat (img.read (b + 1)).toNat (img.read (b + 2)).toNat

/-- A lamp's fallback source (R111, R179). -/
def lampFallback (img : Mem) (m : Fin 16) : LampSource :=
  let b := 0x523 + 8 * m.val
  lampSourceOf (img.read b).toNat (img.read (b + 1)).toNat (img.read (b + 2)).toNat

/-- The aging limit (R126, R179). -/
def agingLimit (img : Mem) : Nat := (img.read 0x5A0).toNat

/-- The 2,048 bytes of an image (R179). -/
def imageSize : Nat := 2048

/-! The validation items of R179, in their order. -/

/-- Every index of a range passes. -/
def allBelow (n : Nat) (p : Nat → Bool) : Bool := (List.range n).all p

/-- A number lies in a range that includes both ends. -/
def within (lo hi v : Nat) : Bool := decide (lo ≤ v) && decide (v ≤ hi)

/-- The role of a line, by number. -/
def roleAt (img : Mem) (i : Nat) : Role := roleOfCode (img.read (0x010 + 2 * i)).toNat

/-- Some line holds a role. -/
def roleHeld (img : Mem) (r : Role) : Bool := (List.range 32).any (fun i => decide (roleAt img i = r))

/-- A lamp source triple passes item 15. -/
def lampSourceValid (img : Mem) (b : Nat) : Bool :=
  let kind := (img.read b).toNat
  let p1 := (img.read (b + 1)).toNat
  let p2 := (img.read (b + 2)).toNat
  decide (kind ≤ 6) &&
  (kind != 3 || (decide (p1 < 32) && decide (roleAt img p1 ≠ .unused) && within 1 3 p2)) &&
  (kind != 4 || decide (p1 ≤ 4))

/-- A source code passes item 13: the line it names is not UNUSED, the doorway it names is present. -/
def sourceRefersWell (img : Mem) (c : Nat) : Bool :=
  match sourceOfCode c with
  | some (.senseActive l) => decide ((lineEntry img l).role ≠ .unused)
  | some (.senseInactive l) => decide ((lineEntry img l).role ≠ .unused)
  | some (.wireFault l) => decide ((lineEntry img l).role ≠ .unused)
  | some (.doorStalled n) => doorwayPresent img n
  | some (.doorConflict n) => doorwayPresent img n
  | some (.doorEmergency n) => doorwayPresent img n
  | _ => true

/-- The raw values of a sender's breakpoints lie in 0 to 1023 and ascend strictly (item 8). -/
def rawsAscend : List (Nat × Int) → Bool
  | [] => true
  | [p] => decide (p.1 ≤ 1023)
  | p :: q :: l => decide (p.1 < q.1) && rawsAscend (q :: l)

/-- Validation item `i` of R179 (1 to 17). -/
def validationItem (img : Mem) (i : Nat) : Bool :=
  if i = 1 then decide (img.read 0 = 1) && decide (img.read16 2 = 2048)
  else if i = 2 then
    allBelow 32 (fun n => decide ((img.read (0x010 + 2 * n)).toNat ≤ 23) &&
      within 1 15 ((img.read (0x011 + 2 * n)).toNat / 16))
  else if i = 3 then
    decide (roleAt img 0 = .ignition) && allBelow 31 (fun n => decide (roleAt img (n + 1) ≠ .ignition))
  else if i = 4 then
    allBelow 32 (fun n => decide (roleAt img n = .general) || decide (roleAt img n = .unused) ||
      allBelow n (fun m => decide (roleAt img m ≠ roleAt img n)))
  else if i = 5 then
    let p := pulseParams img
    within 500 5000 p.timeout && decide (p.shift ≤ 4) && within 10 2550 p.p10 &&
      within 1 5000 p.rOn && decide (p.rOff ≤ 4999) && decide (p.permitDelay ≤ 2000)
  else if i = 6 then decide ((pulseParams img).rOff < (pulseParams img).rOn)
  else if i = 7 then
    within 1400 2200 (crankThreshold img) &&
      (List.finRange 5).all (fun c =>
        let e := senderEntry img c
        within 2 16 (img.read (senderBase c)).toNat && decide (e.shortLimit ≤ 1023) &&
          decide (e.openLimit ≤ 1023) && decide (e.shift ≤ 7) && decide (e.margin ≤ 32767) &&
          e.table.all (fun p => decide (-32767 ≤ p.2)))
  else if i = 8 then (List.finRange 5).all (fun c => rawsAscend (senderEntry img c).table)
  else if i = 9 then
    (List.finRange 5).all (fun c =>
      decide ((senderEntry img c).shortLimit < (senderEntry img c).openLimit))
  else if i = 10 then
    allBelow 4 (fun n => decide ((img.read (0x210 + 2 * n)).toNat ≤ 1) &&
      within 10 200 (img.read (0x211 + 2 * n)).toNat)
  else if i = 11 then
    (List.finRange 4).all (fun n => !doorwayPresent img n || roleHeld img (.switchClosed n))
  else if i = 12 then
    allBelow 48 (fun w =>
      let b := 0x220 + 16 * w
      (sourceOfCode (img.read (b + 1)).toNat).isSome && decide ((img.read (b + 6)).toNat ≤ 3) &&
        decide ((img.read (b + 8)).toNat ≤ 2) &&
        (decide ((img.read (b + 9)).toNat < 16) || decide (img.read (b + 9) = 0xFF)) &&
        decide (img.read16 (b + 4) ≤ 32767) && decide ((img.read b).toNat < 16))
  else if i = 13 then allBelow 48 (fun w => sourceRefersWell img (img.read (0x221 + 16 * w)).toNat)
  else if i = 14 then
    (List.finRange 48).all (fun w =>
      match (warningDef img w).lamp with
      | none => true
      | some m => decide (lampNormal img m = .warnings))
  else if i = 15 then
    allBelow 16 (fun m => lampSourceValid img (0x520 + 8 * m) && lampSourceValid img (0x523 + 8 * m))
  else if i = 16 then
    (List.finRange 16).all (fun m => decide (lampFallback img m ≠ .hostRequest))
  else if i = 17 then within 1 250 (agingLimit img)
  else true

/-- The index of the first failing item, or none where every item passes (R179). -/
def firstFailing (img : Mem) : Option Nat :=
  ((List.range 17).map (· + 1)).find? (fun i => !validationItem img i)

/-! The built-in default image (R180). -/

/-- The two bytes of a little-endian 16-bit number. -/
def le16 (n : Nat) : List Byte := [BitVec.ofNat 8 n, BitVec.ofNat 8 (n / 256)]

/-- The two bytes of a little-endian signed 16-bit number, two's complement. -/
def leInt16 (v : Int) : List Byte := le16 (BitVec.ofInt 16 v).toNat

/-- A default sender: two breakpoints, limits 0 and 1023, hold 5.0 s, s 3, M 0 (R55). -/
def defaultSender (c : Fin 5) (v0 vLast : Int) : Mem :=
  Mem.cells (senderBase c)
    ([2] ++ le16 0 ++ le16 1023 ++ [50, 3] ++ le16 0 ++ [0] ++ le16 0 ++ leInt16 v0 ++ le16 1023 ++
      leInt16 vLast)

/-- One of the default image's enabled warnings: ALWAYS, SELF_CLEAR, lamp 0, chime, record. -/
def defaultWarning (w : Fin 48) (code delay cls : Byte) : Mem :=
  Mem.cells (warningBase w) [0x0D, code, 0, 0, 0, 0, 0, delay, cls, 0]

/-- One of the default image's disabled warnings: source code 133, lamp 0xFF. -/
def defaultDisabled (w : Nat) : Mem :=
  Mem.cells (0x220 + 16 * w) [0, 133, 0, 0, 0, 0, 0, 0, 0, 0xFF]

/-- The built-in default image (R180). -/
def defaultImage : Mem :=
  Mem.cells 0 [1, 0, 0x00, 0x08] ++
  Mem.cells 0x010 ([1, 0x40] ++ (List.replicate 31 [0, 0x40]).flatten) ++
  Mem.cells 0x050 (le16 2000 ++ [2] ++ le16 10 ++ le16 400 ++ le16 300 ++ le16 300) ++
  Mem.cells 0x060 (le16 1800) ++
  defaultSender 0 0 1000 ++ defaultSender 1 (-400) 1500 ++ defaultSender 2 0 1000 ++
  defaultSender 3 0 1200 ++ defaultSender 4 0 1200 ++
  Mem.cells 0x210 [0, 80, 0, 80, 0, 80, 0, 80] ++
  defaultWarning 0 133 0 1 ++ defaultWarning 1 134 100 1 ++ defaultWarning 2 135 0 2 ++
  defaultWarning 3 136 0 2 ++
  ((List.range 44).map (fun i => defaultDisabled (4 + i))).flatten ++
  Mem.cells 0x520 [2] ++ Mem.cells 0x5A0 [40]

end Sys2Proof.Machine
end

