-- ==== Sys2Proof/Machine/State.lean ====
section
/-! DEFINITION. The state of the KD31, block by block, as plain data, and the state after reset. -/

namespace Sys2Proof.Machine

/-- A running timer (R3): the steps still to be counted, and the instant of its start, at which no
step is counted. `left = 0` is a timer whose expiry event has not yet been taken. -/
structure Timer where
  left : Nat
  since : Nat
  deriving DecidableEq, Repr

/-! ## Timebase -/

/-- The Timebase (R1, R2, R4). `now` counts microseconds since the end of the last full restart; the
timestamp counter is its low 32 bits. The other fields are the instants at which each cadence was
last taken, 0 for none (instant 0 is no cadence event). -/
structure Timebase where
  now : Nat
  lastSense : Nat
  lastStep : Nat
  lastLamp : Nat
  lastGauge : Nat
  lastFast : Nat
  lastSlow : Nat
  deriving DecidableEq, Repr

/-! ## Sense Line Unit -/

/-- Debounced states; all but `unknown` are also sample states (R5, R7). -/
inductive LineState where
  | unknown
  | active
  | inactive
  | short
  | broken
  deriving DecidableEq, Repr

/-- Raw classes (R6). -/
inductive RawClass where
  | short
  | closed
  | opened
  | broken
  deriving DecidableEq, Repr

/-- The state of a sense line (R5). -/
structure Line where
  debounced : LineState
  candidate : Option LineState
  run : Nat
  lastClass : Option RawClass
  deriving DecidableEq, Repr

/-- The Sense Line Unit. -/
structure SenseUnit where
  lines : Vector Line 32
  deriving DecidableEq, Repr

/-! ## Pulse Channel Unit -/

/-- Speed status (R25). -/
inductive SpeedStatus where
  | valid
  | over
  | invalid
  deriving DecidableEq, Repr

/-- Motion state (R27). -/
inductive Motion where
  | unknown
  | standstill
  | moving
  deriving DecidableEq, Repr

/-- The Pulse Channel Unit (R17, R28, R29, R34). The WIRE cause of the speed source is `wireBroken`, the
CALIBRATION cause is an invalid calibration record. -/
structure PulseUnit where
  /-- Last accepted edge of PULSE_V. -/
  lastEdge : Stamp
  /-- Cycle edge count n. -/
  count : Nat
  reference : Option Stamp
  raw : Nat
  displayed : Nat
  status : SpeedStatus
  motion : Motion
  /-- Standstill start time, as an instant: its timestamp is its low 32 bits. -/
  standstillAt : Option Nat
  wireBroken : Bool
  wireRun : Nat
  /-- Distance accumulator. -/
  acc : Nat
  /-- K of the calibration record; 0 while the record is invalid. -/
  k : Nat
  calValid : Bool
  /-- Last accepted edge of PULSE_E. -/
  engineEdge : Stamp
  engineCount : Nat
  engineRef : Option Stamp
  rpm : Nat
  running : Bool
  deriving DecidableEq, Repr

/-! ## Distance Counter -/

/-- A trip meter: value in 10 m units and run flag (R39). -/
structure Trip where
  value : Nat
  running : Bool
  deriving DecidableEq, Repr

/-- The low-supply watch (R44). -/
inductive Watch where
  | armed
  | timing (timer : Timer)
  | spent
  deriving DecidableEq, Repr

/-- A request in flight that waits on one job: its side, and whether that job has started (R145). -/
structure Waiter where
  side : Side
  started : Bool
  deriving DecidableEq, Repr

/-- The Distance Counter (R39). -/
structure Distance where
  /-- Live odometer, 10 m units. -/
  live : Nat
  /-- Odometer status ODO_LOST. -/
  lost : Bool
  retained : Nat
  /-- Ticks since last save. -/
  ticks : Nat
  nextSlot : Fin 8
  writeCounts : Vector Nat 8
  tripA : Trip
  tripB : Trip
  watch : Watch
  /-- PRESET_ODOMETER in flight (R52). -/
  preset : Option Waiter
  /-- SET_K_FACTOR or WRITE_K_FACTOR in flight (R53). -/
  kfactor : Option Waiter
  deriving DecidableEq, Repr

/-! ## Analog Channel Unit -/

/-- Channel status (R55). -/
inductive ChannelStatus where
  | valid
  | held
  | invalid
  deriving DecidableEq, Repr

/-- An analog channel (R55). Channels 0 to 4 are FUEL, COOLANT, OIL, AIR1, AIR2; channel 5 is SUPPLY. -/
structure Channel where
  sum : Nat
  count : Nat
  /-- A sample taken at the instant of a gauge cycle before that cycle: it belongs to the next
  group (R56). -/
  late : Option Sample
  mean : Option Nat
  /-- Table value x. -/
  x : Option Int
  /-- Filtered value y. -/
  y : Option Int
  status : ChannelStatus
  fault : Bool
  hold : Option Timer
  quick : Nat
  deriving DecidableEq, Repr

/-- The Analog Channel Unit (R55). -/
structure AnalogUnit where
  channels : Vector Channel 6
  /-- The instant of the samples held in `late`. -/
  lateAt : Nat
  crankHold : Bool
  supplyLow : Bool
  deriving DecidableEq, Repr

/-! ## Doorway Monitor -/

/-- Doorway states (R71). -/
inductive DoorState where
  | unknown
  | closed
  | moving
  | opened
  | stalled
  | conflict
  deriving DecidableEq, Repr

/-- Switch combinations (R72). -/
inductive Combo where
  | fault
  | shut
  | full
  | travel
  | both
  deriving DecidableEq, Repr

/-- A doorway (R71). -/
structure Doorway where
  state : DoorState
  combo : Combo
  obstructed : Bool
  emergency : Bool
  travel : Option Timer
  conflict : Option Timer
  deriving DecidableEq, Repr

/-- The stop cycle (R76). -/
inductive Cycle where
  | outOfService
  | driving
  | arrived
  | atStop
  | departing
  deriving DecidableEq, Repr

/-- A stop record (R78). Flag bits are those of R176. -/
structure StopRecord where
  sequence : Nat
  openStamp : Stamp
  closeStamp : Stamp
  odometer : Nat
  dwell : Nat
  mask : BitVec 4
  obstructions : Nat
  flags : BitVec 8
  deriving DecidableEq, Repr

/-- The open stop record with the instant of its opening and its last-close dwell (R78, R80). Its
`dwell` is the running dwell count. -/
structure OpenStop where
  record : StopRecord
  openedAt : Nat
  lastClose : Nat
  deriving DecidableEq, Repr

/-- The Doorway Monitor (R71). -/
structure DoorMonitor where
  doorways : Vector Doorway 4
  kneel : Bool
  ramp : Bool
  cycle : Cycle
  stop : Option OpenStop
  latch : Bool
  /-- Oldest first. -/
  journal : List StopRecord
  nextSequence : Nat
  /-- Standstill age in timer steps (R84). -/
  age : Option Nat
  /-- The age has just reached the permit delay; STANDSTILL_MATURE is not yet taken. -/
  matureDue : Bool
  dpermit : Bool
  deriving DecidableEq, Repr

/-! ## Warning Unit -/

/-- Warning states (R89). -/
inductive WarnState where
  | inactive
  | pending
  | activeUnack
  | activeAck
  | latched
  deriving DecidableEq, Repr

/-- A warning (R89, R100). -/
structure Warning where
  state : WarnState
  timer : Option Timer
  truth : Bool
  number : Option Nat
  age : Nat
  onsetAt : Nat
  deriving DecidableEq, Repr

/-- The status that a gauge channel's value is handed over with (R92): the shown status of an analog channel (R66),
the speed status for DISPLAYED_SPEED (R37), and none for ENGINE_RPM, which has no status. -/
inductive HandedStatus where
  | channel (status : ChannelStatus)
  | speed (status : SpeedStatus)
  | none
  deriving DecidableEq, Repr

/-- The last value and status handed over for a gauge channel (R92). -/
structure Handed where
  value : Int
  status : HandedStatus
  deriving DecidableEq, Repr

/-- The Warning Unit (R89). Gauge channels are numbered as in R179. -/
structure WarningUnit where
  warnings : Vector Warning 48
  nextNumber : Nat
  /-- The active warning list, in order. -/
  list : List (Fin 48)
  handed : Vector (Option Handed) 8
  deriving DecidableEq, Repr

/-! ## Output Unit -/

/-- Lamp owners (R114). -/
inductive Owner where
  | normal
  | fallback
  | test
  deriving DecidableEq, Repr

/-- A lamp and its pin (R111, R114). -/
structure Lamp where
  appearance : Appearance
  owner : Owner
  pin : Bool
  deriving DecidableEq, Repr

/-- Burst classes (R105). -/
inductive BurstClass where
  | info
  | caution
  deriving DecidableEq, Repr

/-- The current burst: its class, the number of its 200 ms interval (even ones are on), its timer
(R107). -/
structure Burst where
  cls : BurstClass
  position : Nat
  timer : Timer
  deriving DecidableEq, Repr

/-- The buzzer arbiter (R106). The repeat sounds while it has its half timer. -/
structure Arbiter where
  level : Bool
  repeatTimer : Option Timer
  current : Option Burst
  pending : Option BurstClass
  deriving DecidableEq, Repr

/-- Output test patterns (R118). -/
inductive Pattern where
  | lampWalk
  | allLamps
  | buzzer
  | gaugeSweep
  deriving DecidableEq, Repr

/-- Abort reasons of an output test (R119). -/
inductive AbortReason where
  | stopped
  | ignitionOff
  | motion
  | parkingBrake
  | stopWarning
  | claimReleased
  | sideGone
  deriving DecidableEq, Repr

/-- A running output test (R118). -/
structure OutputTest where
  side : Side
  pattern : Pattern
  duration : Timer
  startedAt : Nat
  /-- Gauge cycles since the start (R68). -/
  cycles : Nat
  /-- LAMP_WALK step. -/
  step : Fin 16
  /-- The 500 ms timer of LAMP_WALK or BUZZER. -/
  half : Option Timer
  /-- The BUZZER pattern is in its on half. -/
  buzzOn : Bool
  deriving DecidableEq, Repr

/-- The result of the last test that ended (R116). -/
inductive TestResult where
  | none
  | ok
  | aborted (reason : AbortReason)
  deriving DecidableEq, Repr

/-- Supervision stages (R122). -/
inductive Stage where
  | off
  | watching
  | warned
  | fallback
  deriving DecidableEq, Repr

/-- Host supervision (R122). The period timer counts lamp refreshes. -/
structure Supervision where
  period : Nat
  /-- Mode FALLBACK_AND_RESET. -/
  resets : Bool
  stage : Stage
  expected : Byte
  timer : Option Timer
  /-- Resume progress 1. -/
  progress : Bool
  /-- Fallback occurred. -/
  occurred : Bool
  /-- HRSTn is driven low while its 100 ms timer runs. -/
  hrst : Option Timer
  deriving DecidableEq, Repr

/-- The Output Unit (R106, R111, R118, R122). -/
structure OutputUnit where
  lamps : Vector Lamp 16
  arbiter : Arbiter
  test : Option OutputTest
  lastResult : TestResult
  supervision : Supervision
  deriving DecidableEq, Repr

/-! ## Fault Memory -/

/-- A doorway in a freeze frame (R127). -/
structure DoorSummary where
  present : Bool
  state : DoorState
  obstructed : Bool
  emergency : Bool
  deriving DecidableEq, Repr

/-- A freeze frame (R127). -/
structure FreezeFrame where
  speed : Nat
  speedStatus : SpeedStatus
  rpm : Nat
  supply : Int
  coolant : Int
  coolantStatus : ChannelStatus
  doorways : Vector DoorSummary 4
  deriving DecidableEq, Repr

/-- A fault record (R126). -/
structure FaultRecord where
  code : Fin 48
  /-- Source snapshot, a source code of R179. -/
  source : Byte
  /-- Status ACTIVE. -/
  active : Bool
  count : Nat
  aging : Nat
  firstOdometer : Nat
  lastOdometer : Nat
  frame : FreezeFrame
  deriving DecidableEq, Repr

/-- A record place (R126). -/
inductive Place where
  | free
  | stored (record : FaultRecord)
  | erasing (record : FaultRecord)
  deriving DecidableEq, Repr

/-- The objects of the Retained Store (R140). -/
inductive Object where
  | ring
  | tripA
  | tripB
  | calibration
  | configuration
  | header
  | place (index : Fin 40)
  deriving DecidableEq, Repr

/-- A job a clear waits on: its object, and whether it has started (R134). -/
structure ClearWait where
  object : Object
  started : Bool
  deriving DecidableEq, Repr

/-- A clear in flight: its side, its scope (none is ALL), the jobs it still waits on, and whether one
has failed (R134, R136). -/
structure Clear where
  side : Side
  scope : Option (Fin 48)
  waits : List ClearWait
  failed : Bool
  deriving DecidableEq, Repr

/-- The Fault Memory (R126). The record count is the number of STORED places; the clear-in-flight flag
is set while `clear` holds one. -/
structure FaultMemory where
  places : Vector Place 40
  overflow : Nat
  clear : Option Clear
  /-- The model's own (log entry 42): how many of the events that R137 lists have been taken, so that each of
  them rewrites the view, also where it changed no field. -/
  viewEvents : Nat
  deriving DecidableEq, Repr

/-! ## Retained Store -/

/-- A page of the array: its content, and the check byte beside it (R140). The check byte is held as its
difference (XOR) from the one computed over the content, so that the two match where the difference is 0;
`Page.checkByte` gives the byte itself. Log entry 7. -/
structure Page (α : Type) where
  content : α
  checkError : Byte
  deriving DecidableEq, Repr

/-- The content of a ring slot: ten BCD nibbles and the write count (R45). -/
structure RingSlot where
  value : BitVec 40
  count : Nat
  deriving DecidableEq, Repr

/-- A configuration page: its 32 bytes, and the write count beside them (R140). -/
structure ConfigPage where
  bytes : Mem
  count : Nat
  deriving DecidableEq, Repr

/-- The array (R140). -/
structure NvArray where
  ring : Vector (Page RingSlot) 8
  tripA : Page Trip
  tripB : Page Trip
  /-- K. -/
  calibration : Page Nat
  configuration : Vector (Page ConfigPage) 64
  /-- Record count and overflow count. -/
  header : Page (Nat × Nat)
  /-- The record, or the FREE marker. -/
  places : Vector (Page (Option FaultRecord)) 40
  deriving DecidableEq, Repr

/-- The captured content of a job's object (R142). -/
inductive Captured where
  | ring (slot : Fin 8) (content : RingSlot)
  | tripA (trip : Trip)
  | tripB (trip : Trip)
  | calibration (k : Nat)
  | configuration (image : Mem) (count : Nat)
  | header (records overflow : Nat)
  | place (index : Fin 40) (record : Option FaultRecord)
  deriving DecidableEq, Repr

/-- Whether the job's page is in flight, since an instant, or waits for the supply (R142, R143). -/
inductive PagePhase where
  | inFlight (since : Nat)
  | waiting
  deriving DecidableEq, Repr

/-- The job in the write engine (R142). -/
structure Job where
  object : Object
  content : Captured
  page : Nat
  /-- The attempt is the retry. -/
  retry : Bool
  phase : PagePhase
  deriving DecidableEq, Repr

/-- The Retained Store (R140 to R147). -/
structure RetainedStore where
  array : NvArray
  /-- Oldest first. -/
  queue : List Object
  /-- WRITING with its job, or IDLE. -/
  job : Option Job
  /-- The objects marked "not retained". -/
  notRetained : List Object
  /-- The configuration write count of the last configuration job, or found at recovery (R147). -/
  configCount : Nat
  deriving DecidableEq, Repr

/-! ## Workshop Link -/

/-- Frame kinds (R149). -/
inductive FrameKind where
  | none
  | request
  | fetch
  | ignored
  deriving DecidableEq, Repr

/-- What a fetch sends (R156): not yet decided, the characters with the number already accepted, or
nothing more. `ready` says that the status sent is READY. -/
inductive FetchOut where
  | undecided
  | sending (ready : Bool) (chars : List Byte) (position : Nat)
  | ended
  deriving DecidableEq, Repr

/-- The timed operations a request may wait on (R155, R170). -/
inductive Operation where
  | adopt
  | clear
  | preset
  | kfactor
  | test
  deriving DecidableEq, Repr

/-- The reply buffer (R155). A WAITING reply awaits its take, or an operation. -/
inductive Reply where
  | empty
  | waiting (tag : BitVec 7) (operation : Option Operation)
  | ready (tag : BitVec 7) (payload : List Byte)
  | delivered (tag : BitVec 7) (payload : List Byte)
  | discarded (tag : BitVec 7)
  deriving DecidableEq, Repr

/-- An accepted request not yet taken (R153). Its length is that of its payload. -/
structure Request where
  tag : BitVec 7
  payload : List Byte
  acceptedAt : Nat
  deriving DecidableEq, Repr

/-- The Workshop Link (R149). -/
structure WorkshopLink where
  /-- Line state IN_FRAME. -/
  inFrame : Bool
  counter : Nat
  /-- Bits of the character in transfer, first bit first. -/
  shift : List Bool
  kind : FrameKind
  /-- Characters of the current frame received so far. -/
  progress : List Byte
  /-- The answer bit decided at count 8: true is high, refuse (R151). -/
  answer : Bool
  out : FetchOut
  /-- The hold after an accepted request begins at the end of this count 9 (R152). -/
  holdNext : Bool
  /-- WCK is held low while this timer runs. -/
  hold : Option Timer
  request : Option Request
  reply : Reply
  /-- Session OPEN. -/
  session : Bool
  sessionTimer : Option Timer
  deriving DecidableEq, Repr

/-! ## Window Port -/

/-- Slot states (R168). -/
inductive SlotState where
  | free
  | posted
  | taken
  | done
  deriving DecidableEq, Repr

/-- Claim holders (R167). -/
inductive Holder where
  | free
  | window
  | workshop
  deriving DecidableEq, Repr

/-- Notices, in the order of their bits (R173, R176). -/
inductive Notice where
  | slotDone
  | warningsChanged
  | doorsChanged
  | gaugeCycle
  | stopRecorded
  | faultMemoryChanged
  | workshop
  | claimChanged
  | supervision
  | portFault
  | store
  | ignition
  | outputTest
  deriving DecidableEq, Repr

/-- Configuration sources (R165). -/
inductive ConfigSource where
  | stored
  | adopted
  | defaults
  deriving DecidableEq, Repr

/-- A kind's window operation in flight: none, naming a slot, or naming no slot (R169, R174). -/
inductive WindowOp where
  | idle
  | slot (n : Fin 8)
  | orphan
  deriving DecidableEq, Repr

/-- The window operations in flight, one for each kind that can stay in flight (R170). -/
structure WindowOps where
  adopt : WindowOp
  clear : WindowOp
  preset : WindowOp
  kfactor : WindowOp
  test : WindowOp
  deriving DecidableEq, Repr

/-- Claim holders, by claim (R167). -/
structure Claims where
  faults : Holder
  odometer : Holder
  config : Holder
  outputs : Holder
  deriving DecidableEq, Repr

/-- The Window Port (R163 to R174). -/
structure WindowPort where
  /-- Window RAM: slot bytes but their state bytes, lamp requests, staging area, images. -/
  ram : Mem
  slots : Vector SlotState 8
  /-- Attention bits, each with the instant at which it was set. -/
  attention : Vector (Option Nat) 8
  claims : Claims
  notice : NoticeWord
  enable : NoticeWord
  /-- Port-fault capture. -/
  capture : Option (BitVec 13)
  faultCount : Nat
  /-- Last restart cause SOFT. -/
  softCause : Bool
  source : ConfigSource
  ops : WindowOps
  /-- ADOPT_CONFIG in flight. -/
  adoption : Option Waiter
  /-- Instant of the last slot take. -/
  lastTake : Nat
  /-- The byte that a READ last fetched, to be shifted out on SDO next (R163). What SDO gives through a
  transaction is `spiOut`. -/
  sdo : Byte
  deriving DecidableEq, Repr

/-! ## The machine -/

/-- The whole state. -/
structure State where
  time : Timebase
  sense : SenseUnit
  pulse : PulseUnit
  dist : Distance
  analog : AnalogUnit
  door : DoorMonitor
  warn : WarningUnit
  out : OutputUnit
  faults : FaultMemory
  store : RetainedStore
  link : WorkshopLink
  win : WindowPort
  /-- The configuration in force (R171). -/
  image : Mem
  /-- The commands that wait, first in, first out. -/
  pending : List Instr
  deriving DecidableEq, Repr

/-- The faults of the machine: none. The manual names no event at which the part stops, so no
constructor stands here and no step ends in a fault. -/
inductive Fault where
  deriving DecidableEq, Repr

/-- The refusals of the machine. -/
inductive Refusal where
  /-- A row of the operation table without a meaning. Raised by no arm of `exec`: every row has its
  meaning. It would be safe: the machine would stop. -/
  | notModelled (mnemonic : String)
  deriving DecidableEq, Repr

/-! ## After reset -/

/-- A line after a full restart (R5). -/
def Line.reset : Line := { debounced := .unknown, candidate := none, run := 0, lastClass := none }

/-- A channel after a full restart (R55). -/
def Channel.reset : Channel :=
  { sum := 0, count := 0, late := none, mean := none, x := none, y := none, status := .invalid
    fault := false, hold := none, quick := 0 }

/-- A doorway after a full restart (R71). -/
def Doorway.reset : Doorway :=
  { state := .unknown, combo := .fault, obstructed := false, emergency := false, travel := none
    conflict := none }

/-- A warning after a full restart (R89). -/
def Warning.reset : Warning :=
  { state := .inactive, timer := none, truth := false, number := none, age := 0, onsetAt := 0 }

/-- A warning whose onset took a number at instant 0. -/
def Warning.onsetAtReset (number : Nat) : Warning :=
  { state := .activeUnack, timer := none, truth := true, number := some number, age := 0, onsetAt := 0 }

/-- A lamp after a full restart (R111). -/
def Lamp.reset : Lamp := { appearance := .off, owner := .normal, pin := false }

/-- An array in which every page fails its check. Contents are then never read; log entry 3. -/
def NvArray.blank : NvArray :=
  { ring := Vector.replicate 8 { content := { value := 0, count := 0 }, checkError := Config.failedCheck }
    tripA := { content := { value := 0, running := false }, checkError := Config.failedCheck }
    tripB := { content := { value := 0, running := false }, checkError := Config.failedCheck }
    calibration := { content := 0, checkError := Config.failedCheck }
    configuration := Vector.replicate 64 { content := { bytes := [], count := 0 }, checkError := Config.failedCheck }
    header := { content := (0, 0), checkError := Config.failedCheck }
    places := Vector.replicate 40 { content := none, checkError := Config.failedCheck } }

/-- The freeze frame of an occurrence at the end of a restart: no speed evaluated, no channel value
yet, no doorway readable (R17, R55, R71). -/
def FreezeFrame.reset : FreezeFrame :=
  { speed := 0, speedStatus := .invalid, rpm := 0, supply := -32768, coolant := -32768
    coolantStatus := .invalid
    doorways := Vector.replicate 4 { present := false, state := .unknown, obstructed := false, emergency := false } }

/-- The record made at the end of a restart for a warning of the default image. -/
def FaultRecord.reset (code : Fin 48) (source : Byte) : FaultRecord :=
  { code := code, source := source, active := true, count := 1, aging := 0, firstOdometer := 0
    lastOdometer := 0, frame := FreezeFrame.reset }

/-- The 25 bytes of such a record's place (R176): STORED, ACTIVE, speed and COOLANT INVALID, count 1,
SUPPLY and COOLANT 0x8000. -/
def resetPlaceBytes (code source : Byte) : List Byte :=
  [0x55, code, source, 1, 0, 0, 0, 0, 0, 0, 0, 0, 0, 0, 0, 0, 0, 0, 0, 0x80, 0, 0x80, 0, 0, 0]

/-- The window RAM after reset: the warning list image and the fault memory view, each written once at
the end of the restart (R101, R137, R175). -/
def resetRam : Mem :=
  Mem.cells 0x1100 [1, 3, 0, 9, 1, 0, 0, 3, 10, 3, 0, 0, 2, 10, 2, 0, 0] ++ [(0x11FF, 1)] ++
  Mem.cells 0x1400 ([1, 3, 0, 0] ++ resetPlaceBytes 0 133 ++ resetPlaceBytes 2 135 ++
    resetPlaceBytes 3 136) ++
  (List.range 37).map (fun i => (0x1450 + 25 * i, 0xFF)) ++ [(0x17FF, 1)]

/-- The machine right after reset: a full restart that finds a blank array, at the end of which the
default image's warnings 0, 2 and 3 have their onset (R94, R175, R180). The jobs of their three records wait in the
order in which the onsets asked for them, the header's after the first place's (R131 gives none): DESIGN CHOICE, log
entries 29 and 48. -/
def State.reset : State :=
  { time := { now := 0, lastSense := 0, lastStep := 0, lastLamp := 0, lastGauge := 0, lastFast := 0
              lastSlow := 0 }
    sense := { lines := Vector.replicate 32 Line.reset }
    pulse := { lastEdge := 0, count := 0, reference := none, raw := 0, displayed := 0, status := .invalid
               motion := .unknown, standstillAt := none, wireBroken := false, wireRun := 0, acc := 0, k := 0
               calValid := false, engineEdge := 0, engineCount := 0, engineRef := none, rpm := 0
               running := false }
    dist := { live := 0, lost := true, retained := 0, ticks := 0, nextSlot := 0
              writeCounts := Vector.replicate 8 0, tripA := { value := 0, running := false }
              tripB := { value := 0, running := false }, watch := .armed, preset := none, kfactor := none }
    analog := { channels := Vector.replicate 6 Channel.reset, lateAt := 0, crankHold := false
                supplyLow := false }
    door := { doorways := Vector.replicate 4 Doorway.reset, kneel := false, ramp := false
              cycle := .outOfService, stop := none, latch := false, journal := [], nextSequence := 1
              age := none, matureDue := false, dpermit := false }
    warn := { warnings := (((Vector.replicate 48 Warning.reset).set 0 (Warning.onsetAtReset 1)).set 2
                (Warning.onsetAtReset 2)).set 3 (Warning.onsetAtReset 3)
              nextNumber := 4, list := [0, 3, 2], handed := Vector.replicate 8 none }
    out := { lamps := Vector.replicate 16 Lamp.reset
             arbiter := { level := true, repeatTimer := none
                          current := some { cls := .caution, position := 0, timer := { left := 20, since := 0 } }
                          pending := some .info }
             test := none, lastResult := .none
             supervision := { period := 0, resets := false, stage := .off, expected := 0x5A, timer := none
                              progress := false, occurred := false, hrst := none } }
    faults := { places := (((Vector.replicate 40 Place.free).set 0 (.stored (.reset 0 133))).set 1
                  (.stored (.reset 2 135))).set 2 (.stored (.reset 3 136))
                overflow := 0, clear := none, viewEvents := 3 }
    store := { array := NvArray.blank, queue := [.place 0, .header, .place 1, .place 2], job := none
               notRetained := [.ring, .tripA, .tripB, .calibration, .configuration], configCount := 0 }
    link := { inFrame := false, counter := 0, shift := [], kind := .none, progress := [], answer := false
              out := .undecided, holdNext := false, hold := none, request := none, reply := .empty
              session := false, sessionTimer := none }
    win := { ram := resetRam, slots := Vector.replicate 8 .free, attention := Vector.replicate 8 none
             claims := { faults := .free, odometer := .free, config := .free, outputs := .free }
             notice := 0x422, enable := 0, capture := none, faultCount := 0, softCause := false
             source := .defaults
             ops := { adopt := .idle, clear := .idle, preset := .idle, kfactor := .idle, test := .idle }
             adoption := none, lastTake := 0, sdo := 0xFF }
    image := defaultImage
    pending := [] }

end Sys2Proof.Machine
end

