-- ==== Sys2Proof/Machine/Ops.lean ====
section
/-! DEFINITION. The named operations over the clock, timers, window RAM, notices, jobs, claims and
replies that every block shares. -/

namespace Sys2Proof.Machine

/-! ## Time -/

/-- The timestamp of an instant: the low 32 bits (R1). -/
def stampOf (t : Nat) : Stamp := BitVec.ofNat 32 t

/-- A span between two stamps, taken modulo 2³² (R1). -/
def span (later earlier : Stamp) : Nat := (later - earlier).toNat

/-- The instant of the next occurrence of a periodic event: this instant when it is a whole multiple of
the period other than 0 and the event was not yet taken at it, else the next multiple (R2). -/
def nextInstant (period last now : Nat) : Nat :=
  if now % period = 0 ∧ now ≠ 0 ∧ last ≠ now then now else (now / period + 1) * period

/-- The state at a later instant. -/
def setNow (t : Nat) (s : State) : State := { s with time := { s.time with now := t } }

/-! ## Timers (R3) -/

/-- Steps of a duration in milliseconds, rounded up to whole 10 ms. -/
def stepsOf (ms : Nat) : Nat := (ms + 9) / 10

/-- A timer just started with a duration other than 0. -/
def newTimer (now ms : Nat) : Timer := { left := stepsOf ms, since := now }

/-- One timer step: not counted at the instant of the start. -/
def Timer.tick (now : Nat) (t : Timer) : Timer :=
  if t.since = now then t else { t with left := t.left - 1 }

/-- The timer's count has reached zero and its expiry event is not yet taken. -/
def expired : Option Timer → Bool
  | none => false
  | some t => decide (t.left = 0)

/-! ## Notices (R173) -/

/-- The bit of a notice (R176). -/
def Notice.bit : Notice → Nat
  | .slotDone => 0
  | .warningsChanged => 1
  | .doorsChanged => 2
  | .gaugeCycle => 3
  | .stopRecorded => 4
  | .faultMemoryChanged => 5
  | .workshop => 6
  | .claimChanged => 7
  | .supervision => 8
  | .portFault => 9
  | .store => 10
  | .ignition => 11
  | .outputTest => 12

/-- The notice word with only this bit set. -/
def Notice.mask (n : Notice) : NoticeWord := BitVec.twoPow 13 n.bit

/-- A notice is set. -/
def setNotice (n : Notice) (s : State) : State :=
  { s with win := { s.win with notice := s.win.notice ||| n.mask } }

/-! ## Window RAM -/

/-- One byte of window RAM. -/
def ramRead (s : State) (a : Nat) : Byte := s.win.ram.read a

/-- A byte stored in window RAM. -/
def ramWrite (a : Nat) (v : Byte) (s : State) : State :=
  { s with win := { s.win with ram := s.win.ram.write a v } }

/-- An image rewritten at one event: the lead generation incremented, the content written, 0 in the
bytes the content does not reach, the trail set equal to the lead (R172, R176). -/
def rewriteImage (base size : Nat) (content : List Byte) (s : State) : State :=
  let lead := ramRead s base + 1
  { s with win := { s.win with
      ram := (s.win.ram.fill base size (lead :: content)).write (base + size - 1) lead } }

/-! ## Jobs (R141) -/

/-- A save is asked for: a job at the tail, unless the object already has one in the queue. -/
def enqueue (o : Object) (s : State) : State :=
  if o ∈ s.store.queue then s
  else { s with store := { s.store with queue := s.store.queue ++ [o] } }

/-- The SUPPLY value most recently handed over (R66). -/
def supplyHanded (s : State) : Option Int := s.analog.channels[5].y

/-- A SUPPLY of 16.00 V or more has been handed over (R142, R143). -/
def supplyAllowsPage (s : State) : Bool :=
  match supplyHanded s with
  | some v => decide (Config.pageSupply ≤ v)
  | none => false

/-! ## Claims (R167) -/

/-- The holder of a claim. -/
def Claims.holder (c : Claims) : Claim → Holder
  | .faults => c.faults
  | .odometer => c.odometer
  | .config => c.config
  | .outputs => c.outputs

/-- The claims with one holder replaced. -/
def Claims.give (c : Claims) (k : Claim) (h : Holder) : Claims :=
  match k with
  | .faults => { c with faults := h }
  | .odometer => { c with odometer := h }
  | .config => { c with config := h }
  | .outputs => { c with outputs := h }

/-- A claim's holder is replaced. -/
def setClaim (k : Claim) (h : Holder) (s : State) : State :=
  { s with win := { s.win with claims := s.win.claims.give k h } }

/-- The holder that a side is. -/
def sideHolder : Side → Holder
  | .window => .window
  | .workshop => .workshop

/-- The requesting side holds the claim. -/
def holdsClaim (s : State) (side : Side) (k : Claim) : Bool :=
  decide (s.win.claims.holder k = sideHolder side)

/-- A holder as it is after all claims of one holder are released. -/
def Holder.dropped (h by_ : Holder) : Holder := if h = by_ then .free else h

/-- Every claim of one holder becomes FREE. -/
def dropClaims (h : Holder) (s : State) : State :=
  { s with win := { s.win with claims :=
      { faults := s.win.claims.faults.dropped h, odometer := s.win.claims.odometer.dropped h
        config := s.win.claims.config.dropped h, outputs := s.win.claims.outputs.dropped h } } }

/-- Some claim is held by this holder. -/
def holdsAny (s : State) (h : Holder) : Bool :=
  decide (s.win.claims.faults = h) || decide (s.win.claims.odometer = h) ||
    decide (s.win.claims.config = h) || decide (s.win.claims.outputs = h)

/-! ## Results (R170, R177) -/

/-- Result codes. -/
inductive Result where
  | ok
  | aborted
  | notClaimed
  | wrongState
  | badParameter
  | busy
  | unknownKind
  | noSession
  | configRejected
  | notRetained
  deriving DecidableEq, Repr

/-- The code of a result (R177). -/
def Result.code : Result → Byte
  | .ok => 0
  | .aborted => 1
  | .notClaimed => 2
  | .wrongState => 3
  | .badParameter => 4
  | .busy => 5
  | .unknownKind => 6
  | .noSession => 7
  | .configRejected => 8
  | .notRetained => 9

/-- OK where the save succeeded, NOT_RETAINED where it failed (R144). -/
def savedResult (success : Bool) : Result := if success then .ok else .notRetained

/-! ## Slots (R168, R177) -/

/-- The address of a slot. -/
def slotBase (n : Fin 8) : Nat := 0x0100 + 64 * n.val

/-- A byte of a slot other than its state byte. -/
def slotByte (s : State) (n : Fin 8) (offset : Nat) : Byte := ramRead s (slotBase n + offset)

/-- A slot's state is replaced. -/
def setSlotState (n : Fin 8) (st : SlotState) (s : State) : State :=
  { s with win := { s.win with slots := s.win.slots.set n.val st n.isLt } }

/-- A slot's attention bit is cleared, or set at an instant. -/
def setAttention (n : Fin 8) (b : Option Nat) (s : State) : State :=
  { s with win := { s.win with attention := s.win.attention.set n.val b n.isLt } }

/-- The result and detail bytes of a slot. -/
def setSlotResult (n : Fin 8) (result detail : Byte) (s : State) : State :=
  ramWrite (slotBase n + 4) detail (ramWrite (slotBase n + 3) result s)

/-- A slot becomes DONE with its result and detail, and SLOT_DONE is set (R169). -/
def finishSlot (n : Fin 8) (result : Result) (detail : Byte) (s : State) : State :=
  setNotice .slotDone (setSlotState n .done (setSlotResult n result.code detail s))

/-! ## The link's reply buffer (R152, R155, R156) -/

/-- XOR of characters (R153, R156). -/
def xorAll (l : List Byte) : Byte := l.foldl (· ^^^ ·) 0

/-- The characters of a fetch: status, tag echo, length, payload, check (R156, R178). -/
def fetchChars (status : Byte) (tag : BitVec 7) (payload : List Byte) : List Byte :=
  let body := [status, tag.setWidth 8, BitVec.ofNat 8 payload.length] ++ payload
  body ++ [xorAll body]

/-- The fetch that a reply buffer gives (R155, R156). -/
def fetchOf : Reply → FetchOut
  | .empty => .sending false (fetchChars 3 0 []) 0
  | .waiting tag _ => .sending false (fetchChars 2 tag []) 0
  | .ready tag payload => .sending true (fetchChars 1 tag payload) 0
  | .delivered tag payload => .sending false (fetchChars 1 tag payload) 0
  | .discarded tag => .sending false (fetchChars 4 tag []) 0

/-- The reply buffer is WAITING. -/
def Reply.isWaiting : Reply → Bool
  | .waiting _ _ => true
  | _ => false

/-- The tag a reply buffer records, 0 when it is EMPTY (R156). -/
def Reply.tag : Reply → BitVec 7
  | .empty => 0
  | .waiting t _ => t
  | .ready t _ => t
  | .delivered t _ => t
  | .discarded t => t

/-- A hold ends: WCK is released, its timer stops, and a fetch that waited for its status has it
decided by the buffer (R152, R156). -/
def releaseHold (l : WorkshopLink) : WorkshopLink :=
  { l with
    hold := none
    out := if l.kind = .fetch ∧ l.out = .undecided then fetchOf l.reply else l.out }

/-- The reply buffer takes a new state. A hold ends when the buffer leaves WAITING (R152). -/
def setReply (r : Reply) (s : State) : State :=
  let l := { s.link with reply := r }
  { s with link := if l.hold.isSome && !r.isWaiting then releaseHold l else l }

/-! ## Delivery of an operation's result (R120, R155, R169) -/

/-- The service code of a timed operation (R178). -/
def Operation.serviceCode : Operation → Byte
  | .adopt => 0
  | .clear => 16
  | .preset => 17
  | .kfactor => 18
  | .test => 19

/-- The window's record for an operation. -/
def WindowOps.get (o : WindowOps) : Operation → WindowOp
  | .adopt => o.adopt
  | .clear => o.clear
  | .preset => o.preset
  | .kfactor => o.kfactor
  | .test => o.test

/-- The window's records with one replaced. -/
def WindowOps.put (o : WindowOps) (k : Operation) (w : WindowOp) : WindowOps :=
  match k with
  | .adopt => { o with adopt := w }
  | .clear => { o with clear := w }
  | .preset => { o with preset := w }
  | .kfactor => { o with kfactor := w }
  | .test => { o with test := w }

/-- The window operation in flight of a kind is recorded. -/
def setWindowOp (k : Operation) (w : WindowOp) (s : State) : State :=
  { s with win := { s.win with ops := s.win.ops.put k w } }

/-- A window operation that names no slot after a soft restart (R174). -/
def WindowOp.orphaned : WindowOp → WindowOp
  | .slot _ => .orphan
  | w => w

/-- The result of a window operation goes to the slot its record still names, if any (R169). -/
def deliverWindow (k : Operation) (result : Result) (detail : Byte) (s : State) : State :=
  match s.win.ops.get k with
  | .slot n => setWindowOp k .idle (finishSlot n result detail s)
  | _ => setWindowOp k .idle s

/-- The result of a workshop operation goes to the reply buffer, if it is still WAITING for it (R155). -/
def deliverLink (k : Operation) (result : Result) (data : List Byte) (s : State) : State :=
  match s.link.reply with
  | .waiting tag (some k') =>
    if k' = k then setReply (.ready tag ([k.serviceCode, result.code] ++ data)) s else s
  | _ => s

/-- The result of an operation goes to the side that asked for it. -/
def deliver (k : Operation) (side : Side) (result : Result) (detail : Byte) (data : List Byte)
    (s : State) : State :=
  match side with
  | .window => deliverWindow k result detail s
  | .workshop => deliverLink k result data s

/-! ## Port faults (R166) -/

/-- A refused write at an address. -/
def portFault (a : Nat) (s : State) : State :=
  setNotice .portFault
    { s with win := { s.win with
        capture := match s.win.capture with
          | none => some (BitVec.ofNat 13 a)
          | some c => some c
        faultCount := min (s.win.faultCount + 1) 255 } }

end Sys2Proof.Machine
end

