-- ==== Sys2Proof/Machine/Operands.lean ====
section
/-! DEFINITION. Operand forms: roles to lines, number formats, codes of the layouts, and the
parameters of requests and services (R14, R15, R162, R176 to R178). -/

namespace Sys2Proof.Machine

/-! ## Roles (R14, R15) -/

/-- A line's debounced state. -/
def lineState (s : State) (n : Fin 32) : LineState := s.sense.lines[n].debounced

/-- The line that carries a single-use role, if the role is assigned. -/
def lineOfRole (img : Mem) (r : Role) : Option (Fin 32) :=
  (List.finRange 32).find? (fun n => decide ((lineEntry img n).role = r))

/-- The debounced state of the line that carries a role; none where the role is unassigned (R15). -/
def roleState (s : State) (r : Role) : Option LineState := (lineOfRole s.image r).map (lineState s)

/-- The role's line is ACTIVE. -/
def roleActive (s : State) (r : Role) : Bool := decide (roleState s r = some .active)

/-! ## Number formats -/

/-- Four little-endian bytes. -/
def le32 (n : Nat) : List Byte :=
  [BitVec.ofNat 8 n, BitVec.ofNat 8 (n / 256), BitVec.ofNat 8 (n / 65536), BitVec.ofNat 8 (n / 16777216)]

/-- Two big-endian bytes (R162). -/
def be16 (n : Nat) : List Byte := (le16 n).reverse

/-- Four big-endian bytes (R162). -/
def be32 (n : Nat) : List Byte := (le32 n).reverse

/-- A signed 16-bit number, big-endian (R162). -/
def beInt16 (v : Int) : List Byte := (leInt16 v).reverse

/-- The `k` lowest decimal digits of a number, highest first. -/
def digits (k n : Nat) : List Nat := (List.range k).map (fun i => n / 10 ^ (k - 1 - i) % 10)

/-- BCD bytes in reading order: two digits a byte, the higher digit in the high nibble. -/
def packBcd : List Nat → List Byte
  | h :: l :: rest => BitVec.ofNat 8 (16 * h + l) :: packBcd rest
  | [h] => [BitVec.ofNat 8 (16 * h)]
  | [] => []

/-- The odometer's five BCD bytes: a zero nibble, then nine digits. -/
def bcdOdometer (n : Nat) : List Byte := packBcd (0 :: digits 9 n)

/-- A trip meter's three BCD bytes. -/
def bcdTrip (n : Nat) : List Byte := packBcd (digits 6 n)

/-- Bytes in reading order as one word of five bytes. -/
def word40 (bytes : List Byte) : BitVec 40 :=
  BitVec.ofNat 40 (bytes.foldl (fun acc b => acc * 256 + b.toNat) 0)

/-- The ten nibbles of a five-byte word, highest first. -/
def nibbles (w : BitVec 40) : List Nat := (List.range 10).map (fun i => w.toNat / 16 ^ (9 - i) % 16)

/-- The number that five BCD bytes hold, where every nibble is a digit and the leading one is 0
(R48, R51). -/
def bcdValue (w : BitVec 40) : Option Nat :=
  let ns := nibbles w
  if ns.all (fun d => decide (d ≤ 9)) ∧ ns.headD 0 = 0 then some (ns.foldl (fun acc d => acc * 10 + d) 0)
  else none

/-- A quotient rounded to the nearest integer, halves away from zero; the divisor is positive (R57,
R68). -/
def roundAway (num : Int) (den : Nat) : Int :=
  if 0 ≤ num then (2 * num + den) / (2 * den) else -((2 * (-num) + den) / (2 * den))

/-- The filter step of R26 and R64: the difference divided by 2^s, truncated towards zero, but never
0 while the difference is not. -/
def filterStep (d : Int) (shift : Nat) : Int :=
  let q := d.tdiv (2 ^ shift)
  if q = 0 ∧ d ≠ 0 then d.sign else q

/-- Reverses the binary fields of a run of bytes: the widths of the fields in order (R162). -/
def reverseFields : List Nat → List Byte → List Byte
  | [], bytes => bytes
  | w :: ws, bytes => (bytes.take w).reverse ++ reverseFields ws (bytes.drop w)

/-! ## Codes of the layouts (R176) -/

/-- Debounced state codes. -/
def LineState.code : LineState → Nat
  | .unknown => 0
  | .active => 1
  | .inactive => 2
  | .short => 3
  | .broken => 4

/-- Raw class codes, 0 for none. -/
def classCode : Option RawClass → Nat
  | none => 0
  | some .short => 1
  | some .closed => 2
  | some .opened => 3
  | some .broken => 4

/-- Speed status codes. -/
def SpeedStatus.code : SpeedStatus → Nat
  | .valid => 0
  | .over => 1
  | .invalid => 2

/-- Motion state codes. -/
def Motion.code : Motion → Nat
  | .unknown => 0
  | .standstill => 1
  | .moving => 2

/-- Channel status codes. -/
def ChannelStatus.code : ChannelStatus → Nat
  | .valid => 0
  | .held => 1
  | .invalid => 2

/-- Doorway state codes. -/
def DoorState.code : DoorState → Nat
  | .unknown => 0
  | .closed => 1
  | .moving => 2
  | .opened => 3
  | .stalled => 4
  | .conflict => 5

/-- Stop cycle codes. -/
def Cycle.code : Cycle → Nat
  | .outOfService => 0
  | .driving => 1
  | .arrived => 2
  | .atStop => 3
  | .departing => 4

/-- Appearance codes. -/
def Appearance.code : Appearance → Nat
  | .off => 0
  | .on => 1
  | .slow => 2
  | .fast => 3

/-- Owner codes. -/
def Owner.code : Owner → Nat
  | .normal => 0
  | .fallback => 1
  | .test => 2

/-- Burst codes, 0 for none. -/
def burstCode : Option BurstClass → Nat
  | none => 0
  | some .info => 1
  | some .caution => 2

/-- Pattern codes (R177). -/
def Pattern.code : Pattern → Nat
  | .lampWalk => 0
  | .allLamps => 1
  | .buzzer => 2
  | .gaugeSweep => 3

/-- Patterns by code (R177). -/
def patternOfCode (c : Byte) : Option Pattern :=
  if c = 0 then some .lampWalk else if c = 1 then some .allLamps
  else if c = 2 then some .buzzer else if c = 3 then some .gaugeSweep else none

/-- Abort reason codes (R119). -/
def AbortReason.code : AbortReason → Byte
  | .stopped => 1
  | .ignitionOff => 2
  | .motion => 3
  | .parkingBrake => 4
  | .stopWarning => 5
  | .claimReleased => 6
  | .sideGone => 7

/-- Class codes. -/
def WarnClass.code : WarnClass → Nat
  | .stop => 0
  | .caution => 1
  | .info => 2

/-- Warning state codes of the list image. -/
def WarnState.code : WarnState → Nat
  | .inactive => 0
  | .pending => 1
  | .activeUnack => 2
  | .activeAck => 3
  | .latched => 4

/-- Stage codes. -/
def Stage.code : Stage → Nat
  | .off => 0
  | .watching => 1
  | .warned => 2
  | .fallback => 3

/-- Holder codes (R167). -/
def Holder.code : Holder → Byte
  | .free => 0
  | .window => 1
  | .workshop => 2

/-- Slot state codes (R177). -/
def SlotState.code : SlotState → Byte
  | .free => 0
  | .posted => 1
  | .taken => 2
  | .done => 3

/-- Configuration source codes (R176). -/
def ConfigSource.code : ConfigSource → Nat
  | .stored => 0
  | .adopted => 1
  | .defaults => 2

/-- Claims by number (R158). -/
def claimOfNumber (n : Nat) : Option Claim :=
  if n = 0 then some .faults else if n = 1 then some .odometer
  else if n = 2 then some .config else if n = 3 then some .outputs else none

/-- The number of a claim (R158). -/
def claimNumber : Claim → Nat
  | .faults => 0
  | .odometer => 1
  | .config => 2
  | .outputs => 3

/-- A bit as a number. -/
def bit (b : Bool) (i : Nat) : Nat := if b then 2 ^ i else 0

/-! ## Parameters -/

/-- Trip actions (R42, R177). -/
inductive TripAction where
  | none
  | run
  | stop
  | reset
  | resetAndRun
  deriving DecidableEq, Repr

/-- Trip actions by code (R177). -/
def tripActionOfCode (c : Byte) : Option TripAction :=
  if c = 0 then some .none else if c = 1 then some .run else if c = 2 then some .stop
  else if c = 3 then some .reset else if c = 4 then some .resetAndRun else none

/-- The scope of a clear by selector and code: some none is ALL, some (some c) is CODE (R133, R177). -/
def clearScope (selector code : Byte) : Option (Option (Fin 48)) :=
  if selector = 0 then some none
  else if selector = 1 then
    (if h : code.toNat < 48 then some (some ⟨code.toNat, h⟩) else none)
  else none

/-- The parameter bytes of a request: `n` bytes from +6 of a slot (R177). -/
def slotParams (s : State) (n : Fin 8) (k : Nat) : List Byte :=
  (List.range k).map (fun i => slotByte s n (6 + i))

/-- A byte of a parameter list, 0 past its end. -/
def param (ps : List Byte) (i : Nat) : Byte := ps.getD i 0

end Sys2Proof.Machine
end

