-- ==== Sys2Proof/Machine/Flags.lean ====
section
/-! DEFINITION. Every flag and condition that is judged from other state: the ignition, the speed
source, the shown channel values, the door conditions, the permit, the warning sources and
qualifiers, the pins and RUN_STATE. -/

namespace Sys2Proof.Machine

/-! ## Ignition and wire faults -/

/-- The ignition is ON while SENSE0 is ACTIVE (R13). -/
def ignitionOn (s : State) : Bool := decide (lineState s 0 = .active)

/-- The two wire-fault states (R7, R12). -/
def LineState.isFault : LineState → Bool
  | .short => true
  | .broken => true
  | _ => false

/-- WIRE_FAULT(line) (R12). -/
def wireFault (s : State) (n : Fin 32) : Bool := (lineState s n).isFault

/-! ## Speed source -/

/-- The speed source is VALID while neither cause is set (R30). -/
def sourceValid (p : PulseUnit) : Bool := !p.wireBroken && p.calValid

/-- The parking-brake proxy value (R31). -/
def proxyMotion (s : State) : Motion :=
  match roleState s .parkingBrake with
  | some .active => .standstill
  | some .inactive => .moving
  | _ => .unknown

/-! ## Analog channels -/

/-- The status that a channel shows (R61): crank hold acts on the sender channels only. -/
def shownStatus (s : State) (c : Fin 6) : ChannelStatus :=
  let ch := s.analog.channels[c]
  if s.analog.crankHold ∧ c.val < 5 then
    match ch.status with
    | .invalid => .invalid
    | _ => .held
  else ch.status

/-- "No value" (00_scope.md, Units). -/
def noValue : Int := -32768

/-- The value that a channel shows (R62). -/
def shownValue (s : State) (c : Fin 6) : Int :=
  let ch := s.analog.channels[c]
  match ch.status with
  | .invalid => noValue
  | _ => ch.y.getD noValue

/-- SENDER_FAULT(channel) (R63). -/
def senderFault (s : State) (c : Fin 5) : Bool := s.analog.channels[c.castSucc].fault

/-! ## Doorways -/

/-- Not closed: MOVING, OPEN or STALLED (R72). -/
def DoorState.notClosed : DoorState → Bool
  | .moving => true
  | .opened => true
  | .stalled => true
  | _ => false

/-- A present doorway that is not closed. -/
def doorwayOpen (s : State) (n : Fin 4) : Bool :=
  doorwayPresent s.image n && s.door.doorways[n].state.notClosed

/-- Any present doorway is not closed. -/
def anyOpen (s : State) : Bool := (List.finRange 4).any (doorwayOpen s)

/-- Every present doorway is CLOSED. -/
def allClosed (s : State) : Bool :=
  (List.finRange 4).all (fun n =>
    !doorwayPresent s.image n || decide (s.door.doorways[n].state = .closed))

/-- DOOR_OPEN_MOVING (R83). -/
def doorOpenMoving (s : State) : Bool := anyOpen s && decide (s.pulse.motion = .moving)

/-- A present doorway is in a state (R83). -/
def doorwayIn (s : State) (n : Fin 4) (d : DoorState) : Bool :=
  doorwayPresent s.image n && decide (s.door.doorways[n].state = d)

/-- DOOR_EMERGENCY(n) (R83). -/
def doorEmergency (s : State) (n : Fin 4) : Bool :=
  doorwayPresent s.image n && s.door.doorways[n].emergency

/-! ## Door-release permit -/

/-- The permit delay in timer steps (R84). -/
def permitSteps (s : State) : Nat := stepsOf (pulseParams s.image).permitDelay

/-- The standstill is mature (R84). -/
def mature (s : State) : Bool :=
  match s.door.age with
  | none => false
  | some a => decide (permitSteps s ≤ a)

/-- What DPERMIT is judged to be (R85). -/
def permitJudged (s : State) : Bool :=
  ignitionOn s && (mature s || (!sourceValid s.pulse && roleActive s .parkingBrake))

/-! ## Warnings -/

/-- STORE_FAULT (R144). -/
def storeFault (s : State) : Bool := !s.store.notRetained.isEmpty

/-- CONFIG_DEFAULTS (R93). -/
def configDefaults (s : State) : Bool := decide (s.win.source = .defaults)

/-- SUPERVISION_FALLBACK (R124). -/
def supervisionFallback (s : State) : Bool := decide (s.out.supervision.stage = .fallback)

/-- The source truth (R90 to R93): that of a gauge source is kept between hand-overs. -/
def sourceTruth (s : State) (source : Option Source) (kept : Bool) : Bool :=
  match source with
  | none => false
  | some (.senseActive l) => decide (lineState s l = .active)
  | some (.senseInactive l) => decide (lineState s l = .inactive)
  | some (.gaugeAbove _) => kept
  | some (.gaugeBelow _) => kept
  | some .doorOpenMoving => doorOpenMoving s
  | some .rampMoving => s.door.ramp && decide (s.pulse.motion = .moving)
  | some .kneelMoving => s.door.kneel && decide (s.pulse.motion = .moving)
  | some (.doorStalled n) => doorwayIn s n .stalled
  | some (.doorConflict n) => doorwayIn s n .conflict
  | some (.doorEmergency n) => doorEmergency s n
  | some (.senderFault c) => senderFault s c
  | some (.wireFault l) => wireFault s l
  | some .speedSourceFault => !sourceValid s.pulse
  | some .supplyLow => s.analog.supplyLow
  | some .storeFault => storeFault s
  | some .configDefaults => configDefaults s
  | some .supervisionFallback => supervisionFallback s

/-- A gauge truth judged against a value (R91). -/
def judgeAbove (threshold : Int) (hysteresis : Nat) (v : Int) (kept : Bool) : Bool :=
  if threshold < v then true else if v ≤ threshold - hysteresis then false else kept

/-- A GAUGE_BELOW truth judged against a value (R91). -/
def judgeBelow (threshold : Int) (hysteresis : Nat) (v : Int) (kept : Bool) : Bool :=
  if v < threshold then true else if threshold + hysteresis ≤ v then false else kept

/-- The effect of what was handed over on a gauge source's truth, by its status (R92): `judge` is R91's judgement of a
value. An INVALID speed is judged as the value 0 (R37). -/
def Handed.truth (h : Handed) (kept : Bool) (judge : Int → Bool) : Bool :=
  match h.status with
  | .channel .valid => judge h.value
  | .channel .held => kept
  | .channel .invalid => false
  | .speed .valid => judge h.value
  | .speed .over => judge h.value
  | .speed .invalid => judge 0
  | .none => judge h.value

/-- A gauge source's truth after a hand-over (R92): false where its channel has had none. -/
def gaugeTruth (d : WarningDef) (handed : Vector (Option Handed) 8) (kept : Bool) : Bool :=
  let judge (h : Option Handed) (j : Int → Nat → Int → Bool → Bool) : Bool :=
    match h with
    | none => false
    | some x => x.truth kept (fun v => j d.threshold d.hysteresis v kept)
  match d.source with
  | some (.gaugeAbove c) => judge handed[c] judgeAbove
  | some (.gaugeBelow c) => judge handed[c] judgeBelow
  | _ => kept

/-- The qualifier holds (R94). -/
def qualifierHolds (s : State) : Qualifier → Bool
  | .always => true
  | .ignitionOn => ignitionOn s
  | .engineRunning => s.pulse.running
  | .moving => decide (s.pulse.motion = .moving)

/-- A warning is in the list's states (R99). -/
def WarnState.listed : WarnState → Bool
  | .activeUnack => true
  | .activeAck => true
  | .latched => true
  | _ => false

/-- Some STOP-class warning is ACTIVE_UNACK (R117). -/
def stopUnack (s : State) : Bool :=
  (List.finRange 48).any (fun w =>
    decide (s.warn.warnings[w].state = .activeUnack) && decide ((warningDef s.image w).cls = .stop))

/-- The STOP repeating flag (R105). -/
def stopDemand (s : State) : Bool :=
  (List.finRange 48).any (fun w =>
    decide (s.warn.warnings[w].state = .activeUnack) && decide ((warningDef s.image w).cls = .stop) &&
      (warningDef s.image w).chime)

/-! ## Phases, pins and RUN_STATE -/

/-- The SLOW phase's level (R4). -/
def slowOn (t : Nat) : Bool := decide (t % 1000000 < 500000)

/-- The FAST phase's level (R4). -/
def fastOn (t : Nat) : Bool := decide (t % 250000 < 125000)

/-- The level of a lamp pin for an appearance at an instant (R114). -/
def pinLevel (t : Nat) : Appearance → Bool
  | .off => false
  | .on => true
  | .slow => slowOn t
  | .fast => fastOn t

/-- The BUZZ pin (R115). -/
def buzzPin (s : State) : Bool :=
  s.out.arbiter.level ||
    (match s.out.test with
     | some t => decide (t.pattern = .buzzer) && t.buzzOn
     | none => false)

/-- NOTEn is driven low (R173). -/
def noteLow (s : State) : Bool := decide (s.win.notice &&& s.win.enable ≠ 0)

/-- HRSTn is driven low (R124). -/
def hrstLow (s : State) : Bool := s.out.supervision.hrst.isSome

/-- The RUN_STATE port word (R165, R176). -/
def runState (s : State) : Byte :=
  BitVec.ofNat 8 (bit s.win.softCause 0 + 2 * s.win.source.code + bit (ignitionOn s) 3 +
    16 * s.out.supervision.stage.code + bit s.out.supervision.occurred 6 + bit (storeFault s) 7)

/-- The record count: the number of STORED places (R126). -/
def Place.isStored : Place → Bool
  | .stored _ => true
  | _ => false

/-- The record count (R126). -/
def recordCount (s : State) : Nat := (s.faults.places.toList.filter Place.isStored).length

end Sys2Proof.Machine
end

