-- ==== Sys2Proof/Machine/Images.lean ====
section
/-! DEFINITION. The images (R16, R67, R86, R87, R101, R116, R137, R176): the content each shows, and
when each is rewritten. A content is the bytes from +1 on; what follows it is 0. -/

namespace Sys2Proof.Machine

/-- A byte of a number. -/
def byte (n : Nat) : Byte := BitVec.ofNat 8 n

/-! ## Sense image (R16) -/

/-- The content of the sense image. -/
def senseContent (s : State) : List Byte :=
  [byte (bit (ignitionOn s) 0)] ++
  (List.finRange 32).map (fun n =>
    byte ((lineEntry s.image n).role.code + 32 * (lineState s n).code)) ++
  (List.finRange 16).map (fun k =>
    byte (classCode (s.sense.lines[2 * k.val]).lastClass +
      16 * classCode (s.sense.lines[2 * k.val + 1]).lastClass))

/-- Rewritten at an event that changed a role, a debounced state or a last raw class. -/
def publishSense (before after : State) : State :=
  if senseContent before = senseContent after then after
  else rewriteImage 0x1040 64 (senseContent after) after

/-! ## Door image (R86) -/

/-- The running dwell (R80). -/
def runningDwell (d : DoorMonitor) : Nat :=
  match d.stop with
  | none => 0
  | some o =>
    match d.cycle with
    | .atStop => o.record.dwell
    | .departing => o.lastClose
    | _ => 0

/-- The sequence of the open record, or 0. -/
def openSequence (d : DoorMonitor) : Nat :=
  match d.stop with
  | none => 0
  | some o => o.record.sequence

/-- The door image's content but the running dwell. -/
def doorFields (s : State) : List Byte :=
  (List.finRange 4).map (fun n =>
    let d := s.door.doorways[n]
    byte (d.state.code + bit d.obstructed 3 + bit d.emergency 4 + bit (doorwayPresent s.image n) 7)) ++
  [byte (bit s.door.kneel 0 + bit s.door.ramp 1 + bit s.door.latch 2 + bit s.door.dpermit 3),
   byte s.door.cycle.code] ++
  le32 (openSequence s.door)

/-- The content of the door image. -/
def doorContent (s : State) : List Byte := doorFields s ++ le16 (runningDwell s.door)

/-- Rewritten at an event that changed a field, or when `force`d by the first gauge cycle; the notice
is set unless the running dwell alone changed. -/
def publishDoor (force : Bool) (before after : State) : State :=
  if force || decide (doorFields before ≠ doorFields after) then
    setNotice .doorsChanged (rewriteImage 0x1080 64 (doorContent after) after)
  else if doorContent before ≠ doorContent after then
    rewriteImage 0x1080 64 (doorContent after) after
  else after

/-! ## Output image (R116) -/

/-- Remaining time in whole seconds, rounded up. -/
def remainingSeconds (t : Timer) : Nat := (t.left + 99) / 100

/-- The content of the output image. -/
def outputContent (s : State) : List Byte :=
  s.out.lamps.toList.map (fun l => byte (l.appearance.code + 4 * l.owner.code)) ++
  [byte (bit (buzzPin s) 0 + bit s.out.arbiter.repeatTimer.isSome 1 +
     4 * burstCode (s.out.arbiter.current.map (·.cls)) + 16 * burstCode s.out.arbiter.pending)] ++
  (match s.out.test with
   | some t => [byte (1 + bit (decide (t.side = .workshop)) 1 + 4 * t.pattern.code),
       byte (remainingSeconds t.duration)]
   | none => [0, 0]) ++
  (match s.out.lastResult with
   | .none => [0, 0]
   | .ok => [1, 0]
   | .aborted r => [2, r.code])

/-- Rewritten at an event that changed a field. -/
def publishOutput (before after : State) : State :=
  if outputContent before = outputContent after then after
  else rewriteImage 0x10C0 64 (outputContent after) after

/-! ## Warning list image (R101) -/

/-- The seconds since onset (R100). -/
def onsetSeconds (w : Warning) : Nat := min (w.age / 100) 65535

/-- The list's entries but their seconds. -/
def listFields (s : State) : List (List Byte) :=
  s.warn.list.map (fun i =>
    let w := s.warn.warnings[i]
    [byte i.val, byte ((warningDef s.image i).cls.code + 4 * w.state.code), byte (w.number.getD 0)])

/-- The seconds of the list's entries. -/
def listSeconds (s : State) : List Nat := s.warn.list.map (fun i => onsetSeconds s.warn.warnings[i])

/-- The content of the warning list image. -/
def listContent (s : State) : List Byte :=
  byte s.warn.list.length ::
    ((listFields s).zipWith (fun f t => f ++ le16 t) (listSeconds s)).flatten

/-- Rewritten at an event that changed the list or the seconds of an entry, or when `force`d by an
adoption; the notice is set unless the seconds alone changed. -/
def publishWarnings (force : Bool) (before after : State) : State :=
  if force || decide (listFields before ≠ listFields after) then
    setNotice .warningsChanged (rewriteImage 0x1100 256 (listContent after) after)
  else if listSeconds before ≠ listSeconds after then
    rewriteImage 0x1100 256 (listContent after) after
  else after

/-! ## Stop journal image (R87) -/

/-- The 22 bytes of a stop record. -/
def recordBytes (r : StopRecord) : List Byte :=
  le32 r.sequence ++ le32 r.openStamp.toNat ++ le32 r.closeStamp.toNat ++ bcdOdometer r.odometer ++
  le16 r.dwell ++ [byte r.mask.toNat, byte r.obstructions, r.flags]

/-- The content of the stop journal image. -/
def journalContent (s : State) : List Byte :=
  byte s.door.journal.length :: (s.door.journal.map recordBytes).flatten

/-- Rewritten at an append and at the emptying of the journal. -/
def publishJournal (before after : State) : State :=
  if before.door.journal = after.door.journal then after
  else rewriteImage 0x1200 256 (journalContent after) after

/-! ## Fault memory view (R137) -/

/-- The six bits of a doorway in the doorway summary (R176). -/
def DoorSummary.code (d : DoorSummary) : Nat :=
  bit d.present 0 + 2 * d.state.code + bit d.obstructed 4 + bit d.emergency 5

/-- The doorway summary's 24 bits. -/
def summaryCode (v : Vector DoorSummary 4) : Nat :=
  v[0].code + 64 * v[1].code + 4096 * v[2].code + 262144 * v[3].code

/-- The 25 bytes of a place that holds a STORED record. -/
def storedBytes (r : FaultRecord) : List Byte :=
  [byte (1 + bit r.active 2 + 8 * r.frame.speedStatus.code + 32 * r.frame.coolantStatus.code),
   byte r.code.val, r.source, byte r.count, byte r.aging] ++
  packBcd (digits 9 r.firstOdometer ++ digits 9 r.lastOdometer) ++
  le16 r.frame.speed ++ le16 r.frame.rpm ++ leInt16 r.frame.supply ++ leInt16 r.frame.coolant ++
  (le32 (summaryCode r.frame.doorways)).take 3

/-- The 25 bytes of a place. -/
def placeBytes : Place → List Byte
  | .free => [0, 0xFF] ++ List.replicate 23 0
  | .stored r => storedBytes r
  | .erasing _ => [2, 0xFF] ++ List.replicate 23 0

/-- The 32 bytes of the page of a fault record object (R176): the 25 bytes of its place, then 7 bytes of 0. A
FREE marker is a page whose place state is FREE. -/
def recordPage : Option FaultRecord → List Byte
  | none => placeBytes .free ++ List.replicate 7 0
  | some r => placeBytes (.stored r) ++ List.replicate 7 0

/-- The content of the fault memory view. -/
def faultContent (s : State) : List Byte :=
  [byte (recordCount s), byte s.faults.overflow, byte (bit s.faults.clear.isSome 0)] ++
    (s.faults.places.toList.map placeBytes).flatten

/-- Rewritten, with the notice set, where one of the events that R137 lists was taken, also where it changed
no field: an occurrence on a record that it leaves as it is, one dropped with the overflow count at 255, a clear
that chooses no place. DESIGN CHOICE, log entry 42: R137's list names them, its first sentence names changes. -/
def publishFaults (force : Bool) (before after : State) : State :=
  if force || decide (before.faults.viewEvents ≠ after.faults.viewEvents) then
    setNotice .faultMemoryChanged (rewriteImage 0x1400 1024 (faultContent after) after)
  else after

/-! ## Gauge image (R67, R68) -/

/-- The values a sender's table begins and ends with. -/
def tableEnds (e : SenderEntry) : Int × Int :=
  (((e.table.head?).map (·.2)).getD 0, ((e.table.getLast?).map (·.2)).getD 0)

/-- A swept value at gauge cycle `k` of the test, between two ends (R68). -/
def sweptValue (k : Nat) (low high : Int) : Int :=
  let m := k % 30
  let p := if m ≤ 15 then m else 30 - m
  low + roundAway ((high - low) * p) 15

/-- The test's gauge cycle count while GAUGE_SWEEP runs (R68). -/
def sweeping (s : State) : Option Nat :=
  match s.out.test with
  | some t => if t.pattern = .gaugeSweep then some t.cycles else none
  | none => none

/-- The value and status code of a channel in the gauge image. -/
def gaugeChannel (s : State) (c : Fin 6) : List Byte :=
  match sweeping s with
  | some k =>
    if h : c.val < 5 then
      let ends := tableEnds (senderEntry s.image ⟨c.val, h⟩)
      leInt16 (sweptValue k ends.1 ends.2) ++ [3]
    else leInt16 (shownValue s c) ++ [byte (shownStatus s c).code]
  | none => leInt16 (shownValue s c) ++ [byte (shownStatus s c).code]

/-- The displayed speed and the engine speed of the gauge image. -/
def gaugeSpeeds (s : State) : Nat × Nat :=
  match sweeping s with
  | some k => ((sweptValue k 0 25000).toNat, (sweptValue k 0 5000).toNat)
  | none => (s.pulse.displayed, s.pulse.rpm)

/-- The content of the gauge image. -/
def gaugeContent (s : State) : List Byte :=
  le16 s.pulse.raw ++ le16 (gaugeSpeeds s).1 ++
  [byte s.pulse.status.code, byte (bit s.pulse.wireBroken 0 + bit (!s.pulse.calValid) 1),
   byte s.pulse.motion.code] ++
  le16 (gaugeSpeeds s).2 ++
  [byte (bit s.pulse.running 0),
   byte (bit s.analog.crankHold 0 + bit (ignitionOn s) 1 + bit (sweeping s).isSome 2)] ++
  ((List.finRange 6).map (gaugeChannel s)).flatten ++
  bcdOdometer s.dist.live ++ [byte (bit s.dist.lost 0)] ++
  bcdTrip s.dist.tripA.value ++ [byte (bit s.dist.tripA.running 0)] ++
  bcdTrip s.dist.tripB.value ++ [byte (bit s.dist.tripB.running 0)]

/-- Written at every gauge cycle; GAUGE_CYCLE is set. -/
def publishGauge (s : State) : State :=
  setNotice .gaugeCycle (rewriteImage 0x1000 64 (gaugeContent s) s)

/-! ## One event -/

/-- The images that an event from `before` to `after` rewrites, but the gauge image: one rewrite each.
The warning list and the door image are also rewritten where they are `force`d. -/
def publishAll (forceWarnings forceDoor : Bool) (before after : State) : State :=
  publishOutput before (publishFaults false before (publishJournal before
    (publishWarnings forceWarnings before (publishDoor forceDoor before (publishSense before after)))))

/-- The images that an ordinary event rewrites. -/
def publish (before after : State) : State := publishAll false false before after

end Sys2Proof.Machine
end

