-- ==== Sys2Proof/Machine/Outputs.lean ====
section
/-! DEFINITION. The Output Unit: lamps (R111 to R114), the buzzer arbiter (R105 to R108), the output
test (R117 to R121) and host supervision (R122 to R125), and their commands' shared parts. -/

namespace Sys2Proof.Machine

/-! ## Lamps -/

/-- The rank of an appearance: FAST above SLOW above ON above OFF (R112). -/
def Appearance.rank : Appearance → Nat
  | .off => 0
  | .on => 1
  | .slow => 2
  | .fast => 3

/-- The higher of two appearances. -/
def Appearance.sup (a b : Appearance) : Appearance := if a.rank < b.rank then b else a

/-- The appearance a warning gives its lamp (R113). -/
def warningAppearance (cls : WarnClass) : WarnState → Appearance
  | .activeUnack => (match cls with | .stop => .fast | .caution => .slow | .info => .slow)
  | .activeAck => .on
  | .latched => .slow
  | .inactive => .off
  | .pending => .off

/-- The appearance of a lamp of source WARNINGS (R113). -/
def warningsAppearance (s : State) (m : Fin 16) : Appearance :=
  (List.finRange 48).foldl (fun a w =>
    let d := warningDef s.image w
    if d.enabled ∧ d.lamp = some m then a.sup (warningAppearance d.cls s.warn.warnings[w].state) else a) .off

/-- The appearance a source gives (R112). -/
def sourceAppearance (s : State) (m : Fin 16) : LampSource → Appearance
  | .none => .off
  | .hostRequest => appearanceOfCode (ramRead s (0x0300 + m.val)).toNat
  | .warnings => warningsAppearance s m
  | .senseMirror l a => if lineState s l = .active then a else .off
  | .doorway n =>
    if doorwayOpen s n then (if doorOpenMoving s then .fast else .on) else .off
  | .doorwayAny => if doorOpenMoving s then .fast else if anyOpen s then .on else .off
  | .stopRequest => if s.door.latch then .on else .off
  | .permit => if s.door.dpermit then .on else .off

/-- What a running test gives a lamp it includes (R118). -/
def testAppearance (t : OutputTest) (m : Fin 16) : Option Appearance :=
  match t.pattern with
  | .lampWalk => some (if t.step = m then .fast else .off)
  | .allLamps => some .on
  | .buzzer => none
  | .gaugeSweep => none

/-- A lamp's owner and appearance (R114). -/
def lampComputed (s : State) (m : Fin 16) : Appearance × Owner :=
  match s.out.test.bind (fun t => testAppearance t m) with
  | some a => (a, .test)
  | none =>
    if s.out.supervision.stage = .fallback ∧ lampNormal s.image m = .hostRequest then
      (sourceAppearance s m (lampFallback s.image m), .fallback)
    else (sourceAppearance s m (lampNormal s.image m), .normal)

/-- The owners and appearances of all lamps computed, and the pins driven from them (R114). -/
def computeLamps (s : State) : State :=
  { s with out := { s.out with lamps := Vector.ofFn fun m =>
      let c := lampComputed s m
      { appearance := c.1, owner := c.2, pin := pinLevel s.time.now c.1 } } }

/-- A lamp after an edge of a phase: a lamp flashing at it takes the phase's level (R4). -/
def Lamp.atEdge (t : Nat) (phase : Phase) (l : Lamp) : Lamp :=
  match phase, l.appearance with
  | .slow, .slow => { l with pin := slowOn t }
  | .fast, .fast => { l with pin := fastOn t }
  | _, _ => l

/-- A phase edge switches the lamps flashing at it. -/
def edgeLamps (phase : Phase) (s : State) : State :=
  { s with out := { s.out with lamps := Vector.ofFn fun m => s.out.lamps[m].atEdge s.time.now phase } }

/-! ## Buzzer arbiter -/

/-- Replaces the arbiter. -/
def setArbiter (a : Arbiter) (s : State) : State := { s with out := { s.out with arbiter := a } }

/-- A burst starts with BUZZ on (R107). -/
def Arbiter.start (a : Arbiter) (now : Nat) (c : BurstClass) : Arbiter :=
  { a with level := true, current := some { cls := c, position := 0, timer := newTimer now 200 } }

/-- No burst and no repeat sound: BUZZ is off, and a pending burst starts (R106, R107). -/
def Arbiter.resume (a : Arbiter) (now : Nat) : Arbiter :=
  let quiet := { a with level := false, repeatTimer := none, current := none, pending := none }
  match a.pending with
  | some c => quiet.start now c
  | none => quiet

/-- The rank of a burst (R105). -/
def BurstClass.rank : BurstClass → Nat
  | .info => 0
  | .caution => 1

/-- The arbiter takes a burst request (R107). -/
def Arbiter.request (a : Arbiter) (now : Nat) (c : BurstClass) : Arbiter :=
  if a.repeatTimer.isNone ∧ a.current.isNone then a.start now c
  else
    match a.pending with
    | none => { a with pending := some c }
    | some p => if p.rank < c.rank then { a with pending := some c } else a

/-- A burst request at this event. -/
def requestBurst (c : BurstClass) (s : State) : State :=
  setArbiter (s.out.arbiter.request s.time.now c) s

/-- The arbiter follows the STOP repeating flag (R106). -/
def Arbiter.follow (a : Arbiter) (now : Nat) (demand : Bool) : Arbiter :=
  if demand then
    (if a.repeatTimer.isSome then a
     else { a with level := true, repeatTimer := some (newTimer now 500), current := none })
  else (if a.repeatTimer.isSome then a.resume now else a)

/-- The arbiter follows the flag as it now stands. -/
def syncRepeat (s : State) : State :=
  setArbiter (s.out.arbiter.follow s.time.now (stopDemand s)) s

/-- The intervals of a burst, on and off (R105). -/
def BurstClass.intervals : BurstClass → Nat
  | .info => 2
  | .caution => 6

/-- The end of a half of the repeat (R106). -/
def Arbiter.repeatHalf (a : Arbiter) (now : Nat) : Arbiter :=
  if expired a.repeatTimer then { a with level := !a.level, repeatTimer := some (newTimer now 500) } else a

/-- The end of an interval of the current burst (R107). -/
def Arbiter.interval (a : Arbiter) (now : Nat) : Arbiter :=
  match a.current with
  | none => a
  | some b =>
    if b.timer.left = 0 then
      if b.cls.intervals ≤ b.position + 1 then a.resume now
      else { a with
        level := decide ((b.position + 1) % 2 = 0)
        current := some { b with position := b.position + 1, timer := newTimer now 200 } }
    else a

/-! ## Output test -/

/-- Replaces the running test. -/
def setTest (t : Option OutputTest) (s : State) : State := { s with out := { s.out with test := t } }

/-- A test starts (R118). -/
def startTest (side : Side) (p : Pattern) (seconds : Nat) (s : State) : State :=
  setNotice .outputTest (computeLamps (setTest (some
    { side := side, pattern := p, duration := newTimer s.time.now (1000 * seconds)
      startedAt := s.time.now, cycles := 0, step := 0
      half := match p with
        | .lampWalk => some (newTimer s.time.now 500)
        | .buzzer => some (newTimer s.time.now 500)
        | .allLamps => none
        | .gaugeSweep => none
      buzzOn := true }) s))

/-- What a test that ends records (R120): none is the expiry of its duration. -/
def endResult : Option AbortReason → TestResult
  | none => .ok
  | some r => .aborted r

/-- A running test ends (R120). -/
def endTest (reason : Option AbortReason) (s : State) : State :=
  match s.out.test with
  | none => s
  | some t =>
    let s1 := setNotice .outputTest (computeLamps
      { s with out := { s.out with test := none, lastResult := endResult reason } })
    match reason with
    | none => deliver .test t.side .ok 0 [] s1
    | some r => deliver .test t.side .aborted r.code [r.code] s1

/-- A running test is aborted (R119). -/
def abortTest (r : AbortReason) (s : State) : State := endTest (some r) s

/-- A running test of one side is aborted. -/
def abortTestOf (side : Side) (r : AbortReason) (s : State) : State :=
  match s.out.test with
  | some t => if t.side = side then abortTest r s else s
  | none => s

/-- A LAMP_WALK step (R118): from 15 back to 0. -/
def walkStep (s : State) : State :=
  match s.out.test with
  | some t =>
    if t.pattern = .lampWalk ∧ expired t.half then
      computeLamps (setTest (some { t with step := t.step + 1, half := some (newTimer s.time.now 500) }) s)
    else s
  | none => s

/-- The BUZZER pattern's half alternates (R118). -/
def buzzerHalf (s : State) : State :=
  match s.out.test with
  | some t =>
    if t.pattern = .buzzer ∧ expired t.half then
      setTest (some { t with buzzOn := !t.buzzOn, half := some (newTimer s.time.now 500) }) s
    else s
  | none => s

/-! ## Host supervision -/

/-- Replaces the supervision state. -/
def setSupervision (v : Supervision) (s : State) : State :=
  { s with out := { s.out with supervision := v } }

/-- A period timer just started: it counts lamp refreshes (R122). -/
def periodTimer (now period : Nat) : Option Timer := some { left := period, since := now }

/-- The two refresh values (R123). -/
def flipExpected (b : Byte) : Byte := if b = 0x5A then 0xA5 else 0x5A

/-- Every WINDOW claim is released, with CLAIM_CHANGED if any was (R124). -/
def loseClaims (h : Holder) (s : State) : State :=
  if holdsAny s h then setNotice .claimChanged (dropClaims h s) else s

/-- The HRSTn timer at an entry to FALLBACK (R124): started in the mode FALLBACK_AND_RESET, and restarted in
either mode where a pulse is running. -/
def Supervision.pulse (v : Supervision) (now : Nat) : Option Timer :=
  if v.resets ∨ v.hrst.isSome then some (newTimer now 100) else none

/-- The entry to FALLBACK (R124). -/
def enterFallback (s : State) : State :=
  let v := s.out.supervision
  setNotice .supervision (abortTestOf .window .sideGone (loseClaims .window (computeLamps
    (setSupervision { v with
        stage := .fallback, expected := 0x5A, progress := false, timer := none, occurred := true
        hrst := v.pulse s.time.now } s))))

/-- The entry to WARNED (R123). -/
def enterWarned (s : State) : State :=
  let v := s.out.supervision
  setNotice .supervision
    (setSupervision { v with stage := .warned, timer := periodTimer s.time.now v.period } s)

/-- A good refresh (R123). -/
def goodRefresh (s : State) : State :=
  let v := s.out.supervision
  let flipped := { v with expected := flipExpected v.expected, timer := periodTimer s.time.now v.period }
  match v.stage with
  | .off => s
  | .watching => setSupervision { flipped with occurred := false } s
  | .warned => setSupervision { flipped with stage := .watching, occurred := false } s
  | .fallback =>
    if v.progress then
      setNotice .supervision (computeLamps
        (setSupervision { flipped with stage := .watching, progress := false } s))
    else setSupervision { flipped with progress := true } s

/-- A refresh fault (R123). -/
def refreshFault (s : State) : State :=
  let v := s.out.supervision
  match v.stage with
  | .off => s
  | .watching => enterWarned s
  | .warned => enterFallback s
  | .fallback =>
    if v.progress then setSupervision { v with progress := false, expected := 0x5A, timer := none } s
    else setSupervision { v with expected := 0x5A } s

/-- A write to SUPV_REFRESH (R123). -/
def refreshWrite (value : Byte) (s : State) : State :=
  if value = s.out.supervision.expected then goodRefresh s else refreshFault s

/-- The expiry of the period timer (R123). -/
def periodExpiry (s : State) : State :=
  let v := s.out.supervision
  if expired v.timer then
    match v.stage with
    | .off => s
    | .watching => enterWarned s
    | .warned => enterFallback s
    | .fallback => setSupervision { v with progress := false, expected := 0x5A, timer := none } s
  else s

/-- Stage OFF (R122, R125). -/
def Supervision.off (v : Supervision) : Supervision :=
  { v with stage := .off, period := 0, timer := none, expected := 0x5A, progress := false }

/-- A write to the period byte of SUPV_CONTROL (R122). -/
def periodWrite (value : Byte) (s : State) : State :=
  let v := s.out.supervision
  let p := value.toNat
  if 250 < p then portFault 0x0010 s
  else
    match v.stage with
    | .off =>
      if p = 0 then s
      else setSupervision { v with
        period := p, stage := .watching, expected := 0x5A, timer := periodTimer s.time.now p } s
    | .watching =>
      if p = 0 then setSupervision { v with stage := .off, period := 0, timer := none, expected := 0x5A } s
      else setSupervision { v with period := p, timer := periodTimer s.time.now p } s
    | .warned => portFault 0x0010 s
    | .fallback => portFault 0x0010 s

/-- A write to the mode byte of SUPV_CONTROL (R122). -/
def modeWrite (value : Byte) (s : State) : State :=
  let v := s.out.supervision
  if 1 < value.toNat then portFault 0x0011 s
  else
    match v.stage with
    | .off => setSupervision { v with resets := decide (value = 1) } s
    | .watching => setSupervision { v with resets := decide (value = 1) } s
    | .warned => portFault 0x0011 s
    | .fallback => portFault 0x0011 s

/-- Supervision at a soft restart (R125). -/
def supervisionOff (s : State) : State :=
  let s1 := setSupervision s.out.supervision.off s
  if s.out.supervision.stage = .fallback then computeLamps s1 else s1

/-- A lamp refresh counts the period timer (R122). -/
def tickPeriod (s : State) : State :=
  setSupervision { s.out.supervision with
    timer := s.out.supervision.timer.map (Timer.tick s.time.now) } s

/-- The expiry of the HRSTn timer (R124). -/
def hrstExpiry (s : State) : State :=
  if expired s.out.supervision.hrst then setSupervision { s.out.supervision with hrst := none } s else s

end Sys2Proof.Machine
end

