-- ==== Sys2Proof/Machine/FaultMemory.lean ====
section
/-! DEFINITION. The Fault Memory: occurrences, returns, aging and clears (R126 to R136). -/

namespace Sys2Proof.Machine

/-! ## Places -/

/-- A place's content is replaced; no job is enqueued. -/
def putPlace (i : Fin 40) (p : Place) (s : State) : State :=
  { s with faults := { s.faults with places := s.faults.places.set i.val p i.isLt } }

/-- A place's content is replaced, and its job enqueued where that changes the place (R131). -/
def setPlace (i : Fin 40) (p : Place) (s : State) : State :=
  if s.faults.places[i] = p then s else enqueue (.place i) (putPlace i p s)

/-- An event that R137 lists: the view is rewritten at the end of it. DESIGN CHOICE, log entry 42: also where
it changed no field. -/
def noteView (s : State) : State :=
  { s with faults := { s.faults with viewEvents := s.faults.viewEvents + 1 } }

/-- A header job is enqueued where the record count or the overflow count changed (R131). It comes after the place
jobs of the occurrence, the re-entry or the aging that changed the count (log entry 29), and ahead of the jobs of the
next record that the same event makes (DESIGN CHOICE, log entry 48). -/
def headerJob (before after : State) : State :=
  if recordCount before = recordCount after ∧ before.faults.overflow = after.faults.overflow then after
  else enqueue .header after

/-- A STORED place holds a record of this code. -/
def Place.holds (code : Fin 48) : Place → Bool
  | .stored r => decide (r.code = code)
  | _ => false

/-- The place that holds the STORED record of a code. -/
def placeOf (s : State) (code : Fin 48) : Option (Fin 40) :=
  (List.finRange 40).find? (fun i => s.faults.places[i].holds code)

/-- The FREE place with the lowest index. -/
def freePlace (s : State) : Option (Fin 40) :=
  (List.finRange 40).find? (fun i => decide (s.faults.places[i] = .free))

/-- A record is replaced before another: greater aging, then lower count, then lower first odometer
(R129). -/
def FaultRecord.before (a b : FaultRecord) : Bool :=
  decide (b.aging < a.aging) || (decide (a.aging = b.aging) &&
    (decide (a.count < b.count) || (decide (a.count = b.count) &&
      decide (a.firstOdometer < b.firstOdometer))))

/-- The PASSIVE record that gives way, with its place (R129): among equals the lowest index. -/
def passivePlace (s : State) : Option (Fin 40 × FaultRecord) :=
  (List.finRange 40).foldl (fun best i =>
    match s.faults.places[i] with
    | .stored r =>
      if r.active then best
      else
        match best with
        | none => some (i, r)
        | some b => if r.before b.2 then some (i, r) else best
    | _ => best) none

/-! ## Occurrences -/

/-- A doorway of the summary (R127). -/
def doorSummary (s : State) (n : Fin 4) : DoorSummary :=
  { present := doorwayPresent s.image n, state := s.door.doorways[n].state
    obstructed := s.door.doorways[n].obstructed, emergency := s.door.doorways[n].emergency }

/-- The freeze frame of this event (R127). -/
def freezeFrame (s : State) : FreezeFrame :=
  { speed := s.pulse.raw, speedStatus := s.pulse.status, rpm := s.pulse.rpm, supply := shownValue s 5
    coolant := shownValue s 1, coolantStatus := shownStatus s 1
    doorways := Vector.ofFn (doorSummary s) }

/-- The record an occurrence makes (R129). -/
def newRecord (code : Fin 48) (source : Byte) (s : State) : FaultRecord :=
  { code := code, source := source, active := true, count := 1, aging := 0
    firstOdometer := s.dist.live, lastOdometer := s.dist.live, frame := freezeFrame s }

/-- A new record takes a place, or is dropped (R129). -/
def makeRecord (code : Fin 48) (source : Byte) (s : State) : State :=
  match freePlace s with
  | some i => setPlace i (.stored (newRecord code source s)) s
  | none =>
    match passivePlace s with
    | some (i, _) => setPlace i (.stored (newRecord code source s)) s
    | none => { s with faults := { s.faults with overflow := min (s.faults.overflow + 1) 255 } }

/-- A record takes a further occurrence (R128). -/
def FaultRecord.counted (r : FaultRecord) (odometer : Nat) : FaultRecord :=
  { r with count := min (r.count + 1) 255, lastOdometer := odometer, active := true, aging := 0 }

/-- An occurrence before its header job. -/
def takeOccurrence (code : Fin 48) (source : Byte) (s : State) : State :=
  match placeOf s code with
  | some i =>
    match s.faults.places[i] with
    | .stored r => setPlace i (.stored (r.counted s.dist.live)) s
    | _ => s
  | none => makeRecord code source s

/-- An occurrence (R128, R129, R131, R137), with its own header job: where one event carries several, the header
enters the queue after the place of the first that changed a count, ahead of the places of the later ones. R131 and
R141 give no order. DESIGN CHOICE, log entry 48. -/
def occurrence (code : Fin 48) (source : Byte) (s : State) : State :=
  noteView (headerJob s (takeOccurrence code source s))

/-- A return to INACTIVE (R130). -/
def returnInactive (code : Fin 48) (s : State) : State :=
  match placeOf s code with
  | some i =>
    match s.faults.places[i] with
    | .stored r => if r.active then noteView (setPlace i (.stored { r with active := false }) s) else s
    | _ => s
  | none => s

/-! ## Aging (R132) -/

/-- One place ages. -/
def agePlace (s : State) (i : Fin 40) : State :=
  match s.faults.places[i] with
  | .stored r =>
    if r.active then s
    else if agingLimit s.image ≤ r.aging + 1 then noteView (setPlace i .free s)
    else noteView (setPlace i (.stored { r with aging := r.aging + 1 }) s)
  | _ => s

/-- Every PASSIVE record ages by one ignition cycle (R132), with the jobs of the places that change (R131). DESIGN
CHOICE, log entry 46: the places age, and enqueue their jobs, in ascending place index. -/
def ageRecords (s : State) : State := headerJob s ((List.finRange 40).foldl agePlace s)

/-! ## Clears (R134 to R136) -/

/-- A warning lies in a clear's scope. -/
def inScope (scope : Option (Fin 48)) (w : Fin 48) : Bool :=
  match scope with
  | none => true
  | some c => decide (c = w)

/-- The places a clear chooses. -/
def chosenPlaces (scope : Option (Fin 48)) (s : State) : List (Fin 40) :=
  (List.finRange 40).filter (fun i =>
    match s.faults.places[i] with
    | .stored r => inScope scope r.code
    | _ => false)

/-- A STORED place becomes ERASING. -/
def erasePlace (s : State) (i : Fin 40) : State :=
  match s.faults.places[i] with
  | .stored r => setPlace i (.erasing r) s
  | _ => s

/-- A warning of the list gets a fresh record (R136), with its own header job, ahead of the place jobs of the warnings
after it: DESIGN CHOICE, log entry 48. -/
def reenterWarning (scope : Option (Fin 48)) (s : State) (w : Fin 48) : State :=
  let d := warningDef s.image w
  if inScope scope w && d.record && (placeOf s w).isNone then headerJob s (makeRecord w d.code s) else s

/-- Re-entry for a scope, in list order (R136). -/
def reenter (scope : Option (Fin 48)) (s : State) : State :=
  s.warn.list.foldl (reenterWarning scope) s

/-- Replaces the clear in flight. -/
def setClear (c : Option Clear) (s : State) : State := { s with faults := { s.faults with clear := c } }

/-- A clear that passes its checks chooses no place and waits on nothing (R134). -/
def clearEmpty (scope : Option (Fin 48)) (s : State) : Bool :=
  scope.isSome && (chosenPlaces scope s).isEmpty

/-- The take of a clear that waits on no job, and its completion (R134, R136). -/
def takeEmptyClear (scope : Option (Fin 48)) (s : State) : State := noteView (reenter scope s)

/-- The take of a clear that waits on jobs (R134): those of the chosen places, and the header's last. DESIGN CHOICE,
log entry 47: the chosen places enqueue their jobs in ascending place index. -/
def takeClear (side : Side) (scope : Option (Fin 48)) (s : State) : State :=
  let chosen := chosenPlaces scope s
  let s1 := chosen.foldl erasePlace s
  let s2 := if scope.isNone then { s1 with faults := { s1.faults with overflow := 0 } } else s1
  noteView (setClear (some
    { side := side, scope := scope, failed := false
      waits := chosen.map (fun i => { object := .place i, started := false }) ++
        [{ object := .header, started := false }] }) (enqueue .header s2))

/-- A clear learns that a job has started (R134, R145). -/
def Clear.jobStarted (o : Object) (c : Clear) : Clear :=
  { c with waits := c.waits.map (fun w => if w.object = o then { w with started := true } else w) }

/-- The job is one the clear waits on. -/
def Clear.waitsOn (c : Clear) (o : Object) : Bool :=
  c.waits.any (fun w => decide (w.object = o) && w.started)

/-- An ERASING place becomes FREE (R135). -/
def freeErased (o : Object) (s : State) : State :=
  match o with
  | .place i =>
    match s.faults.places[i] with
    | .erasing _ => noteView (putPlace i .free s)
    | _ => s
  | _ => s

/-- The end of a job, as the Fault Memory takes it (R135, R136). -/
def clearJobEnd (o : Object) (success : Bool) (s : State) : State :=
  match s.faults.clear with
  | none => s
  | some c =>
    if c.waitsOn o then
      let s1 := freeErased o s
      let c1 := { c with
        waits := c.waits.filter (fun w => !(decide (w.object = o) && w.started))
        failed := c.failed || !success }
      if c1.waits.isEmpty then
        deliver .clear c.side (savedResult (!c1.failed)) 0 []
          (noteView (reenter c.scope (setClear none s1)))
      else setClear (some c1) s1
    else s

end Sys2Proof.Machine
end

