-- ==== Sys2Proof/Machine/Warnings.lean ====
section
/-! DEFINITION. The Warning Unit: the state machine (R95), onsets (R97, R98), the list (R99), the
acknowledges (R102 to R104) and the adoption (R109). -/

namespace Sys2Proof.Machine

/-- A warning's state is replaced. -/
def setWarning (w : Fin 48) (x : Warning) (s : State) : State :=
  { s with warn := { s.warn with warnings := s.warn.warnings.set w.val x w.isLt } }

/-- The active warning list is replaced. -/
def setList (l : List (Fin 48)) (s : State) : State := { s with warn := { s.warn with list := l } }

/-- The rank of a class in the list (R99). -/
def WarnClass.rank : WarnClass → Nat
  | .stop => 0
  | .caution => 1
  | .info => 2

/-- A warning with a new onset stands at the head of its class (R99). -/
def insertOnset (rank : Fin 48 → Nat) (w : Fin 48) (l : List (Fin 48)) : List (Fin 48) :=
  l.takeWhile (fun v => decide (rank v < rank w)) ++
    (w :: l.dropWhile (fun v => decide (rank v < rank w)))

/-- The class rank of a warning by the definitions in force. -/
def classRank (s : State) (w : Fin 48) : Nat := (warningDef s.image w).cls.rank

/-- The last value the onset counter reaches (R97). -/
def lastNumber : Nat := 4294967295

/-- The warning's own state at an onset (R97, R100). -/
def Warning.atOnset (x : Warning) (number now : Nat) : Warning :=
  { x with state := .activeUnack, timer := none, number := some number, age := 0, onsetAt := now }

/-- The onset's state, number and place in the list (R97, R99). -/
def enterList (w : Fin 48) (s : State) : State :=
  let s1 := setWarning w (s.warn.warnings[w].atOnset s.warn.nextNumber s.time.now) s
  { s1 with warn := { s1.warn with
      nextNumber := min (s.warn.nextNumber + 1) lastNumber
      list := insertOnset (classRank s) w (s.warn.list.erase w) } }

/-- What an onset asks of the buzzer (R98, R105). -/
def onsetBuzz (d : WarningDef) (s : State) : State :=
  match d.cls with
  | .stop => syncRepeat s
  | .caution => if d.chime then requestBurst .caution s else s
  | .info => if d.chime then requestBurst .info s else s

/-- An onset with all its consequences, each taken by its owner at this event (R98). -/
def onset (w : Fin 48) (s : State) : State :=
  let d := warningDef s.image w
  let s1 := onsetBuzz d (enterList w s)
  let s2 := if d.record then occurrence w d.code s1 else s1
  match d.cls with
  | .stop => abortTest .stopWarning s2
  | .caution => s2
  | .info => s2

/-- The warning's own state once it is INACTIVE: no timer and no age (R95, R100). -/
def Warning.toInactive (x : Warning) : Warning :=
  { x with state := .inactive, timer := none, age := 0, onsetAt := 0 }

/-- A warning leaves the list (R95, R98). -/
def leaveList (w : Fin 48) (s : State) : State :=
  let s1 := syncRepeat (setList (s.warn.list.erase w) (setWarning w s.warn.warnings[w].toInactive s))
  if (warningDef s.image w).record then returnInactive w s1 else s1

/-- A warning of the list changes its state and keeps its place (R99). -/
def restate (w : Fin 48) (st : WarnState) (s : State) : State :=
  syncRepeat (setWarning w { s.warn.warnings[w] with state := st } s)

/-- The condition of a warning with a source truth (R94). -/
def condition (s : State) (d : WarningDef) (truth : Bool) : Bool := truth && qualifierHolds s d.qualifier

/-- A warning whose condition is judged moves through its state machine (R95). -/
def moveWarning (w : Fin 48) (d : WarningDef) (cond : Bool) (s : State) : State :=
  let x := s.warn.warnings[w]
  match x.state with
  | .inactive =>
    if cond then
      (if d.delay = 0 then onset w s
       else setWarning w { x with state := .pending, timer := some (newTimer s.time.now (100 * d.delay)) } s)
    else s
  | .pending => if cond then s else setWarning w x.toInactive s
  | .activeUnack =>
    if cond then s else if d.latch then restate w .latched s else leaveList w s
  | .activeAck => if cond then s else leaveList w s
  | .latched => if cond then onset w s else s

/-- A warning's source truth is set from its source, and its condition judged, where it is enabled
(R89, R94). -/
def judgeWarning (s : State) (w : Fin 48) : State :=
  let d := warningDef s.image w
  if d.enabled then
    let x := s.warn.warnings[w]
    let truth := sourceTruth s d.source x.truth
    moveWarning w d (condition s d truth) (setWarning w { x with truth := truth } s)
  else s

/-- Every warning judged at an event, in ascending order of id (R94). -/
def judgeAll (s : State) : State := (List.finRange 48).foldl judgeWarning s

/-- An event ends: the warnings are judged against what it changed (R94), and the images it changed are
rewritten, each once (R172). -/
def finish (before after : State) : State := publish before (judgeAll after)

/-- An event ends that may have changed one source: the warnings are judged where it did. -/
def settle (changed : Bool) (before after : State) : State :=
  if changed then finish before after else publish before after

/-- The gauge truths after a hand-over (R92). -/
def judgeGauges (s : State) : State :=
  { s with warn := { s.warn with warnings := Vector.ofFn fun w =>
      let d := warningDef s.image w
      let x := s.warn.warnings[w]
      if d.enabled then { x with truth := gaugeTruth d s.warn.handed x.truth } else x } }

/-- The expiry of an onset timer (R95). -/
def onsetExpiry (w : Fin 48) (s : State) : State :=
  let x := s.warn.warnings[w]
  if x.state = .pending ∧ expired x.timer then onset w s else s

/-- An acknowledge of one warning (R102). -/
def acknowledge (s : State) (w : Fin 48) : State :=
  match s.warn.warnings[w].state with
  | .activeUnack => restate w .activeAck s
  | .latched => leaveList w s
  | .inactive => s
  | .pending => s
  | .activeAck => s

/-- A press of the acknowledge button (R103). It is taken before the condition change of a warning that names the same
line: R14 gives them no order, and R96 allows both. DESIGN CHOICE, log entry 54. -/
def pressAck (s : State) : State :=
  match s.warn.list.find? (fun w =>
      decide (s.warn.warnings[w].state = .activeUnack) || decide (s.warn.warnings[w].state = .latched)) with
  | some w => acknowledge s w
  | none => s

/-- A warning after the first two steps of an adoption, with a fresh source truth (R109). -/
def Warning.adopted (x : Warning) : Warning :=
  { x.toInactive with truth := false, number := none }

/-- The first three steps of an adoption, by the definitions of the image that was in force (R109). The
returns to INACTIVE are handed over in list order; R109 gives none. DESIGN CHOICE, log entry 41. -/
def clearWarnings (before : Mem) (s : State) : State :=
  let s1 := s.warn.list.foldl (fun s w =>
    if (warningDef before w).record then returnInactive w s else s) s
  syncRepeat { s1 with warn := { s1.warn with
    warnings := Vector.ofFn fun w => s1.warn.warnings[w].adopted
    list := [] } }

/-- The ages of the listed warnings advance at a timer step (R100). -/
def tickWarnings (s : State) : State :=
  { s with warn := { s.warn with warnings := Vector.ofFn fun w =>
      let x := s.warn.warnings[w]
      { x with
        timer := x.timer.map (Timer.tick s.time.now)
        age := if x.state.listed ∧ x.onsetAt ≠ s.time.now then x.age + 1 else x.age } } }

end Sys2Proof.Machine
end

