-- ==== Sys2Proof/Machine/Doors.lean ====
section
/-! DEFINITION. The Doorway Monitor: doorways (R72 to R75), the stop cycle and its record (R76 to R81),
the stop request latch (R82), the permit (R84, R85) and the adoption (R88). -/

namespace Sys2Proof.Machine

/-- Replaces the Doorway Monitor's state. -/
def setDoor (d : DoorMonitor) (s : State) : State := { s with door := d }

/-- Replaces a doorway. -/
def setDoorway (n : Fin 4) (d : Doorway) (s : State) : State :=
  setDoor { s.door with doorways := s.door.doorways.set n.val d n.isLt } s

/-! ## The open record's additions (R79) -/

/-- Changes the open record, if there is one. -/
def onRecord (f : StopRecord → StopRecord) (s : State) : State :=
  match s.door.stop with
  | none => s
  | some o => setDoor { s.door with stop := some { o with record := f o.record } } s

/-- The flags of a stop record, by bit (R176). -/
def flagRamp : BitVec 8 := 1
/-- KNEEL_USED. -/
def flagKneel : BitVec 8 := 2
/-- EMERGENCY_USED. -/
def flagEmergency : BitVec 8 := 4
/-- STOP_REQUESTED. -/
def flagRequested : BitVec 8 := 8
/-- MOVED_OPEN. -/
def flagMoved : BitVec 8 := 16
/-- IGNITION_OFF. -/
def flagIgnition : BitVec 8 := 32

/-- A flag of the open record is set. -/
def recordFlag (b : BitVec 8) (s : State) : State := onRecord (fun r => { r with flags := r.flags ||| b }) s

/-- A doorway's bit of the open record's mask is set. -/
def recordDoorway (n : Fin 4) (s : State) : State :=
  onRecord (fun r => { r with mask := r.mask ||| BitVec.twoPow 4 n.val }) s

/-- An obstruction is counted. -/
def recordObstruction (s : State) : State :=
  onRecord (fun r => { r with obstructions := min (r.obstructions + 1) 255 }) s

/-! ## The stop cycle -/

/-- The mask of the present doorways that are not closed (R78). -/
def openMask (s : State) : BitVec 4 :=
  (List.finRange 4).foldl (fun m n => if doorwayOpen s n then m ||| BitVec.twoPow 4 n.val else m) 0

/-- The flags an opening takes (R78). -/
def openingFlags (s : State) : BitVec 8 :=
  (if s.door.latch then flagRequested else 0) ||| (if s.door.ramp then flagRamp else 0) |||
  (if s.door.kneel then flagKneel else 0) |||
  (if (List.finRange 4).any (doorEmergency s) then flagEmergency else 0)

/-- The record of a stop that opens (R78). -/
def openingRecord (s : State) : StopRecord :=
  { sequence := if s.door.nextSequence = 0 then 1 else s.door.nextSequence
    openStamp := stampOf s.time.now, closeStamp := 0, odometer := s.dist.live, dwell := 0
    mask := openMask s, obstructions := 0, flags := openingFlags s }

/-- The stop sequence counter after a stop has opened (R78). -/
def nextStopSequence (n : Nat) : Nat := if n = 0 then 2 else if n = 4294967295 then 0 else n + 1

/-- A stop opens (R78); the latch is cleared after the flags are taken (R82). -/
def openStop (s : State) : State :=
  setDoor { s.door with
    cycle := .atStop
    stop := some { record := openingRecord s, openedAt := s.time.now, lastClose := 0 }
    latch := false
    journal := if s.door.nextSequence = 0 then [] else s.door.journal
    nextSequence := nextStopSequence s.door.nextSequence } s

/-- A journal with a record appended: at most 8 (R81). -/
def appendRecord (r : StopRecord) (j : List StopRecord) : List StopRecord :=
  (if 8 ≤ j.length then j.drop (j.length - 7) else j) ++ [r]

/-- The open record closes with its dwell and flag, and STOP_RECORDED is set (R81). -/
def closeStop (dwell : OpenStop → Nat) (flag : BitVec 8) (s : State) : State :=
  match s.door.stop with
  | none => s
  | some o =>
    let r := { o.record with
      dwell := dwell o, closeStamp := stampOf s.time.now, flags := o.record.flags ||| flag }
    setNotice .stopRecorded
      (setDoor { s.door with stop := none, journal := appendRecord r s.door.journal } s)

/-- The dwell count of the open record. -/
def OpenStop.count (o : OpenStop) : Nat := o.record.dwell

/-- The cycle's state is replaced. -/
def setCycle (c : Cycle) (s : State) : State := setDoor { s.door with cycle := c } s

/-- OUT_OF_SERVICE, with the latch cleared. -/
def outOfService (s : State) : State := setDoor { s.door with cycle := .outOfService, latch := false } s

/-- The last-close dwell is captured (R80). -/
def captureDwell (s : State) : State :=
  match s.door.stop with
  | none => s
  | some o => setDoor { s.door with stop := some { o with lastClose := o.record.dwell } } s

/-- The first transition whose condition holds, if any (R76). -/
def cycleStep (s : State) : Option State :=
  let off := !ignitionOn s
  let standing := decide (s.pulse.motion = .standstill)
  match s.door.cycle with
  | .outOfService => if off then none else some (setCycle .driving s)
  | .driving =>
    if off then some (outOfService s) else if standing then some (setCycle .arrived s) else none
  | .arrived =>
    if off then some (outOfService s)
    else if !standing then some (setCycle .driving s)
    else if anyOpen s then some (openStop s)
    else none
  | .atStop =>
    if off then some (outOfService (closeStop OpenStop.count flagIgnition s))
    else if !standing then some (setCycle .driving (closeStop OpenStop.count flagMoved s))
    else if allClosed s then some (setCycle .departing (captureDwell s))
    else none
  | .departing =>
    if off then some (outOfService (closeStop OpenStop.lastClose flagIgnition s))
    else if !standing then some (setCycle .driving (closeStop OpenStop.lastClose 0 s))
    else if anyOpen s then some (setCycle .atStop s)
    else none

/-- Transitions until none holds. Three are the most that one judgement can make. -/
def cycleSteps : Nat → State → State
  | 0, s => s
  | k + 1, s =>
    match cycleStep s with
    | none => s
    | some s' => cycleSteps k s'

/-- A judgement of the stop cycle (R76). -/
def judgeCycle (s : State) : State := cycleSteps 4 s

/-! ## The permit -/

/-- DPERMIT is judged (R85). -/
def judgePermit (s : State) : State := setDoor { s.door with dpermit := permitJudged s } s

/-- The Doorway Monitor takes an ignition change (R13). -/
def doorIgnition (s : State) : State := judgePermit (judgeCycle s)

/-- The standstill age at a motion change (R84). -/
def ageAtMotion : Motion → Option Nat
  | .standstill => some 0
  | .moving => none
  | .unknown => none

/-- The Doorway Monitor takes a motion change (R76, R84, R85). -/
def doorMotion (s : State) : State :=
  judgePermit (judgeCycle
    (setDoor { s.door with age := ageAtMotion s.pulse.motion, matureDue := false } s))

/-- A timer step advances the standstill age, unless the standstill began at its instant (R84). -/
def tickAge (s : State) : State :=
  match s.door.age, s.pulse.standstillAt with
  | some a, some t =>
    if t < s.time.now then
      let a' := min (a + 1) 200
      setDoor { s.door with
        age := some a'
        matureDue := s.door.matureDue || (decide (a < a') && decide (a' = permitSteps s)) } s
    else s
  | _, _ => s

/-- The standstill has become mature (R84, R85). -/
def takeMaturity (s : State) : State :=
  if s.door.matureDue then judgePermit (setDoor { s.door with matureDue := false } s) else s

/-! ## Doorways -/

/-- A switch state that is neither ACTIVE nor INACTIVE. -/
def LineState.unread : LineState → Bool
  | .active => false
  | .inactive => false
  | _ => true

/-- The combination of a closed switch and an open-end switch; none is an unassigned role (R72). -/
def comboOf (c o : Option LineState) : Combo :=
  match c with
  | none => .fault
  | some cs =>
    if cs.unread then .fault
    else
      match o with
      | none => if cs = .active then .shut else .full
      | some os =>
        if os.unread then .fault
        else if cs = .active then (if os = .active then .both else .shut)
        else (if os = .active then .full else .travel)

/-- The combination of a doorway's lines as they stand: where both change at one sense sample, the first of
the two deliveries reads both new states, and no combination in between is judged. DESIGN CHOICE, log entry 4. -/
def comboNow (s : State) (n : Fin 4) : Combo :=
  comboOf (roleState s (.switchClosed n)) (roleState s (.openEnd n))

/-- A doorway enters UNKNOWN, CLOSED or OPEN: both timers stop (R72). -/
def Doorway.settle (d : Doorway) (c : Combo) (st : DoorState) : Doorway :=
  { d with combo := c, state := st, travel := none, conflict := none }

/-- A doorway whose combination changes (R72 to R74). -/
def Doorway.take (d : Doorway) (now limit : Nat) (c : Combo) : Doorway :=
  match c with
  | .fault => d.settle .fault .unknown
  | .shut => d.settle .shut .closed
  | .full => d.settle .full .opened
  | .travel =>
    if d.state = .moving ∨ d.state = .stalled then { d with combo := .travel, conflict := none }
    else { d with
      combo := .travel, conflict := none, state := .moving, travel := some (newTimer now (100 * limit)) }
  | .both => { d with combo := .both, conflict := some (newTimer now 500) }

/-- A doorway's new state, with its bit of the open record where it enters MOVING, OPEN or STALLED
(R79). -/
def moveDoorway (n : Fin 4) (d : Doorway) (s : State) : State :=
  let s1 := setDoorway n d s
  if d.state ≠ s.door.doorways[n].state ∧ d.state.notClosed then recordDoorway n s1 else s1

/-- A present doorway's combination is judged (R72). -/
def judgeDoorway (n : Fin 4) (s : State) : State :=
  let d := s.door.doorways[n]
  let c := comboNow s n
  if doorwayPresent s.image n ∧ c ≠ d.combo then
    judgeCycle (moveDoorway n (d.take s.time.now (travelLimit s.image n) c) s)
  else s

/-- The expiry of a travel timer (R73). -/
def travelExpiry (n : Fin 4) (s : State) : State :=
  let d := s.door.doorways[n]
  if expired d.travel ∧ d.state = .moving then
    judgeCycle (moveDoorway n { d with state := .stalled, travel := none } s)
  else s

/-- The expiry of a conflict timer (R74). -/
def conflictExpiry (n : Fin 4) (s : State) : State :=
  let d := s.door.doorways[n]
  if expired d.conflict then
    judgeCycle (moveDoorway n { d with state := .conflict, conflict := none, travel := none } s)
  else s

/-- OBSTRUCTED follows its line (R75). -/
def judgeObstructed (n : Fin 4) (s : State) : State :=
  if doorwayPresent s.image n then
    setDoorway n { s.door.doorways[n] with obstructed := roleActive s (.edge n) } s
  else s

/-- EMERGENCY follows its line, and marks the open record when it becomes set (R75, R79). -/
def judgeEmergency (n : Fin 4) (s : State) : State :=
  if doorwayPresent s.image n then
    let e := roleActive s (.emergency n)
    let s1 := setDoorway n { s.door.doorways[n] with emergency := e } s
    if e ∧ !s.door.doorways[n].emergency then recordFlag flagEmergency s1 else s1
  else s

/-- The kneel flag follows its line (R75, R79). -/
def judgeKneel (s : State) : State :=
  let k := roleActive s .kneel
  let s1 := setDoor { s.door with kneel := k } s
  if k ∧ !s.door.kneel then recordFlag flagKneel s1 else s1

/-- The ramp flag follows its line (R75, R79). -/
def judgeRamp (s : State) : State :=
  let r := roleActive s .ramp
  let s1 := setDoor { s.door with ramp := r } s
  if r ∧ !s.door.ramp then recordFlag flagRamp s1 else s1

/-- An edge line's debounced change: the overlay, and a count where it is into ACTIVE (R75, R79). -/
def takeEdge (n : Fin 4) (new : LineState) (s : State) : State :=
  let s1 := judgeObstructed n s
  if doorwayPresent s.image n ∧ new = .active then recordObstruction s1 else s1

/-- A press of a stop button (R82). Its beep is requested before what a warning that names the same line asks of the
buzzer: R14 gives them no order, and R108 allows both. DESIGN CHOICE, log entry 53. -/
def pressStop (s : State) : State :=
  if (s.door.cycle = .driving ∨ s.door.cycle = .arrived) ∧ !s.door.latch then
    requestBurst .info (setDoor { s.door with latch := true } s)
  else s

/-- A gauge cycle counts the dwell of an open record, unless it opened at its instant (R80). -/
def countDwell (s : State) : State :=
  match s.door.stop with
  | none => s
  | some o =>
    if o.openedAt = s.time.now then s
    else setDoor { s.door with stop := some { o with
      record := { o.record with dwell := min (o.record.dwell + 1) 65535 } } } s

/-- The doorway timers advance at a timer step. -/
def tickDoors (s : State) : State :=
  setDoor { s.door with doorways := Vector.ofFn fun n =>
    let d := s.door.doorways[n]
    { d with travel := d.travel.map (Timer.tick s.time.now)
             conflict := d.conflict.map (Timer.tick s.time.now) } } s

/-! ## Adoption (R88) -/

/-- One doorway takes its new entry; `before` is the image that was in force. R88 says that an open record keeps
its values; what R79 adds to it (a doorway that enters MOVING or OPEN, an overlay that becomes set) is added at
an adoption too. DESIGN CHOICE, log entry 21. -/
def adoptDoorway (before : Mem) (s : State) (n : Fin 4) : State :=
  if doorwayPresent s.image n then
    if doorwayPresent before n then
      judgeEmergency n (judgeObstructed n
        (let d := s.door.doorways[n]
         let c := comboNow s n
         if c ≠ d.combo then moveDoorway n (d.take s.time.now (travelLimit s.image n) c) s else s))
    else
      judgeEmergency n (judgeObstructed n
        (moveDoorway n (Doorway.reset.take s.time.now (travelLimit s.image n) (comboNow s n)) s))
  else setDoorway n Doorway.reset s

/-- The Doorway Monitor takes an adoption, the new image being in force. R88 says that the stop sequence
counter, the journal, the latch and an open record keep their values; where the cycle judged here opens a stop,
R78 and R82 act on them as at any other event. DESIGN CHOICE, log entry 21. -/
def adoptDoors (before : Mem) (s : State) : State :=
  judgePermit (judgeCycle (judgeRamp (judgeKneel ((List.finRange 4).foldl (adoptDoorway before) s))))

end Sys2Proof.Machine
end

