-- ==== Sys2Proof/Machine/Pulse.lean ====
section
/-! DEFINITION. The Pulse Channel Unit: motion (R27), the speed source (R28 to R32), the evaluations
(R21 to R26, R34, R35) and a new k-factor (R33). -/

namespace Sys2Proof.Machine

/-- Replaces the Pulse Channel Unit's state. -/
def setPulse (p : PulseUnit) (s : State) : State := { s with pulse := p }

/-! ## Motion -/

/-- Every quick-adopt run count becomes 0 (R65). -/
def resetQuick (s : State) : State :=
  { s with analog := { s.analog with channels := Vector.ofFn fun c =>
      { s.analog.channels[c] with quick := 0 } } }

/-- A motion change is handed to its consumers (R27): a change that leaves STANDSTILL ends a test and
stops the quick adopts. The Doorway Monitor takes it first and the Output Unit last; R27 gives no order. DESIGN CHOICE,
log entry 52. -/
def handMotion (old : Motion) (s : State) : State :=
  let s1 := doorMotion s
  if old = .standstill then abortTest .motion (resetQuick s1) else s1

/-- The motion state becomes a value; a value it already holds is no change (R27). -/
def setMotion (m : Motion) (s : State) : State :=
  if s.pulse.motion = m then s
  else
    handMotion s.pulse.motion
      (setPulse { s.pulse with
        motion := m, standstillAt := if m = .standstill then some s.time.now else none } s)

/-! ## Speed source -/

/-- The speeds of an INVALID source (R25, R30). -/
def PulseUnit.noSpeed (p : PulseUnit) : PulseUnit :=
  { p with raw := 0, displayed := 0, status := .invalid, count := 0, reference := none }

/-- The speed source has become INVALID (R30). -/
def sourceLost (s : State) : State :=
  judgePermit (setMotion (proxyMotion s) (setPulse s.pulse.noSpeed s))

/-- The speed source has returned to VALID (R32). -/
def sourceReturn (s : State) : State :=
  judgePermit (setMotion .unknown
    (setPulse { s.pulse with
      standstillAt := none, reference := none, count := 0, lastEdge := stampOf s.time.now } s))

/-- The wire state after a sample (R28): BROKEN, and the run count. -/
def wireStep (broken : Bool) (run : Nat) (isOpen crank : Bool) : Bool × Nat :=
  if isOpen ∧ crank then (broken, run)
  else if isOpen = broken then (broken, 0)
  else if 40 ≤ run + 1 then (!broken, 0)
  else (broken, run + 1)

/-- A sample of the wire class of PULSE_V (R28, R30, R32). -/
def sampleWire (isOpen : Bool) (s : State) : State :=
  let w := wireStep s.pulse.wireBroken s.pulse.wireRun isOpen s.analog.crankHold
  let s1 := setPulse { s.pulse with wireBroken := w.1, wireRun := w.2 } s
  if sourceValid s.pulse ∧ !sourceValid s1.pulse then sourceLost s1
  else if !sourceValid s.pulse ∧ sourceValid s1.pulse then sourceReturn s1
  else s1

/-- A change of the PARKING_BRAKE line reaches the motion proxy (R31). -/
def brakeProxy (s : State) : State :=
  if sourceValid s.pulse then s else setMotion (proxyMotion s) s

/-- A new k-factor (R33). -/
def takeK (k : Nat) (s : State) : State :=
  let p := s.pulse
  let s1 := setPulse { p with
    acc := if p.calValid then p.acc * k / p.k else 0, k := k, calValid := true } s
  if !sourceValid p ∧ sourceValid s1.pulse then sourceReturn s1 else s1

/-! ## Evaluations -/

/-- A quotient rounded to the nearest integer, halves up (R21). -/
def roundUp (num den : Nat) : Nat := (2 * num + den) / (2 * den)

/-- The speed of `n` intervals over a span, in 0.01 km/h (R21). -/
def speedOf (n k span : Nat) : Nat := roundUp (n * 360000000000) (k * span)

/-- A computed speed is shown up to 25,000 (R21). -/
def statusOf (v : Nat) : SpeedStatus := if v ≤ 25000 then .valid else .over

/-- A first evaluation makes the status VALID (R25). -/
def SpeedStatus.evaluated : SpeedStatus → SpeedStatus
  | .invalid => .valid
  | .valid => .valid
  | .over => .over

/-- The road speed evaluation of a gauge cycle (R21 to R25): the unit after it, and the motion state it
gives, if any. -/
def PulseUnit.evaluate (p : PulseUnit) (now timeout : Nat) : PulseUnit × Option Motion :=
  if !sourceValid p then (p.noSpeed, none)
  else if p.count ≠ 0 then
    match p.reference with
    | some r =>
      let v := speedOf p.count p.k (span p.lastEdge r)
      ({ p with raw := min v 25000, status := statusOf v, reference := some p.lastEdge, count := 0 },
        if 1 ≤ v then some .moving else none)
    | none => ({ p with reference := some p.lastEdge, count := 0, status := p.status.evaluated }, none)
  else if p.motion = .standstill ∧ p.reference.isNone then (p, none)
  else
    let t := span (stampOf now) p.lastEdge
    if timeout * 1000 ≤ t then
      ({ p with raw := 0, status := .valid, reference := none }, some .standstill)
    else if t = 0 then ({ p with status := p.status.evaluated }, none)
    else
      let b := speedOf 1 p.k t
      if b < p.raw then ({ p with raw := min b 25000, status := statusOf b }, none)
      else ({ p with status := p.status.evaluated }, none)

/-- The displayed speed's step (R26). -/
def PulseUnit.display (p : PulseUnit) (shift : Nat) : PulseUnit :=
  if sourceValid p then
    { p with displayed := (p.displayed + filterStep ((p.raw : Int) - p.displayed) shift).toNat }
  else p

/-- The road speed of a gauge cycle (R21 to R27). -/
def evaluateRoad (s : State) : State :=
  let e := s.pulse.evaluate s.time.now (pulseParams s.image).timeout
  let s1 := setPulse (e.1.display (pulseParams s.image).shift) s
  match e.2 with
  | some m => setMotion m s1
  | none => s1

/-- The engine speed of `n` intervals over a span, in rpm (R34). -/
def engineOf (n p10 span : Nat) : Nat := min (roundUp (n * 600000000) (p10 * span)) 5000

/-- The engine speed evaluation of a gauge cycle (R34). -/
def PulseUnit.evaluateEngine (p : PulseUnit) (now p10 : Nat) : PulseUnit :=
  if p.engineCount ≠ 0 then
    match p.engineRef with
    | some r =>
      { p with
        rpm := engineOf p.engineCount p10 (span p.engineEdge r)
        engineRef := some p.engineEdge, engineCount := 0 }
    | none => { p with engineRef := some p.engineEdge, engineCount := 0 }
  else if p.engineRef.isNone then p
  else
    let t := span (stampOf now) p.engineEdge
    if 500000 ≤ t then { p with rpm := 0, engineRef := none }
    else if t = 0 then p
    else { p with rpm := min p.rpm (engineOf 1 p10 t) }

/-- The engine-running flag judged (R35). -/
def PulseUnit.judgeRunning (p : PulseUnit) (rOn rOff : Nat) : PulseUnit :=
  { p with running := if p.running then decide (rOff ≤ p.rpm) else decide (rOn ≤ p.rpm) }

/-- The engine speed of a gauge cycle (R34, R35). -/
def evaluateEngine (s : State) : State :=
  let c := pulseParams s.image
  setPulse ((s.pulse.evaluateEngine s.time.now c.p10).judgeRunning c.rOn c.rOff) s

/-! ## Edges -/

/-- An edge is accepted 40 µs or more after the last one accepted (R18). -/
def edgeAccepted (now : Nat) (last : Stamp) : Bool := decide (40 ≤ span (stampOf now) last)

/-- The distance accumulator after a fed edge, and whether it emits a tick (R20). -/
def feed (acc k : Nat) : Nat × Bool :=
  if k ≤ acc + 100 then (acc + 100 - k, true) else (acc + 100, false)

end Sys2Proof.Machine
end

