-- ==== Sys2Proof/Machine/Odometer.lean ====
section
/-! DEFINITION. The Distance Counter: ticks (R40, R41), trip control (R42), save triggers (R43), the
low-supply watch (R44), the preset (R51, R52) and the k-factor's checks (R53). -/

namespace Sys2Proof.Machine

/-- Replaces the Distance Counter's state. -/
def setDist (d : Distance) (s : State) : State := { s with dist := d }

/-- 9999999.99 km (R40). -/
def odometerMax : Nat := 999999999

/-- 9999.99 km (R41). -/
def tripMax : Nat := 999999

/-- A save trigger of the odometer and both trips (R43). -/
def saveTrigger (s : State) : State :=
  enqueue .tripB (enqueue .tripA (enqueue .ring (setDist { s.dist with ticks := 0 } s)))

/-- A trip meter takes a tick (R41). -/
def Trip.tick (t : Trip) : Trip :=
  if t.running then { t with value := if t.value = tripMax then 0 else t.value + 1 } else t

/-- The odometer's digits and the save count take a tick (R40). -/
def Distance.tick (d : Distance) : Distance :=
  let trips := { d with tripA := d.tripA.tick, tripB := d.tripB.tick }
  if d.live = odometerMax then trips
  else { trips with live := d.live + 1, ticks := d.ticks + 1 }

/-- A distance tick (R40, R41). -/
def distanceTick (s : State) : State :=
  let s1 := setDist s.dist.tick s
  if s1.dist.ticks = 100 then saveTrigger s1 else s1

/-- An accepted PULSE_V edge (R19, R20). -/
def acceptPulseV (s : State) : State :=
  let p := s.pulse
  let stamped := { p with lastEdge := stampOf s.time.now, count := min (p.count + 1) 65535 }
  if sourceValid p then
    let f := feed p.acc p.k
    let s1 := setPulse { stamped with acc := f.1 } s
    if f.2 then distanceTick s1 else s1
  else setPulse stamped s

/-- A trip meter takes a trip control (R42). -/
def TripAction.apply (a : TripAction) (t : Trip) : Trip :=
  match a with
  | .none => t
  | .run => { t with running := true }
  | .stop => { t with running := false }
  | .reset => { t with value := 0 }
  | .resetAndRun => { value := 0, running := true }

/-- A job for each trip that changed (R42), trip A's before trip B's. DESIGN CHOICE, log entry 39: R42 gives
no order. -/
def tripJobs (before after : State) : State :=
  let s1 := if before.dist.tripA = after.dist.tripA then after else enqueue .tripA after
  if before.dist.tripB = after.dist.tripB then s1 else enqueue .tripB s1

/-- A trip control taken (R42). -/
def takeTrips (a b : TripAction) (s : State) : State :=
  tripJobs s (setDist { s.dist with tripA := a.apply s.dist.tripA, tripB := b.apply s.dist.tripB } s)

/-- The watch takes a SUPPLY value (R44). -/
def Watch.take (w : Watch) (now : Nat) (low : Bool) : Watch :=
  match w with
  | .armed => if low then .timing (newTimer now 1000) else .armed
  | .timing t => if low then .timing t else .armed
  | .spent => if low then .spent else .armed

/-- The SUPPLY value of a gauge cycle is handed to the watch (R44). -/
def watchSupply (v : Int) (s : State) : State :=
  setDist { s.dist with watch := s.dist.watch.take s.time.now (decide (v < Config.pageSupply)) } s

/-- The expiry of the watch's timer (R44). -/
def watchExpiry (s : State) : State :=
  match s.dist.watch with
  | .timing t => if t.left = 0 then saveTrigger (setDist { s.dist with watch := .spent } s) else s
  | .armed => s
  | .spent => s

/-- The checks of a preset, in order: the value, or the result of the first that fails (R51). -/
def presetCheck (side : Side) (w : BitVec 40) (s : State) : Nat ⊕ Result :=
  match bcdValue w with
  | none => .inr .badParameter
  | some v =>
    if v < s.dist.live then .inr .badParameter
    else if !holdsClaim s side .odometer then .inr .notClaimed
    else if s.pulse.motion ≠ .standstill then .inr .wrongState
    else if s.dist.preset.isSome then .inr .busy
    else .inl v

/-- A preset taken (R52). -/
def takePreset (side : Side) (v : Nat) (s : State) : State :=
  enqueue .ring (setDist { s.dist with
    live := v, lost := false, ticks := 0, preset := some { side := side, started := false } } s)

/-- The checks of a k-factor, in order: none is a pass (R53). -/
def kFactorCheck (side : Side) (k : Nat) (s : State) : Option Result :=
  if k < 2000 ∨ 65000 < k then some .badParameter
  else if !holdsClaim s side .odometer then some .notClaimed
  else if s.pulse.motion ≠ .standstill then some .wrongState
  else if s.dist.kfactor.isSome then some .busy
  else none

/-- A k-factor taken (R53). The calibration job is enqueued ahead of the jobs of the records that the return of the
speed source changes, since the warnings are judged at the end of the event: DESIGN CHOICE, log entry 50. -/
def takeKFactor (side : Side) (k : Nat) (s : State) : State :=
  let s1 := takeK k s
  enqueue .calibration (setDist { s1.dist with kfactor := some { side := side, started := false } } s1)

end Sys2Proof.Machine
end

