-- ==== Sys2Proof/Machine/Gauges.lean ====
section
/-! DEFINITION. The Analog Channel Unit: groups (R56), tables (R57), the supply (R58 to R60), the
judgement of a sender (R61 to R65), the hand-over (R37, R66) and the adoption (R69). -/

namespace Sys2Proof.Machine

/-- Replaces the Analog Channel Unit's state. -/
def setAnalog (a : AnalogUnit) (s : State) : State := { s with analog := a }

/-! ## Groups (R56) -/

/-- A sample that waited for the gauge cycle of its own instant joins the open group, once that instant
is past. -/
def Channel.absorb (c : Channel) (passed : Bool) : Channel :=
  match c.late with
  | some v => if passed then { c with sum := c.sum + v.toNat, count := c.count + 1, late := none } else c
  | none => c

/-- A sample is taken: into the open group, or kept for the next one. -/
def Channel.sample (c : Channel) (v : Sample) (early : Bool) : Channel :=
  if early then { c with late := some v } else { c with sum := c.sum + v.toNat, count := c.count + 1 }

/-- The inputs are converted at a sense sample. -/
def sampleInputs (inputs : Vector Sample 6) (s : State) : State :=
  let now := s.time.now
  let early := decide (now % Config.gaugePeriod = 0) && decide (s.time.lastGauge ≠ now)
  setAnalog { s.analog with
    channels := Vector.ofFn fun c =>
      (s.analog.channels[c].absorb (decide (s.analog.lateAt < now))).sample inputs[c] early
    lateAt := if early then now else s.analog.lateAt } s

/-- The raw mean of a closed group; that of a group without a sample is open (log entry 6). -/
def groupMean (now sum count : Nat) : Nat :=
  if count = 0 then (Config.emptyGroupMean now).toNat else (sum + count / 2) / count

/-- A gauge cycle closes the group and opens the next, with the sample of its own instant in it. -/
def Channel.close (c : Channel) (now lateAt : Nat) : Channel :=
  let g := c.absorb (decide (lateAt < now))
  let closed := { g with mean := some (groupMean now g.sum g.count), sum := 0, count := 0 }
  closed.absorb true

/-- The groups of all channels close. -/
def closeGroups (s : State) : State :=
  setAnalog { s.analog with channels := Vector.ofFn fun c =>
    s.analog.channels[c].close s.time.now s.analog.lateAt } s

/-! ## Tables (R57) -/

/-- The scan of a table from its second breakpoint on. -/
def scanTable (r : Nat) : List (Nat × Int) → Int
  | [] => 0
  | [p] => p.2
  | p :: q :: l =>
    if r ≤ q.1 then p.2 + roundAway (((r : Int) - p.1) * (q.2 - p.2)) (q.1 - p.1) else scanTable r (q :: l)

/-- The table value of a raw mean. -/
def tableValue (table : List (Nat × Int)) (r : Nat) : Int :=
  match table with
  | [] => 0
  | p :: l => if r ≤ p.1 then p.2 else scanTable r (p :: l)

/-! ## Supply (R58 to R60) -/

/-- The scaling of SUPPLY. -/
def supplyOf (raw : Nat) : Nat := (2 * raw * 4000 + 1023) / 2046

/-- SUPPLY_LOW judged. -/
def judgeLow (v : Nat) (low : Bool) : Bool := if v < 2200 then true else if 2300 ≤ v then false else low

/-- The SUPPLY value of this cycle, from its raw mean. -/
def supplyNow (s : State) : Nat := supplyOf (s.analog.channels[5].mean.getD 0)

/-- The SUPPLY channel of a cycle. -/
def judgeSupply (s : State) : State :=
  let v := supplyNow s
  setAnalog { s.analog with
    channels := s.analog.channels.set 5
      { s.analog.channels[5] with x := some v, y := some v, status := .valid }
    crankHold := decide (v < crankThreshold s.image)
    supplyLow := judgeLow v s.analog.supplyLow } s

/-! ## Senders (R61 to R65) -/

/-- A sender's fault cycle (R62). -/
def Channel.faultCycle (c : Channel) (e : SenderEntry) (now : Nat) : Channel :=
  let c := { c with quick := 0 }
  let timer := some (newTimer now (100 * e.hold))
  match c.status with
  | .valid =>
    if e.hold = 0 then { c with status := .invalid, fault := true }
    else { c with status := .held, hold := timer }
  | .held => c
  | .invalid =>
    if c.hold.isSome ∨ c.fault then c
    else if e.hold = 0 then { c with fault := true }
    else { c with hold := timer }

/-- The cycle counts towards a quick adopt (R65). -/
def Channel.counts (c : Channel) (e : SenderEntry) (quiet : Bool) (x y : Int) : Bool :=
  decide (e.margin ≠ 0) && decide (c.status = .valid) && quiet && decide ((e.margin : Int) < (x - y).natAbs)

/-- A sender's good cycle with its table value (R62, R64, R65). -/
def Channel.goodCycle (c : Channel) (e : SenderEntry) (quiet : Bool) (x : Int) : Channel :=
  match c.status with
  | .invalid =>
    { c with x := some x, y := some x, status := .valid, fault := false, hold := none, quick := 0 }
  | _ =>
    let y := c.y.getD x
    let filtered := y + filterStep (x - y) e.shift
    let g := { c with x := some x, status := .valid, hold := none }
    if c.counts e quiet x y then
      if 3 ≤ c.quick + 1 then { g with y := some x, quick := 0 }
      else { g with y := some filtered, quick := c.quick + 1 }
    else { g with y := some filtered, quick := 0 }

/-- A sender's gauge cycle that is not held (R62). -/
def Channel.judge (c : Channel) (e : SenderEntry) (now : Nat) (quiet : Bool) : Channel :=
  let r := c.mean.getD 0
  if r < e.shortLimit ∨ e.openLimit < r then c.faultCycle e now
  else c.goodCycle e quiet (tableValue e.table r)

/-- The sender channels of a cycle: all of them are held where crank hold is set or was set before
(R61). -/
def judgeSenders (wasCrank : Bool) (s : State) : State :=
  let heldCycle := wasCrank || s.analog.crankHold
  let quiet := decide (s.pulse.motion = .standstill) && ignitionOn s
  setAnalog { s.analog with
    channels := Vector.ofFn fun c =>
      let ch := s.analog.channels[c]
      if h : c.val < 5 then
        if heldCycle then { ch with quick := 0 }
        else ch.judge (senderEntry s.image ⟨c.val, h⟩) s.time.now quiet
      else ch } s

/-- The analog part of a gauge cycle (R56 to R65). -/
def judgeAnalog (s : State) : State :=
  judgeSenders s.analog.crankHold (judgeSupply (closeGroups s))

/-- The expiry of a sender's hold timer (R62). -/
def holdExpiry (n : Fin 5) (s : State) : State :=
  let c := n.castSucc
  let ch := s.analog.channels[c]
  if expired ch.hold then
    setAnalog { s.analog with
      channels := s.analog.channels.set c.val { ch with status := .invalid, fault := true, hold := none } c.isLt } s
  else s

/-- A timer step counts the hold timers, but not during crank hold (R61). -/
def tickHolds (s : State) : State :=
  if s.analog.crankHold then s
  else setAnalog { s.analog with channels := Vector.ofFn fun c =>
    let ch := s.analog.channels[c]
    { ch with hold := ch.hold.map (Timer.tick s.time.now) } } s

/-! ## Hand-over (R37, R66) -/

/-- What is handed over for a gauge channel, numbered as in R179: an analog channel's shown value with its shown
status (R66), the displayed speed with the speed status, the engine speed (R37). -/
def handedNow (s : State) (c : Fin 8) : Handed :=
  if h : c.val < 6 then { value := shownValue s ⟨c.val, h⟩, status := .channel (shownStatus s ⟨c.val, h⟩) }
  else if c.val = 6 then { value := s.pulse.displayed, status := .speed s.pulse.status }
  else { value := s.pulse.rpm, status := .none }

/-- The values of a cycle are handed to the watch and to the warnings (R44, R92). -/
def handOver (s : State) : State :=
  let s1 := watchSupply (shownValue s 5) s
  judgeGauges { s1 with warn := { s1.warn with handed := Vector.ofFn fun c => some (handedNow s1 c) } }

/-- A gauge cycle of a running test is counted, unless the test started at its instant (R68). -/
def countSweep (s : State) : State :=
  match s.out.test with
  | some t => if t.startedAt = s.time.now then s else setTest (some { t with cycles := t.cycles + 1 }) s
  | none => s

/-! ## Adoption (R69) -/

/-- A sender whose entry changed: the state of a full restart but for its open group. -/
def Channel.adopted (c : Channel) : Channel :=
  { Channel.reset with sum := c.sum, count := c.count, late := c.late }

/-- The unit takes an adoption. -/
def adoptAnalog (before : Mem) (s : State) : State :=
  setAnalog { s.analog with
    channels := Vector.ofFn fun c =>
      let ch := s.analog.channels[c]
      if h : c.val < 5 then
        if senderEntry before ⟨c.val, h⟩ = senderEntry s.image ⟨c.val, h⟩ then ch else ch.adopted
      else ch } s

end Sys2Proof.Machine
end

