-- ==== Sys2Proof/Machine/Sense.lean ====
section
/-! DEFINITION. The Sense Line Unit: classes (R6, R7), debouncing (R8 to R10), the ignition change (R13)
and the delivery of a debounced change to its role (R14). -/

namespace Sys2Proof.Machine

/-- The raw class of a ratio (R6). -/
def rawClass (diagnosis : Bool) (ratio : Sample) : RawClass :=
  let r := ratio.toNat
  if diagnosis then
    (if r ≤ 63 then .short else if r ≤ 399 then .closed else if r ≤ 799 then .opened else .broken)
  else if r ≤ 511 then .closed else .opened

/-- The sample state of a class (R7). -/
def sampleState (openedActive : Bool) : RawClass → LineState
  | .closed => if openedActive then .inactive else .active
  | .opened => if openedActive then .active else .inactive
  | .short => .short
  | .broken => .broken

/-- The required count of a candidate (R8). -/
def requiredCount (n : Nat) (st : LineState) : Nat := if st.isFault then max n 20 else n

/-- The four steps of the debouncing (R8). -/
def Line.debounce (l : Line) (n : Nat) (st : LineState) : Line :=
  if st = l.debounced then { l with candidate := none, run := 0 }
  else
    let run := if l.candidate = some st then l.run + 1 else 1
    if requiredCount n st ≤ run then { l with debounced := st, candidate := none, run := 0 }
    else { l with candidate := some st, run := run }

/-- A line's sample: an UNUSED line is classified only, and a fault sample is set aside during crank
hold (R6, R9, R10). -/
def Line.sample (l : Line) (e : LineEntry) (crank : Bool) (ratio : Sample) : Line :=
  let cls := rawClass e.diagnosis ratio
  let st := sampleState e.openedActive cls
  let seen := { l with lastClass := some cls }
  if e.role = .unused ∨ (crank ∧ st.isFault) then seen else seen.debounce e.n st

/-- All 32 lines take their samples together (R6). -/
def sampleLines (ratios : Vector Sample 32) (s : State) : State :=
  { s with sense := { s.sense with
      lines := Vector.ofFn fun n =>
        s.sense.lines[n].sample (lineEntry s.image n) s.analog.crankHold ratios[n] } }

/-- An ignition change reaches its consumers (R13). The jobs of the saves and of the aging are enqueued ahead of those
of the occurrences and returns that the IGNITION_ON qualifiers give at the same event, since the warnings are judged
at its end; R13 and R14 give the consumers no order. DESIGN CHOICE, log entry 50. The Doorway Monitor takes the change
before the Output Unit: DESIGN CHOICE, log entry 52. -/
def ignitionChange (on : Bool) (s : State) : State :=
  let s1 := setNotice .ignition s
  if on then doorIgnition (ageRecords s1)
  else resetQuick (abortTest .ignitionOff (doorIgnition (saveTrigger s1)))

/-- What a change of the PARKING_BRAKE line does beside the motion proxy: the permit and a running output test
(R85, R119). The permit is judged before the test ends: DESIGN CHOICE, log entry 52. -/
def brakeConsumers (old : LineState) (s : State) : State :=
  let s1 := judgePermit s
  if old = .active then abortTest .parkingBrake s1 else s1

/-- A debounced change of the PARKING_BRAKE line (R31, R85, R119). -/
def brakeChange (old : LineState) (s : State) : State := brakeConsumers old (brakeProxy s)

/-- A debounced change is delivered to the consumers of a role (R14). -/
def deliverChange (role : Role) (old new : LineState) (s : State) : State :=
  match role with
  | .unused => s
  | .general => s
  | .ignition =>
    if (old = .active) = (new = .active) then s else ignitionChange (decide (new = .active)) s
  | .kneel => judgeKneel s
  | .ramp => judgeRamp s
  | .stopRequest => if old = .inactive ∧ new = .active then pressStop s else s
  | .parkingBrake => brakeChange old s
  | .ackButton => if old = .inactive ∧ new = .active then pressAck s else s
  | .switchClosed n => judgeDoorway n s
  | .openEnd n => judgeDoorway n s
  | .edge n => takeEdge n new s
  | .emergency n => judgeEmergency n s

/-- A line that changed since `before` is delivered to its role in the configuration in force. -/
def deliverLine (before : Vector Line 32) (s : State) (n : Fin 32) : State :=
  let old := before[n].debounced
  let new := lineState s n
  if old = new then s else deliverChange (lineEntry s.image n).role old new s

/-! ## The changes of an adoption (R11) -/

/-- A line's return to UNKNOWN at an adoption goes to the consumers of its old role, but to the motion proxy: an
adoption leaves the motion state, the standstill start time and an open record (R17, R36, R81, R88). DEDUCED,
log entry 37. -/
def deliverAdopted (role : Role) (old new : LineState) (s : State) : State :=
  if role = .parkingBrake then brakeConsumers old s else deliverChange role old new s

/-- A line that an adoption changed since `before` is delivered to its old role. -/
def adoptedLine (before : Vector Line 32) (s : State) (n : Fin 32) : State :=
  let old := before[n].debounced
  let new := lineState s n
  if old = new then s else deliverAdopted (lineEntry s.image n).role old new s

/-- The lines that an adoption changed are delivered to their old roles, all of them UNKNOWN already, in ascending line
number: R11 gives these deliveries no order, and it shows in the lamps where the return of PARKING_BRAKE ends a test
between two of them. DESIGN CHOICE, log entry 51. -/
def adoptedLines (before : Vector Line 32) (s : State) : State :=
  (List.finRange 32).foldl (adoptedLine before) s

/-! ## A sense sample -/

/-- One changed line's delivery, an event of its own (R14): the warnings are judged and the images rewritten at
the end of it. All 32 lines hold their new states already, so where several lines change at one sample, the
warnings of all of them are judged together, in ascending order of id and with one rewrite of the list, at the
event of the first changed line. DESIGN CHOICE, log entry 4. The consumer of the line's role takes the change before
the warnings that name the line, to which R14 gives no order: on the STOP_REQUEST line the beep is requested before
the warnings' bursts or their repeat (R108), and on the ACK_BUTTON line the press acknowledges before the warnings'
conditions change (R96, R103). DESIGN CHOICE, log entries 53 and 54. -/
def lineEvent (before : Vector Line 32) (s : State) (n : Fin 32) : State :=
  if before[n].debounced = lineState s n then s else finish s (deliverLine before s n)

/-- The 32 lines take their samples, the sense image follows (R16), and the changed lines are delivered one
after the other, in ascending order. That no line is delivered before all have taken their samples, so that
each delivery, and the judging of the warnings at its end, reads the new states of all of them, is the model's:
DESIGN CHOICE, log entry 4. -/
def takeLines (ratios : Vector Sample 32) (s : State) : State :=
  (List.finRange 32).foldl (lineEvent s.sense.lines) (publishSense s (sampleLines ratios s))

/-- The wire class of PULSE_V, whose changes of the source are events of their own (R28, R30, R32). -/
def wireEvent (wireOpen : Bool) (s : State) : State :=
  let s1 := sampleWire wireOpen s
  settle (sourceValid s.pulse != sourceValid s1.pulse) s s1

end Sys2Proof.Machine
end

