-- ==== Sys2Proof/Machine/Store.lean ====
section
/-! DEFINITION. The Retained Store: job starts (R142), pages (R143), job ends with what their owners do
(R46, R47, R52, R53, R144, R171). -/

namespace Sys2Proof.Machine

/-- Replaces the Retained Store's state. -/
def setStore (t : RetainedStore) (s : State) : State := { s with store := t }

/-! ## Capture -/

/-- The count that a ring slot's next write stores (R45). -/
def nextWriteCount (n : Nat) : Nat := min (n + 1) 65535

/-- The configuration write count of the next configuration job (R147). -/
def nextConfigCount (n : Nat) : Nat := if 65535 ≤ n then 1 else n + 1

/-- The record of a place as its page holds it: the FREE marker for a FREE or ERASING place (R131). -/
def Place.retained : Place → Option FaultRecord
  | .stored r => some r
  | .free => none
  | .erasing _ => none

/-- The content of an object as it stands (R142). -/
def capture (s : State) : Object → Captured
  | .ring => .ring s.dist.nextSlot
      { value := word40 (bcdOdometer s.dist.live)
        count := nextWriteCount s.dist.writeCounts[s.dist.nextSlot] }
  | .tripA => .tripA s.dist.tripA
  | .tripB => .tripB s.dist.tripB
  | .calibration => .calibration s.pulse.k
  | .configuration => .configuration s.image (nextConfigCount s.store.configCount)
  | .header => .header (recordCount s) s.faults.overflow
  | .place i => .place i s.faults.places[i].retained

/-- What the owner of an object changes as its job starts (R45, R147). -/
def atCapture (o : Object) (s : State) : State :=
  match o with
  | .ring => { s with dist := { s.dist with
      nextSlot := s.dist.nextSlot + 1
      writeCounts := s.dist.writeCounts.set s.dist.nextSlot.val
        (nextWriteCount s.dist.writeCounts[s.dist.nextSlot]) s.dist.nextSlot.isLt } }
  | .configuration => setStore { s.store with configCount := nextConfigCount s.store.configCount } s
  | _ => s

/-- A waiter learns that the job it waits on has started. -/
def Waiter.start (w : Waiter) : Waiter := { w with started := true }

/-- The owners match a job's start to their requests (R145). -/
def matchStart (o : Object) (s : State) : State :=
  let s1 := setClear (s.faults.clear.map (Clear.jobStarted o)) s
  match o with
  | .ring => { s1 with dist := { s1.dist with preset := s1.dist.preset.map Waiter.start } }
  | .calibration => { s1 with dist := { s1.dist with kfactor := s1.dist.kfactor.map Waiter.start } }
  | .configuration => { s1 with win := { s1.win with adoption := s1.win.adoption.map Waiter.start } }
  | _ => s1

/-! ## Check bytes (R140)

For each kind of object, the check byte computed over what its page holds: a free value of `Config`, log entry 7. -/

/-- Over a ring slot: the value's nibbles and the write count (R45). -/
def slotCheck (v : RingSlot) : Byte := Config.pageCheck 0 [v.value.toNat, v.count]

/-- Over a trip: the value and the run flag (R47). -/
def tripCheck (t : Trip) : Byte := Config.pageCheck 1 [t.value, bit t.running 0]

/-- Over the calibration: K. -/
def calibrationCheck (k : Nat) : Byte := Config.pageCheck 2 [k]

/-- Over a configuration page: its 32 bytes, and the configuration write count beside them. -/
def configCheck (c : ConfigPage) : Byte :=
  Config.pageCheck 3 ((c.bytes.bytes 0 32).map (·.toNat) ++ [c.count])

/-- Over the fault header: the record count and the overflow count. -/
def headerCheck (c : Nat × Nat) : Byte := Config.pageCheck 4 [c.1, c.2]

/-- Over a fault record page: its 32 bytes (R176). -/
def placeCheck (r : Option FaultRecord) : Byte := Config.pageCheck 5 ((recordPage r).map (·.toNat))

/-- The stored check byte of a page. -/
def Page.checkByte {α : Type} (check : α → Byte) (p : Page α) : Byte := check p.content ^^^ p.checkError

/-- The stored check byte matches the content exactly where the held difference is 0. -/
theorem Page.checkByte_matches {α : Type} (check : α → Byte) (p : Page α) :
    p.checkError = 0 ↔ p.checkByte check = check p.content := by
  unfold Page.checkByte
  generalize check p.content = c
  generalize p.checkError = e
  constructor
  · intro h; simp [h]
  · intro h
    have := congrArg (c ^^^ ·) h
    simpa [← BitVec.xor_assoc] using this

/-- A page passes its check when the stored check byte matches the stored content (R140). -/
def Page.good {α : Type} (check : α → Byte) (p : Page α) : Bool :=
  @decide (p.checkByte check = check p.content) (decidable_of_iff _ (p.checkByte_matches check))

/-- A page written: the content, with the check byte computed over it (R140). -/
def Page.written {α : Type} (content : α) : Page α := { content := content, checkError := 0 }

/-- A page that is being written, or whose write failed, fails its check (R144, R146). -/
def Page.spoiled {α : Type} (p : Page α) : Page α := { p with checkError := Config.failedCheck }

/-! ## Pages -/

/-- The 32 bytes of a page of an image. -/
def configBytes (img : Mem) (page : Nat) : Mem := img.slice (32 * page) 32

/-- The array with the page of a job spoiled. -/
def NvArray.spoil (a : NvArray) (c : Captured) (page : Nat) : NvArray :=
  match c with
  | .ring slot _ => { a with ring := a.ring.set slot.val a.ring[slot].spoiled slot.isLt }
  | .tripA _ => { a with tripA := a.tripA.spoiled }
  | .tripB _ => { a with tripB := a.tripB.spoiled }
  | .calibration _ => { a with calibration := a.calibration.spoiled }
  | .configuration _ _ =>
    if h : page < 64 then
      { a with configuration := a.configuration.set page a.configuration[page].spoiled h }
    else a
  | .header _ _ => { a with header := a.header.spoiled }
  | .place i _ => { a with places := a.places.set i.val a.places[i].spoiled i.isLt }

/-- The array with the page of a job written. -/
def NvArray.write (a : NvArray) (c : Captured) (page : Nat) : NvArray :=
  match c with
  | .ring slot v => { a with ring := a.ring.set slot.val (.written v) slot.isLt }
  | .tripA t => { a with tripA := .written t }
  | .tripB t => { a with tripB := .written t }
  | .calibration k => { a with calibration := .written k }
  | .configuration img n =>
    if h : page < 64 then
      { a with
        configuration := a.configuration.set page
          (.written { bytes := configBytes img page, count := n }) h }
    else a
  | .header r o => { a with header := .written (r, o) }
  | .place i r => { a with places := a.places.set i.val (.written r) i.isLt }

/-- The pages of an object (R140). -/
def Object.pages : Object → Nat
  | .configuration => 64
  | _ => 1

/-- A page is started (R143). -/
def beginPage (j : Job) (s : State) : State :=
  setStore { s.store with
    job := some { j with phase := .inFlight s.time.now }
    array := s.store.array.spoil j.content j.page } s

/-- A page that is due starts, or waits for the supply (R143). -/
def duePage (j : Job) (s : State) : State :=
  if supplyAllowsPage s then beginPage j s
  else setStore { s.store with job := some { j with phase := .waiting } } s

/-! ## Job starts (R142) -/

/-- The job that the engine chooses: the odometer ring's, else the oldest. -/
def chooseJob (q : List Object) : Option Object := if Object.ring ∈ q then some .ring else q.head?

/-- A job can start. -/
def jobStartable (s : State) : Bool :=
  s.store.job.isNone && !s.store.queue.isEmpty && supplyAllowsPage s

/-- The chosen job starts. -/
def startJob (o : Object) (s : State) : State :=
  let c := capture s o
  let s1 := matchStart o (atCapture o (setStore { s.store with queue := s.store.queue.erase o } s))
  beginPage { object := o, content := c, page := 0, retry := false, phase := .waiting } s1

/-- The engine starts a job where one can start. -/
def tryJob (s : State) : State :=
  if jobStartable s then
    match chooseJob s.store.queue with
    | some o => startJob o s
    | none => s
  else s

/-- A page waits and the supply allows it. -/
def pageStartable (s : State) : Bool :=
  match s.store.job with
  | some j => decide (j.phase = .waiting) && supplyAllowsPage s
  | none => false

/-- A waiting page starts (R143). -/
def tryPage (s : State) : State :=
  match s.store.job with
  | some j => if j.phase = .waiting ∧ supplyAllowsPage s then beginPage j s else s
  | none => s

/-! ## Job ends (R144) -/

/-- The marks after a job of an object ended. -/
def marksAfter (o : Object) (success : Bool) (marks : List Object) : List Object :=
  if success then marks.filter (fun m => decide (m ≠ o))
  else if o ∈ marks then marks else marks ++ [o]

/-- The mark is set or cleared, and STORE is set on a failure and on a change of STORE_FAULT. -/
def markEnd (o : Object) (success : Bool) (s : State) : State :=
  let s1 := setStore { s.store with job := none, notRetained := marksAfter o success s.store.notRetained } s
  if !success ∨ storeFault s ≠ storeFault s1 then setNotice .store s1 else s1

/-- A request that waited on the job completes (R145). -/
def finishWaiter (k : Operation) (w : Option Waiter) (success : Bool) (clear : State → State) (s : State) :
    State :=
  match w with
  | some w => if w.started then deliver k w.side (savedResult success) 0 [] (clear s) else s
  | none => s

/-- The preset waits no more. -/
def clearPreset (s : State) : State := { s with dist := { s.dist with preset := none } }

/-- The k-factor waits no more. -/
def clearKFactor (s : State) : State := { s with dist := { s.dist with kfactor := none } }

/-- The adoption waits no more. -/
def clearAdoption (s : State) : State := { s with win := { s.win with adoption := none } }

/-- The retained odometer value after a ring job succeeded (R46). -/
def retainRing (c : Captured) (s : State) : State :=
  match c with
  | .ring _ v =>
    { s with dist := { s.dist with retained := (bcdValue v.value).getD s.dist.retained } }
  | _ => s

/-- The owner of an object takes its job's outcome (R144). -/
def ownerEnd (j : Job) (success : Bool) (s : State) : State :=
  match j.object with
  | .ring =>
    let s1 := if success then retainRing j.content s else s
    finishWaiter .preset s1.dist.preset success clearPreset s1
  | .calibration => finishWaiter .kfactor s.dist.kfactor success clearKFactor s
  | .configuration => finishWaiter .adopt s.win.adoption success clearAdoption s
  | .tripA => s
  | .tripB => s
  | .header => clearJobEnd .header success s
  | .place i => clearJobEnd (.place i) success s

/-- A job ends. -/
def endJob (j : Job) (success : Bool) (s : State) : State :=
  ownerEnd j success (markEnd j.object success s)

/-- A page write completes and is verified (R143). -/
def completePage (j : Job) (verified : Bool) (s : State) : State :=
  if verified then
    let s1 := setStore { s.store with array := s.store.array.write j.content j.page } s
    if j.object.pages ≤ j.page + 1 then endJob j true s1
    else duePage { j with page := j.page + 1, retry := false } s1
  else if j.retry then endJob j false s
  else duePage { j with retry := true } s

end Sys2Proof.Machine
end

