-- ==== Sys2Proof/Machine/Adoption.lean ====
section
/-! DEFINITION. The adoption of a configuration (R171) and the full restart with its recovery (R48 to
R50, R139, R146, R147, R175). -/

namespace Sys2Proof.Machine

/-! ## Adoption -/

/-- The staging area as an image (R164, R179). -/
def stagingImage (s : State) : Mem := s.win.ram.slice 0x0400 imageSize

/-- The checks of an adoption in order, with the detail byte (R171): none is a pass. -/
def adoptCheck (s : State) : Option (Result × Byte) :=
  if !holdsClaim s .window .config then some (.notClaimed, 0)
  else if !ignitionOn s ∨ s.pulse.motion ≠ .standstill ∨
      !((lineOfRole s.image .parkingBrake).isNone || roleActive s .parkingBrake) then
    some (.wrongState, 0)
  else if s.win.adoption.isSome then some (.busy, 0)
  else
    match firstFailing (stagingImage s) with
    | some i => some (.configRejected, byte i)
    | none => none

/-- A line under a changed entry (R11). -/
def Line.adopted (l : Line) (ignition : Bool) : Line :=
  { l with debounced := if ignition then l.debounced else .unknown, candidate := none, run := 0 }

/-- The lines take the new entries (R11). -/
def adoptLines (image : Mem) (s : State) : State :=
  { s with sense := { s.sense with
      lines := Vector.ofFn fun n =>
        if lineEntry s.image n = lineEntry image n then s.sense.lines[n]
        else s.sense.lines[n].adopted (decide (n = 0)) } }

/-- The image comes into force (R171). -/
def installImage (image : Mem) (s : State) : State :=
  { s with image := image, win := { s.win with source := .adopted } }

/-- The Warning Unit takes an adoption, last of all blocks (R109). -/
def adoptWarnings (before : Mem) (s : State) : State :=
  judgeAll (judgeGauges (clearWarnings before s))

/-- Every block takes the new image, in the order of R171: the changed lines go to the consumers of
their old roles before the image comes into force (R11). The motion state, the standstill start time, the journal
and an open record stay (R17, R36, R81, R88; log entry 37). -/
def adoptImage (image : Mem) (s : State) : State :=
  adoptWarnings s.image (adoptAnalog s.image (adoptDoors s.image
    (installImage image (adoptedLines s.sense.lines (adoptLines image s)))))

/-- An adoption that passed its checks (R171). The configuration job is enqueued after every block has taken the
adoption, so after the place and header jobs of the returns and onsets that the Warning Unit hands over (R109); R141
and R171 give these jobs no order. DESIGN CHOICE, log entry 49. -/
def takeAdoption (s : State) : State :=
  let s1 := adoptImage (stagingImage s) s
  enqueue .configuration
    { s1 with win := { s1.win with adoption := some { side := .window, started := false } } }

/-! ## Full restart -/

/-- The odometer value of a ring slot's page, where the slot is valid (R48). -/
def ringValue (p : Page RingSlot) : Option Nat :=
  if p.good slotCheck then bcdValue p.content.value else none

/-- The slot to recover from, with its value: the greatest, the highest index among equals (R48). -/
def chosenSlot (ring : Vector (Page RingSlot) 8) : Option (Fin 8 × Nat) :=
  (List.finRange 8).foldl (fun best i =>
    match ringValue ring[i] with
    | none => best
    | some v =>
      match best with
      | none => some (i, v)
      | some b => if b.2 ≤ v then some (i, v) else best) none

/-- The write count a slot recovers: 0 where its page fails its check (R48). A page that passes its check with a
value that is not valid BCD gives its stored count; R48 and R147 name only valid slots and slots that fail their
check. DESIGN CHOICE, log entry 38. -/
def slotCount (p : Page RingSlot) : Nat := if p.good slotCheck then p.content.count else 0

/-- The write counts recovered; all 0 where no slot is valid (R48, R49). -/
def slotCounts (ring : Vector (Page RingSlot) 8) : Vector Nat 8 :=
  match chosenSlot ring with
  | some _ => Vector.ofFn fun i => slotCount ring[i]
  | none => Vector.replicate 8 0

/-- A recovered trip (R50). -/
def recoverTrip (p : Page Trip) : Trip :=
  if p.good tripCheck then p.content else { value := 0, running := false }

/-- The Distance Counter after recovery (R39, R48 to R50). -/
def recoverDistance (a : NvArray) : Distance :=
  let chosen := chosenSlot a.ring
  let v := match chosen with
    | some c => c.2
    | none => 0
  { live := v, lost := chosen.isNone, retained := v, ticks := 0
    nextSlot := match chosen with
      | some c => c.1 + 1
      | none => 0
    writeCounts := slotCounts a.ring
    tripA := recoverTrip a.tripA, tripB := recoverTrip a.tripB, watch := .armed, preset := none
    kfactor := none }

/-- The image that the configuration pages hold, joined. -/
def joinPages (pages : Vector (Page ConfigPage) 64) : Mem :=
  ((List.finRange 64).map (fun i =>
    pages[i].content.bytes.map (fun c => (32 * i.val + c.1, c.2)))).flatten

/-- The stored image, where all pages pass their check with one write count and the image is valid
(R147). -/
def storedImage (pages : Vector (Page ConfigPage) 64) : Option Mem :=
  if pages.toList.all (fun p => p.good configCheck && decide (p.content.count = pages[0].content.count)) then
    let img := joinPages pages
    if (firstFailing img).isNone then some img else none
  else none

/-- The count of the lowest-numbered page that passes its check, or 0 (R147). -/
def foundConfigCount (pages : Vector (Page ConfigPage) 64) : Nat :=
  match pages.toList.find? (·.good configCheck) with
  | some p => p.content.count
  | none => 0

/-- The record a place's page gives (R139). -/
def pageRecord (p : Page (Option FaultRecord)) : Option FaultRecord :=
  if p.good placeCheck then p.content else none

/-- The record of place `i` gives way to that of place `j`: same code, and `j` has the greater last
odometer, or an equal one and the lower index (R139). -/
def yields (a : NvArray) (i : Fin 40) (r : FaultRecord) (j : Fin 40) : Bool :=
  match pageRecord a.places[j] with
  | none => false
  | some q => decide (j ≠ i) && decide (q.code = r.code) &&
      (decide (r.lastOdometer < q.lastOdometer) ||
        (decide (r.lastOdometer = q.lastOdometer) && decide (j < i)))

/-- A recovered place (R139). -/
def recoverPlace (a : NvArray) (i : Fin 40) : Place :=
  match pageRecord a.places[i] with
  | none => .free
  | some r => if (List.finRange 40).any (yields a i r) then .free else .stored { r with active := false }

/-- The Fault Memory after recovery (R139). -/
def recoverFaults (a : NvArray) : FaultMemory :=
  { places := Vector.ofFn (recoverPlace a)
    overflow := if a.header.good headerCheck then a.header.content.2 else 0
    clear := none
    viewEvents := 0 }

/-- The marks that recovery sets (R147). -/
def recoveryMarks (a : NvArray) : List Object :=
  (if (chosenSlot a.ring).isNone then [.ring] else []) ++ (if a.tripA.good tripCheck then [] else [.tripA]) ++
  (if a.tripB.good tripCheck then [] else [.tripB]) ++
  (if a.calibration.good calibrationCheck then [] else [.calibration]) ++
  (if (storedImage a.configuration).isNone then [.configuration] else [])

/-- The machine after recovery, before the warnings are judged (R147, R175): every block at its value
after a full restart, window RAM zeroed. -/
def recovered (a : NvArray) (pending : List Instr) : State :=
  let stored := storedImage a.configuration
  let r := State.reset
  { r with
    pulse := { r.pulse with
      k := if a.calibration.good calibrationCheck then a.calibration.content else 0
      calValid := a.calibration.good calibrationCheck }
    dist := recoverDistance a
    warn := { warnings := Vector.replicate 48 Warning.reset, nextNumber := 1, list := []
              handed := Vector.replicate 8 none }
    out := { r.out with
      arbiter := { level := false, repeatTimer := none, current := none, pending := none } }
    faults := recoverFaults a
    store := { array := a, queue := [], job := none, notRetained := recoveryMarks a
               configCount := foundConfigCount a.configuration }
    win := { r.win with
      ram := [], notice := 0, source := if stored.isSome then .stored else .defaults }
    image := stored.getD defaultImage
    pending := pending }

/-- The array as a full restart finds it: a page in flight fails its check already (R146). -/
def restart (s : State) : State :=
  let s0 := recovered s.store.array s.pending
  let s1 := publishWarnings false s0 (judgeAll s0)
  let s2 := publishFaults true s0 s1
  if storeFault s2 then setNotice .store s2 else s2

end Sys2Proof.Machine
end

