-- ==== Sys2Proof/Machine/Link.lean ====
section
/-! DEFINITION. The Workshop Link's line: marks and characters (R150, R151), holds (R152), request frames
(R153), fetch frames (R156) and the session (R157). One clock is a rising edge of WCK with the falling
edge that follows it. -/

namespace Sys2Proof.Machine

/-- Replaces the link's state. -/
def setLink (l : WorkshopLink) (s : State) : State := { s with link := l }

/-! ## Marks (R150, R151) -/

/-- The link after a mark open: a new frame, nothing of the old one. -/
def WorkshopLink.opened (l : WorkshopLink) : WorkshopLink :=
  { l with inFrame := true, counter := 0, shift := [], kind := .none, progress := [], answer := false
           out := .undecided, holdNext := false }

/-- The link after a mark close: IDLE. -/
def WorkshopLink.closed (l : WorkshopLink) : WorkshopLink :=
  { l with inFrame := false, counter := 0, shift := [], kind := .none, progress := [], answer := false
           out := .undecided, holdNext := false }

/-- A mark open; no mark can be made while WCK is held (R152). -/
def markOpen (s : State) : State := if s.link.hold.isSome then s else setLink s.link.opened s

/-- A mark close; no mark can be made while WCK is held (R152). -/
def takeMarkClose (s : State) : State := if s.link.hold.isSome then s else setLink s.link.closed s

/-! ## Characters received -/

/-- A byte of eight bits, the most significant first. -/
def byteOfBits (bits : List Bool) : Byte :=
  BitVec.ofNat 8 (bits.foldl (fun acc b => 2 * acc + b.toNat) 0)

/-- The eight bits of a byte, the most significant first. -/
def bitsOfByte (b : Byte) : List Bool := (List.range 8).map (fun i => b.getLsbD (7 - i))

/-- The session's 5 s timer, started at this event. -/
def sessionTimer (s : State) : Option Timer := some (newTimer s.time.now 5000)

/-- The check character of a request matches: the request is accepted (R153). -/
def acceptRequest (head : Byte) (payload : List Byte) (s : State) : State :=
  let l := s.link
  let tag := head.setWidth 7
  setLink { l with
    request := some { tag := tag, payload := payload, acceptedAt := s.time.now }
    reply := .waiting tag none
    sessionTimer := if l.session then sessionTimer s else l.sessionTimer
    answer := false
    holdNext := true } s

/-- A frame that is refused: this and every further character is answered high (R153). -/
def refuseFrame (l : WorkshopLink) : WorkshopLink := { l with kind := .ignored, answer := true }

/-- A head character (R153, R156). -/
def takeHead (b : Byte) (s : State) : State :=
  let l := s.link
  if b.msb then
    setLink { l with
      kind := .fetch, answer := false, progress := [b], holdNext := l.reply.isWaiting
      out := if l.reply.isWaiting then .undecided else fetchOf l.reply } s
  else if l.request.isSome then setLink (refuseFrame l) s
  else setLink { l with kind := .request, answer := false, progress := [b] } s

/-- A further character of a request frame (R153). -/
def takeRequestChar (b : Byte) (s : State) : State :=
  let l := s.link
  let kept := { l with progress := l.progress ++ [b], answer := false }
  match l.progress with
  | [] => s
  | [_] => if b = 0 ∨ 48 < b.toNat then setLink (refuseFrame l) s else setLink kept s
  | head :: length :: payload =>
    if payload.length < length.toNat then setLink kept s
    else if payload.length = length.toNat then
      if b = xorAll l.progress then acceptRequest head payload (setLink kept s)
      else setLink (refuseFrame l) s
    else setLink { l with answer := true } s

/-- A character is complete at count 8 (R151). -/
def takeChar (b : Byte) (s : State) : State :=
  match s.link.kind with
  | .none => takeHead b s
  | .request => takeRequestChar b s
  | .ignored => setLink { s.link with answer := true } s
  | .fetch => s

/-! ## The answer bit and the holds -/

/-- What a fetch does at the tester's answer bit: true is high, end (R156). -/
def FetchOut.answered (o : FetchOut) (refuse : Bool) : FetchOut :=
  match o with
  | .sending ready chars pos =>
    if refuse ∨ chars.length ≤ pos + 1 then .ended else .sending ready chars (pos + 1)
  | .undecided => .undecided
  | .ended => .ended

/-- The check of a READY reply is answered low (R156). -/
def FetchOut.delivers (o : FetchOut) (refuse : Bool) : Bool :=
  match o with
  | .sending ready chars pos => ready && !refuse && decide (chars.length = pos + 1)
  | .undecided => false
  | .ended => false

/-- A READY reply becomes DELIVERED (R155). -/
def Reply.deliver : Reply → Reply
  | .ready tag payload => .delivered tag payload
  | r => r

/-- The falling edge that ends count 9 begins a hold: while an accepted request waits to be taken, or
after a fetch head while the reply is WAITING (R152). -/
def holdAfter (s : State) : State :=
  let l := s.link
  if l.holdNext then
    let l1 := { l with holdNext := false }
    if l.kind = .fetch then
      if l.reply.isWaiting then setLink { l1 with hold := some (newTimer s.time.now 20) } s
      else setLink { l1 with out := fetchOf l.reply } s
    else if l.request.isSome then setLink { l1 with hold := some (newTimer s.time.now 20) } s
    else setLink l1 s
  else s

/-- Count 9: the tester answers a character the part has sent, or reads the part's answer. The answer
after the head of a fetch is the part's. -/
def takeAnswer (refuse : Bool) (s : State) : State :=
  let l := s.link
  if l.kind = .fetch ∧ l.shift.isEmpty then
    setLink { l with
      reply := if l.out.delivers refuse then l.reply.deliver else l.reply
      out := l.out.answered refuse } s
  else holdAfter (setLink { l with shift := [] } s)

/-! ## Clocks -/

/-- The part is the receiving side of the character in transfer. -/
def receiving (l : WorkshopLink) : Bool := decide (l.kind ≠ .fetch)

/-- One clock with the level of WDA that the tester gives (R150). While WCK is held and while the line is
IDLE it changes nothing. -/
def clock (level : Bool) (s : State) : State :=
  let l := s.link
  if l.hold.isSome ∨ !l.inFrame then s
  else
    let count := if l.counter = 9 then 1 else l.counter + 1
    if count = 9 then takeAnswer level (setLink { l with counter := 9 } s)
    else if receiving l then
      let shift := l.shift ++ [level]
      let s1 := setLink { l with counter := count, shift := shift } s
      if count = 8 then takeChar (byteOfBits shift) s1 else s1
    else setLink { l with counter := count } s

/-- Several clocks. -/
def clocks (levels : List Bool) (s : State) : State := levels.foldl (fun s b => clock b s) s

/-- The nine clocks of a character that the tester sends; it releases WDA for the answer. -/
def sentChar (b : Byte) : List Bool := bitsOfByte b ++ [true]

/-- The nine clocks of a character that the part sends, with the tester's answer. -/
def readChar (answer : Bool) : List Bool := List.replicate 8 true ++ [answer]

/-- The byte on WDA while the part sends: 0xFF once the fetch has ended (R156). -/
def linkOut (l : WorkshopLink) : Byte :=
  match l.out with
  | .sending _ chars pos => chars.getD pos 0xFF
  | .undecided => 0xFF
  | .ended => 0xFF

/-- A request frame, or the characters and bits of one that go on (R153). -/
def requestClocks (opens : Bool) (chars : List Byte) (bits : List Bool) (s : State) : State :=
  clocks ((chars.map sentChar).flatten ++ bits) (if opens then markOpen s else s)

/-- A fetch frame, or the characters of one that go on (R156). -/
def fetchClocks (head : Option (BitVec 7)) (answers : List Bool) (n : Nat) (s : State) : State :=
  let s1 := match head with
    | some h => clocks (sentChar (h.setWidth 8 ||| 0x80)) (markOpen s)
    | none => s
  clocks ((answers.map readChar).flatten ++ List.replicate n true) s1

/-- The expiry of the hold timer (R152). -/
def holdTimerEnd (s : State) : State :=
  if expired s.link.hold then setLink (releaseHold s.link) s else s

/-! ## The session (R157) -/

/-- The reply buffer at a close. -/
def Reply.atClose : Reply → Reply
  | .empty => .empty
  | .delivered _ _ => .empty
  | .waiting tag _ => .discarded tag
  | .ready tag _ => .discarded tag
  | .discarded tag => .discarded tag

/-- The session closes: the buffers first, so that an aborted test finds no reply to fill (R120). A fetch that the
part holds has its status decided here, from the emptied buffer: DISCARDED (R156), also where CLOSE_SESSION makes
the reply READY at the same event (R157). DEDUCED, log entry 45. -/
def closeLink (s : State) : State :=
  let s1 := setReply s.link.reply.atClose s
  let s2 := setLink { s1.link with request := none, session := false, sessionTimer := none } s1
  setNotice .workshop (abortTestOf .workshop .sideGone (loseClaims .workshop s2))

/-- The session opens, or its timer restarts. -/
def openLink (s : State) : State :=
  let s1 := setLink { s.link with session := true, sessionTimer := sessionTimer s } s
  if s.link.session then s1 else setNotice .workshop s1

/-- The expiry of the session timer. -/
def sessionTimerEnd (s : State) : State := if expired s.link.sessionTimer then closeLink s else s

/-- The link's timers advance at a timer step. -/
def tickLink (s : State) : State :=
  setLink { s.link with
    hold := s.link.hold.map (Timer.tick s.time.now)
    sessionTimer := s.link.sessionTimer.map (Timer.tick s.time.now) } s

end Sys2Proof.Machine
end

