-- ==== Sys2Proof/Machine/Services.lean ====
section
/-! DEFINITION. Takes: of a slot by the request engine (R169), of a request by the link's service engine
(R154), the data of the reading services (R159), and the operations that either side may ask for. -/

namespace Sys2Proof.Machine

/-- How an operation leaves its take: it is done, with a result, or stays in flight. -/
inductive Took where
  | done (result : Result) (detail : Byte) (s : State)
  | inFlight (s : State)
  deriving DecidableEq, Repr

/-! ## Slot takes (R169) -/

/-- A slot is due at a step. -/
def slotDue (s : State) (step : Nat) (n : Fin 8) : Bool :=
  decide (s.win.slots[n] = .posted) &&
    (match s.win.attention[n] with
     | some t => decide (t < step)
     | none => false)

/-- The lowest-numbered slot that is due at a step. -/
def dueSlot (s : State) (step : Nat) : Option (Fin 8) := (List.finRange 8).find? (slotDue s step)

/-- The next take of the request engine: its instant and its slot. -/
def nextTake (s : State) : Option (Nat × Fin 8) :=
  let t := nextInstant Config.stepPeriod s.win.lastTake s.time.now
  match dueSlot s t with
  | some n => some (t, n)
  | none =>
    match dueSlot s (t + Config.stepPeriod) with
    | some n => some (t + Config.stepPeriod, n)
    | none => none

/-- The slot becomes TAKEN, at the instant of the take (R169, R177). -/
def beginTake (t : Nat) (n : Fin 8) (s : State) : State :=
  let s1 := setNow t s
  let s2 := { s1 with win := { s1.win with lastTake := t } }
  setSlotResult n 0xFF 0 (setSlotState n .taken (setAttention n none s2))

/-- The request engine's next take, where its slot is of a kind that `mine` names; `body` serves it. -/
def slotTake (mine : Byte → Bool) (body : Fin 8 → State → State) (s : State) : State :=
  match nextTake s with
  | none => s
  | some (t, n) => if mine (slotByte s n 1) then body n (beginTake t n s) else s

/-- The slot of an operation: DONE at once, or in flight (R169). -/
def serveSlot (k : Operation) (n : Fin 8) : Took → State
  | .done r d s => finishSlot n r d s
  | .inFlight s => setWindowOp k (.slot n) s

/-! ## Link takes (R154) -/

/-- The first timer step strictly after an acceptance. -/
def firstStep (acceptedAt : Nat) : Nat := (acceptedAt / Config.stepPeriod + 1) * Config.stepPeriod

/-- The instant of a take: the first timer step after the acceptance that is not past. -/
def linkTakeInstant (acceptedAt now : Nat) : Nat :=
  if now ≤ acceptedAt then firstStep acceptedAt
  else if now % Config.stepPeriod = 0 then now else (now / Config.stepPeriod + 1) * Config.stepPeriod

/-- The request leaves the buffer at its take, and the hold after its acceptance ends (R152, R154). -/
def beginService (r : Request) (s : State) : State :=
  let s1 := setNow (linkTakeInstant r.acceptedAt s.time.now) s
  let l : WorkshopLink := { s1.link with request := none }
  setLink (if l.kind = .fetch then l else { l with hold := none }) s1

/-- The payload length that a service takes (R178). -/
def serviceLength (code : Byte) : Nat :=
  if code = 8 ∨ code = 10 ∨ code = 13 ∨ code = 14 ∨ code = 15 then 2
  else if code = 16 ∨ code = 18 ∨ code = 19 then 3
  else if code = 17 then 6
  else 1

/-- The service code names a service (R178). -/
def serviceKnown (code : Byte) : Bool := decide (1 ≤ code.toNat) && decide (code.toNat ≤ 20)

/-- The reply becomes READY with a result and data (R159). -/
def answer (r : Request) (result : Result) (data : List Byte) (s : State) : State :=
  setReply (.ready r.tag ([param r.payload 0, result.code] ++ data)) s

/-- A known service is checked and served (R154). -/
def serve (r : Request) (body : Request → State → State) (s : State) : State :=
  let code := param r.payload 0
  if !s.link.session ∧ code ≠ 1 ∧ code ≠ 4 then answer r .noSession [] s
  else if r.payload.length ≠ serviceLength code then answer r .badParameter [] s
  else body r s

/-- The service engine's take, where the buffered request names this service; `body` serves it. -/
def linkTake (code : Byte) (body : Request → State → State) (s : State) : State :=
  match s.link.request with
  | some r => if param r.payload 0 = code then serve r body (beginService r s) else s
  | none => s

/-- A request that names no service (R154). -/
def linkTakeUnknown (s : State) : State :=
  match s.link.request with
  | some r =>
    if serviceKnown (param r.payload 0) then s else answer r .unknownKind [] (beginService r s)
  | none => s

/-- A reading service: OK with data, or the result of a refusal (R159). -/
def answerRead (read : State → Result ⊕ List Byte) (r : Request) (s : State) : State :=
  match read s with
  | .inl e => answer r e [] s
  | .inr data => answer r .ok data s

/-- The reply of an operation: READY at once, or WAITING for it (R155, R161). -/
def serveLink (k : Operation) (r : Request) : Took → State
  | .done result _ s => answer r result [] s
  | .inFlight s => setReply (.waiting r.tag (some k)) s

/-! ## Data of the reading services (R178) -/

/-- READ_IDENT. -/
def identData (s : State) : List Byte :=
  be16 Config.familyCode ++ [byte Config.revision, byte (bit s.link.session 0), byte s.win.source.code]

/-- The sender fault flag of a channel. R70 and R178 list the byte for each of the six channels, while R55 and R63
give SUPPLY no such flag: the byte of SUPPLY is sent as 0. DESIGN CHOICE, log entry 43. -/
def channelFault (s : State) (c : Fin 6) : Bool := decide (c.val < 5) && s.analog.channels[c].fault

/-- One channel of READ_CHANNELS (R70). -/
def channelData (s : State) (c : Fin 6) : List Byte :=
  be16 (s.analog.channels[c].mean.getD 0xFFFF) ++ beInt16 (shownValue s c) ++
    [byte (shownStatus s c).code, byte (bit (channelFault s c) 0)]

/-- READ_CHANNELS. -/
def channelsData (s : State) : List Byte :=
  ((List.finRange 6).map (channelData s)).flatten ++
  [byte (bit s.analog.crankHold 0 + bit s.analog.supplyLow 1)] ++
  be16 s.pulse.raw ++ be16 s.pulse.displayed ++
  [byte s.pulse.status.code, byte (bit s.pulse.wireBroken 0 + bit (!s.pulse.calValid) 1),
   byte s.pulse.motion.code] ++
  be16 s.pulse.rpm ++ [byte (bit s.pulse.running 0)]

/-- READ_SENSE. -/
def senseData (s : State) : List Byte := s.win.ram.bytes 0x1041 49

/-- READ_DOORS. -/
def doorsData (s : State) : List Byte :=
  reverseFields [1, 1, 1, 1, 1, 1, 4, 2] (s.win.ram.bytes 0x1081 12)

/-- An entry of READ_WARNINGS. -/
def entryData (s : State) (w : Fin 48) : List Byte :=
  let x := s.warn.warnings[w]
  [byte w.val, byte (warningDef s.image w).cls.code, byte x.state.code] ++ be32 (x.number.getD 0) ++
    be16 (onsetSeconds x)

/-- READ_WARNINGS (R160). -/
def warningsData (index : Nat) (s : State) : Result ⊕ List Byte :=
  let count := s.warn.list.length
  if index < count ∨ (index = 0 ∧ count = 0) then
    .inr ([byte count] ++ be32 s.warn.nextNumber ++ [byte index] ++
      (((s.warn.list.drop index).take 20).map (entryData s)).flatten)
  else .inl .badParameter

/-- READ_FAULT_SUMMARY. -/
def summaryData (s : State) : List Byte :=
  [byte (recordCount s), byte s.faults.overflow, byte (bit s.faults.clear.isSome 0)] ++
    (s.faults.places.toList.map (fun p => (placeBytes p).take 2)).flatten

/-- The fields of a place, by width: the 18 BCD digits are single bytes (R162). -/
def placeFields : List Nat := List.replicate 14 1 ++ [2, 2, 2, 2, 3]

/-- READ_FAULT (R138). -/
def faultData (index : Nat) (s : State) : Result ⊕ List Byte :=
  if h : index < 40 then
    .inr (byte index :: reverseFields placeFields (placeBytes s.faults.places[index]))
  else .inl .badParameter

/-- A trip of READ_ODOMETER. -/
def tripData (t : Trip) : List Byte := bcdTrip t.value ++ [byte (bit t.running 0)]

/-- READ_ODOMETER (R54). -/
def odometerData (s : State) : List Byte :=
  bcdOdometer s.dist.live ++ bcdOdometer s.dist.retained ++
  [byte (bit s.dist.lost 0), byte (bit (decide (Object.ring ∈ s.store.notRetained)) 0)] ++
  tripData s.dist.tripA ++ tripData s.dist.tripB ++ [byte s.dist.ticks, byte s.dist.nextSlot.val] ++
  (s.dist.writeCounts.toList.map be16).flatten

/-- READ_K_FACTOR (R38). -/
def kFactorData (s : State) : List Byte :=
  be16 (if s.pulse.calValid then s.pulse.k else 0) ++ [byte (bit s.pulse.calValid 0)]

/-- The fields of a stop record, by width. -/
def recordFields : List Nat := [4, 4, 4, 1, 1, 1, 1, 1, 2, 1, 1, 1]

/-- READ_STOP_JOURNAL (R87). -/
def journalData (index : Nat) (s : State) : Result ⊕ List Byte :=
  match s.door.journal[index]? with
  | some r => .inr ([byte s.door.journal.length, byte index] ++ reverseFields recordFields (recordBytes r))
  | none => .inl .badParameter

/-! ## Claims on the link (R158) -/

/-- TAKE_CLAIM. -/
def takeClaimService (r : Request) (s : State) : State :=
  match claimOfNumber (param r.payload 1).toNat with
  | none => answer r .badParameter [] s
  | some k =>
    match s.win.claims.holder k with
    | .free => answer r .ok [2] (setNotice .claimChanged (setClaim k .workshop s))
    | .workshop => answer r .ok [2] s
    | .window => answer r .busy [1] s

/-- A claim released by its holder: OUTPUTS ends that side's test (R119). -/
def releaseClaim (side : Side) (k : Claim) (s : State) : State :=
  let s1 := setClaim k .free s
  if k = .outputs then abortTestOf side .claimReleased s1 else s1

/-- GIVE_CLAIM. -/
def giveClaimService (r : Request) (s : State) : State :=
  match claimOfNumber (param r.payload 1).toNat with
  | none => answer r .badParameter [] s
  | some k =>
    match s.win.claims.holder k with
    | .workshop => answer r .ok [0] (setNotice .claimChanged (releaseClaim .workshop k s))
    | h => answer r .notClaimed [h.code] s

/-! ## Operations of either side -/

/-- CLEAR_FAULTS (R133, R134, R136). -/
def clearOperation (side : Side) (selector code : Byte) (s : State) : Took :=
  match clearScope selector code with
  | none => .done .badParameter 0 s
  | some scope =>
    if !holdsClaim s side .faults then .done .notClaimed 0 s
    else if s.faults.clear.isSome then .done .busy 0 s
    else if clearEmpty scope s then .done .ok 0 (takeEmptyClear scope s)
    else .inFlight (takeClear side scope s)

/-- PRESET_ODOMETER (R51, R52). -/
def presetOperation (side : Side) (value : List Byte) (s : State) : Took :=
  match presetCheck side (word40 value) s with
  | .inr r => .done r 0 s
  | .inl v => .inFlight (takePreset side v s)

/-- SET_K_FACTOR and WRITE_K_FACTOR (R53). -/
def kFactorOperation (side : Side) (k : Nat) (s : State) : Took :=
  match kFactorCheck side k s with
  | some r => .done r 0 s
  | none => .inFlight (takeKFactor side k s)

/-- The vehicle conditions of an output test (R117). -/
def testConditions (s : State) : Bool :=
  ignitionOn s && decide (s.pulse.motion = .standstill) && roleActive s .parkingBrake && !stopUnack s

/-- OUTPUT_TEST (R117, R118). -/
def testOperation (side : Side) (pattern seconds : Byte) (s : State) : Took :=
  match patternOfCode pattern with
  | none => .done .badParameter 0 s
  | some p =>
    if !within 1 60 seconds.toNat then .done .badParameter 0 s
    else if !holdsClaim s side .outputs then .done .notClaimed 0 s
    else if !testConditions s then .done .wrongState 0 s
    else if s.out.test.isSome then .done .busy 0 s
    else .inFlight (startTest side p seconds.toNat s)

/-- OUTPUT_TEST_STOP (R121). -/
def stopOperation (side : Side) (s : State) : Took :=
  if !holdsClaim s side .outputs then .done .notClaimed 0 s
  else if s.out.test.isNone then .done .wrongState 0 s
  else .done .ok 0 (abortTest .stopped s)

/-! ## Requests of the window alone -/

/-- The mask of ACK_WARNINGS names a warning. -/
def maskNames (mask : List Byte) (w : Fin 48) : Bool := (param mask (w.val / 8)).getLsbD (w.val % 8)

/-- ACK_WARNINGS (R104). The acknowledgements are made in ascending order of warning id; R104 gives none.
DESIGN CHOICE, log entry 40. -/
def ackOperation (selector : Byte) (mask : List Byte) (s : State) : Took :=
  if selector = 0 then .done .ok 0 (((List.finRange 48).filter (maskNames mask)).foldl acknowledge s)
  else if selector = 1 then .done .ok 0 ((List.finRange 48).foldl acknowledge s)
  else .done .badParameter 0 s

/-- TRIP_CONTROL (R42). -/
def tripOperation (a b : Byte) (s : State) : Took :=
  match tripActionOfCode a, tripActionOfCode b with
  | some x, some y => .done .ok 0 (takeTrips x y s)
  | _, _ => .done .badParameter 0 s

/-- ADOPT_CONFIG (R171). -/
def adoptOperation (s : State) : Took :=
  match adoptCheck s with
  | some e => .done e.1 e.2 s
  | none => .inFlight (takeAdoption s)

/-! ## The takes of each side -/

/-- A request of one kind, from a slot. -/
def windowRequest (kind : Byte) (k : Operation) (op : Fin 8 → State → Took) (s : State) : State :=
  slotTake (fun b => decide (b = kind)) (fun n s => serveSlot k n (op n s)) s

/-- An operation service, from the link. -/
def linkRequest (code : Byte) (k : Operation) (op : Request → State → Took) (s : State) : State :=
  linkTake code (fun r s => serveLink k r (op r s)) s

/-- CLEAR_FAULTS of either side. -/
def clearRequest (side : Side) (s : State) : State :=
  match side with
  | .window => windowRequest 4 .clear
      (fun n s => clearOperation .window (slotByte s n 6) (slotByte s n 7) s) s
  | .workshop => linkRequest 16 .clear
      (fun r s => clearOperation .workshop (param r.payload 1) (param r.payload 2) s) s

/-- PRESET_ODOMETER of either side. -/
def presetRequest (side : Side) (s : State) : State :=
  match side with
  | .window => windowRequest 5 .preset (fun n s => presetOperation .window (slotParams s n 5) s) s
  | .workshop => linkRequest 17 .preset (fun r s => presetOperation .workshop (r.payload.drop 1) s) s

/-- SET_K_FACTOR: K is little-endian in the slot (R53). -/
def setKRequest (s : State) : State :=
  windowRequest 6 .kfactor (fun n s =>
    kFactorOperation .window ((slotByte s n 6).toNat + 256 * (slotByte s n 7).toNat) s) s

/-- WRITE_K_FACTOR: K is big-endian on the link (R53). -/
def writeKRequest (s : State) : State :=
  linkRequest 18 .kfactor (fun r s =>
    kFactorOperation .workshop (256 * (param r.payload 1).toNat + (param r.payload 2).toNat) s) s

/-- OUTPUT_TEST of either side. -/
def testRequest (side : Side) (s : State) : State :=
  match side with
  | .window => windowRequest 7 .test
      (fun n s => testOperation .window (slotByte s n 6) (slotByte s n 7) s) s
  | .workshop => linkRequest 19 .test
      (fun r s => testOperation .workshop (param r.payload 1) (param r.payload 2) s) s

/-- OUTPUT_TEST_STOP of either side. -/
def stopRequest (side : Side) (s : State) : State :=
  match side with
  | .window => windowRequest 8 .test (fun _ s => stopOperation .window s) s
  | .workshop => linkRequest 20 .test (fun _ s => stopOperation .workshop s) s

/-- ACK_WARNINGS from a slot. -/
def ackRequest (s : State) : State :=
  windowRequest 2 .test (fun n s => ackOperation (slotByte s n 6) ((slotParams s n 7).drop 1) s) s

/-- TRIP_CONTROL from a slot. -/
def tripRequest (s : State) : State :=
  windowRequest 3 .test (fun n s => tripOperation (slotByte s n 6) (slotByte s n 7) s) s

/-- ADOPT_CONFIG from a slot. -/
def adoptRequest (s : State) : State := windowRequest 1 .adopt (fun _ s => adoptOperation s) s

/-- A kind or service code that names nothing (R154, R169). -/
def unknownRequest (side : Side) (s : State) : State :=
  match side with
  | .window =>
    slotTake (fun b => decide (b = 0) || decide (9 ≤ b.toNat)) (fun n s => finishSlot n .unknownKind 0 s) s
  | .workshop => linkTakeUnknown s

end Sys2Proof.Machine
end

