-- ==== Sys2Proof/Machine/WindowPort.lean ====
section
/-! DEFINITION. The Window Port: reads (R163 to R165, R167), writes byte by byte under the access rules
(R164 to R169, R173), and the soft restart (R174). -/

namespace Sys2Proof.Machine

/-! ## Reads -/

/-- The ATTENTION word. -/
def attentionByte (s : State) : Byte :=
  (List.finRange 8).foldl (fun b n =>
    if s.win.attention[n].isSome then b ||| BitVec.twoPow 8 n.val else b) 0

/-- A port word's byte (R165, R176). -/
def portByte (s : State) (a : Nat) : Byte :=
  if a = 0 then byte Config.familyCode
  else if a = 1 then byte (Config.familyCode / 256)
  else if a = 2 then byte Config.revision
  else if a = 4 then runState s
  else if a = 6 then attentionByte s
  else if a = 10 then s.win.notice.setWidth 8
  else if a = 11 then (s.win.notice >>> 8).setWidth 8
  else if a = 14 then s.win.enable.setWidth 8
  else if a = 15 then (s.win.enable >>> 8).setWidth 8
  else if a = 16 then byte s.out.supervision.period
  else if a = 17 then byte (bit s.out.supervision.resets 0)
  else if a = 20 then byte (s.win.capture.getD 0).toNat
  else if a = 21 then byte ((s.win.capture.getD 0).toNat / 256)
  else if a = 22 then byte s.win.faultCount
  else if a = 23 then byte (bit s.win.capture.isSome 0)
  else 0

/-- The claim of a claim byte. -/
def claimAt (a : Nat) : Option Claim := if a < 0x0020 then none else claimOfNumber (a - 0x0020)

/-- The slot whose state byte stands at an address. -/
def slotAt (a : Nat) : Fin 8 := finOf 8 ((a - 0x0100) / 64)

/-- An address of the request slots. -/
def isSlot (a : Nat) : Bool := decide (0x0100 ≤ a) && decide (a < 0x0300)

/-- An address the host may always write: the lamp request area or the staging area (R164). -/
def isFreeRam (a : Nat) : Bool :=
  (decide (0x0300 ≤ a) && decide (a < 0x0310)) || (decide (0x0400 ≤ a) && decide (a < 0x0C00))

/-- An address of an image (R164). -/
def isImage (a : Nat) : Bool :=
  (decide (0x1000 ≤ a) && decide (a < 0x1300)) || (decide (0x1400 ≤ a) && decide (a < 0x1800))

/-- The byte that a read of an address gives (R164). -/
def readByte (s : State) (a : Nat) : Byte :=
  if a < 0x0020 then portByte s a
  else
    match claimAt a with
    | some k => (s.win.claims.holder k).code
    | none =>
      if isSlot a then
        (if a % 64 = 0 then s.win.slots[slotAt a].code else ramRead s a)
      else if isFreeRam a || isImage a then ramRead s a
      else 0

/-- The address of a data byte of a transaction: past 0x1FFF there is none (R163). -/
def burstAddress (start : BitVec 16) (index : Nat) : Option Nat :=
  let a := start.toNat % 0x2000 + index
  if a < 0x2000 then some a else none

/-- The byte shifted out. -/
def shiftOut (b : Byte) (s : State) : State := { s with win := { s.win with sdo := b } }

/-- The fetch of a data byte of a READ transaction (R163, R167). -/
def fetchData (start : BitVec 16) (index : Nat) (s : State) : State :=
  match burstAddress start index with
  | none => shiftOut 0xFF s
  | some a =>
    let s1 := shiftOut (readByte s a) s
    match claimAt a with
    | some k => if index = 0 ∧ s.win.claims.holder k = .free then setClaim k .window s1 else s1
    | none => s1

/-! ## Writes to the port words and the claims -/

/-- A slot is named by a mask. -/
def named (mask : Byte) (n : Fin 8) : Bool := mask.getLsbD n.val

/-- Replaces the attention bits. -/
def setAttentions (f : Fin 8 → Option Nat) (s : State) : State :=
  { s with win := { s.win with attention := Vector.ofFn f } }

/-- A write to ATTN_SET (R169): a bit already set keeps its instant. -/
def attentionSet (mask : Byte) (s : State) : State :=
  let s1 := setAttentions (fun n =>
    if named mask n ∧ s.win.slots[n] = .posted ∧ s.win.attention[n].isNone then some s.time.now
    else s.win.attention[n]) s
  if (List.finRange 8).any (fun n => named mask n && decide (s.win.slots[n] ≠ .posted)) then
    portFault 0x0007 s1
  else s1

/-- A write to ATTN_CLEAR (R165). -/
def attentionClear (mask : Byte) (s : State) : State :=
  setAttentions (fun n => if named mask n then none else s.win.attention[n]) s

/-- The bits of a notice word that a byte write names: the high byte's upper three name none (R165). -/
def noticeBits (high : Bool) (value : Byte) : NoticeWord :=
  if high then value.setWidth 13 <<< 8 else value.setWidth 13

/-- A write to NOTICE_CLEAR (R173). -/
def clearNotices (high : Bool) (value : Byte) (s : State) : State :=
  { s with win := { s.win with notice := s.win.notice &&& ~~~ noticeBits high value } }

/-- A write to NOTICE_ENABLE (R173): the byte is stored. -/
def enableNotices (high : Bool) (value : Byte) (s : State) : State :=
  { s with win := { s.win with
      enable := (s.win.enable &&& ~~~ noticeBits high 0xFF) ||| noticeBits high value } }

/-- A write to the PORT_FAULT word (R166). -/
def clearPortFault (offset : Fin 4) (value : Byte) (s : State) : State :=
  if value = 0 then { s with win := { s.win with capture := none, faultCount := 0 } }
  else portFault (0x0014 + offset.val) s

/-- A write to a claim byte (R167). -/
def claimWrite (k : Claim) (value : Byte) (s : State) : State :=
  if value = 0 ∧ s.win.claims.holder k = .window then releaseClaim .window k s
  else portFault (0x0020 + claimNumber k) s

/-! ## Writes to the slots (R168) -/

/-- POSTED written to a slot's state byte. -/
def postSlot (n : Fin 8) (s : State) : State :=
  match s.win.slots[n] with
  | .free => setSlotState n .posted s
  | .posted => s
  | .taken => portFault (slotBase n) s
  | .done => portFault (slotBase n) s

/-- FREE written to a slot's state byte. -/
def freeSlot (n : Fin 8) (s : State) : State :=
  match s.win.slots[n] with
  | .free => s
  | .posted => setAttention n none (setSlotState n .free s)
  | .taken => portFault (slotBase n) s
  | .done => setSlotState n .free s

/-- A byte written in a slot's range. -/
def slotWrite (a : Nat) (value : Byte) (s : State) : State :=
  let n := slotAt a
  if a % 64 = 0 then
    (if value = 0 then freeSlot n s else if value = 1 then postSlot n s else portFault a s)
  else
    match s.win.slots[n] with
    | .free => ramWrite a value s
    | .posted => ramWrite a value s
    | .taken => portFault a s
    | .done => portFault a s

/-! ## The soft restart (R174) -/

/-- The window's own part of a soft restart. -/
def WindowPort.softReset (w : WindowPort) : WindowPort :=
  { w with
    slots := Vector.replicate 8 .free
    ops := { adopt := w.ops.adopt.orphaned, clear := w.ops.clear.orphaned, preset := w.ops.preset.orphaned
             kfactor := w.ops.kfactor.orphaned, test := w.ops.test.orphaned }
    attention := Vector.replicate 8 none
    notice := 0, enable := 0, capture := none, faultCount := 0, softCause := true }

/-- A soft restart, in the order of R174. -/
def softReset (s : State) : State :=
  supervisionOff (abortTestOf .window .sideGone
    (dropClaims .window { s with win := s.win.softReset }))

/-- A write to RESTART (R165). -/
def restartWrite (value : Byte) (s : State) : State :=
  if value = 0xC3 then softReset s else portFault 0x0013 s

/-! ## Any write -/

/-- A byte written to a port word (R165). -/
def portWrite (a : Nat) (value : Byte) (s : State) : State :=
  if a = 7 then attentionSet value s
  else if a = 8 then attentionClear value s
  else if a = 12 then clearNotices false value s
  else if a = 13 then clearNotices true value s
  else if a = 14 then enableNotices false value s
  else if a = 15 then enableNotices true value s
  else if a = 16 then periodWrite value s
  else if a = 17 then modeWrite value s
  else if a = 18 then refreshWrite value s
  else if a = 19 then restartWrite value s
  else if h : 20 ≤ a ∧ a < 24 then clearPortFault ⟨a - 20, by omega⟩ value s
  else portFault a s

/-- A byte written to an address (R164). -/
def writeByte (a : Nat) (value : Byte) (s : State) : State :=
  if a < 0x0020 then portWrite a value s
  else
    match claimAt a with
    | some k => claimWrite k value s
    | none =>
      if isSlot a then slotWrite a value s
      else if isFreeRam a then ramWrite a value s
      else portFault a s

/-- The data bytes that a READ shifts out from the byte `index` on, each as it is fetched (R163). -/
def readOut (start : BitVec 16) : Nat → Nat → State → List Byte
  | _, 0, _ => []
  | index, k + 1, s =>
    let s1 := fetchData start index s
    s1.win.sdo :: readOut start (index + 1) k s1

/-- What SDO gives through a transaction of these bytes, byte by byte (R163): 0xFF during the opcode, the address
bytes, the turnaround and the whole of a transaction of another opcode, the fetched bytes during the data of a
READ. During the data of a WRITE the manual is silent: a free value, log entry 17. -/
def spiOut : List Byte → State → List Byte
  | op :: hi :: lo :: rest, s =>
    [0xFF, 0xFF, 0xFF] ++
      (if op = 0x61 then
        (match rest with
         | [] => []
         | _ :: data => 0xFF :: readOut (hi ++ lo) 0 data.length s)
       else if op = 0x62 then (List.range rest.length).map Config.writeDataOut
       else List.replicate rest.length 0xFF)
  | bytes, _ => List.replicate bytes.length 0xFF

/-- A data byte of a WRITE transaction (R163): past 0x1FFF it is dropped. It fetches nothing; what SDO gives
meanwhile is open, log entry 17 (DESIGN CHOICE). -/
def writeData (start : BitVec 16) (index : Nat) (value : Byte) (s : State) : State :=
  match burstAddress start index with
  | some a => writeByte a value s
  | none => s

/-- The commands of an SPI transaction's completed bytes, from the fall of SSEL (R163). -/
def spiCommands : List Byte → List Instr
  | op :: hi :: lo :: rest =>
    let start : BitVec 16 := hi ++ lo
    if op = 0x61 then (List.range rest.length).map (Instr.claimTakeRead start)
    else if op = 0x62 then (List.range rest.length).map (fun i => Instr.windowWrite start i (rest.getD i 0))
    else []
  | _ => []

end Sys2Proof.Machine
end

