-- ==== Sys2Proof/Machine/Clock.lean ====
section
/-! DEFINITION. The commands that time brings: the full restart, the cadences (R2), the phase edges (R4),
the maturity (R84) and the pulse edges (R18); and what the part does with nothing commanded. -/

namespace Sys2Proof.Machine

/-! ## Instants of the cadences (R2, R4) -/

/-- The state at the sense sample's instant. -/
def atSense (s : State) : State :=
  let t := nextInstant Config.sensePeriod s.time.lastSense s.time.now
  { s with time := { s.time with now := t, lastSense := t } }

/-- The state at the timer step's instant. -/
def atStep (s : State) : State :=
  let t := nextInstant Config.stepPeriod s.time.lastStep s.time.now
  { s with time := { s.time with now := t, lastStep := t } }

/-- The state at the lamp refresh's instant. -/
def atLamp (s : State) : State :=
  let t := nextInstant Config.lampPeriod s.time.lastLamp s.time.now
  { s with time := { s.time with now := t, lastLamp := t } }

/-- The state at the gauge cycle's instant. -/
def atGauge (s : State) : State :=
  let t := nextInstant Config.gaugePeriod s.time.lastGauge s.time.now
  { s with time := { s.time with now := t, lastGauge := t } }

/-- The state at a phase edge's instant. -/
def atEdge (phase : Phase) (s : State) : State :=
  match phase with
  | .fast =>
    let t := nextInstant Config.fastHalf s.time.lastFast s.time.now
    { s with time := { s.time with now := t, lastFast := t } }
  | .slow =>
    let t := nextInstant Config.slowHalf s.time.lastSlow s.time.now
    { s with time := { s.time with now := t, lastSlow := t } }

/-! ## A timer step -/

/-- The output unit's timers but the period timer, which counts lamp refreshes. -/
def tickOutputs (s : State) : State :=
  let tick := Timer.tick s.time.now
  let a := s.out.arbiter
  { s with out := { s.out with
      arbiter := { a with
        repeatTimer := a.repeatTimer.map tick
        current := a.current.map (fun b => { b with timer := tick b.timer }) }
      test := s.out.test.map (fun t => { t with duration := tick t.duration, half := t.half.map tick })
      supervision := { s.out.supervision with hrst := s.out.supervision.hrst.map tick } } }

/-- The low-supply watch's timer. -/
def tickWatch (s : State) : State :=
  match s.dist.watch with
  | .timing t => setDist { s.dist with watch := .timing (t.tick s.time.now) } s
  | .armed => s
  | .spent => s

/-- Every running timer loses one step; the standstill age and the onset ages advance (R3, R84, R100). -/
def stepTimers (s : State) : State :=
  tickLink (tickWatch (tickOutputs (tickHolds (tickDoors (tickAge (tickWarnings s))))))

/-! ## Own events of the part, for the block with nothing commanded -/

/-- A periodic event is due at this instant and not yet taken. -/
def cadenceDue (period last now : Nat) : Bool :=
  decide (now % period = 0) && decide (now ≠ 0) && decide (last ≠ now)

/-- A cadence or a phase edge is due. -/
def anyCadenceDue (t : Timebase) : Bool :=
  cadenceDue Config.sensePeriod t.lastSense t.now || cadenceDue Config.stepPeriod t.lastStep t.now ||
  cadenceDue Config.lampPeriod t.lastLamp t.now || cadenceDue Config.gaugePeriod t.lastGauge t.now ||
  cadenceDue Config.fastHalf t.lastFast t.now || cadenceDue Config.slowHalf t.lastSlow t.now

/-- A test's timer has expired. -/
def testDue (s : State) : Bool :=
  match s.out.test with
  | some t => decide (t.duration.left = 0) || expired t.half
  | none => false

/-- The watch's timer has expired. -/
def watchDue (s : State) : Bool :=
  match s.dist.watch with
  | .timing t => decide (t.left = 0)
  | .armed => false
  | .spent => false

/-- A timer has expired and its expiry is not yet taken. -/
def anyExpiryDue (s : State) : Bool :=
  (List.finRange 6).any (fun c => expired s.analog.channels[c].hold) || watchDue s ||
  (List.finRange 4).any (fun n =>
    expired s.door.doorways[n].travel || expired s.door.doorways[n].conflict) ||
  (List.finRange 48).any (fun w => expired s.warn.warnings[w].timer) ||
  expired s.out.arbiter.repeatTimer || expired (s.out.arbiter.current.map (·.timer)) || testDue s ||
  expired s.out.supervision.timer || expired s.out.supervision.hrst || expired s.link.hold ||
  expired s.link.sessionTimer || s.door.matureDue

/-- A page completes at this instant or has completed. -/
def completionDue (s : State) : Bool :=
  match s.store.job with
  | some j =>
    (match j.phase with
     | .inFlight since => decide (since + Config.pageTime ≤ s.time.now)
     | .waiting => false)
  | none => false

/-- A slot is due at this instant. -/
def slotTakeDue (s : State) : Bool :=
  cadenceDue Config.stepPeriod s.win.lastTake s.time.now && (dueSlot s s.time.now).isSome

/-- The third timer step after an acceptance has come: the request is taken by then (R154). -/
def linkTakeDue (s : State) : Bool :=
  match s.link.request with
  | some r => decide (firstStep r.acceptedAt + 2 * Config.stepPeriod ≤ s.time.now)
  | none => false

/-- Some event of the part itself is due at this instant. -/
def ownEventDue (s : State) : Bool :=
  anyCadenceDue s.time || anyExpiryDue s || jobStartable s || pageStartable s || completionDue s ||
    slotTakeDue s || linkTakeDue s

/-- Nothing is commanded: one microsecond passes, unless an event of the part itself is due, for which the
block waits (log entry 1). -/
def idle (s : State) : State := if ownEventDue s then s else setNow (s.time.now + 1) s

/-! ## The commands -/

/-- FULL_RESTART (R175). -/
def execFullRestart (s : State) : Host.Outcome State Fault Refusal := .next (restart s)

/-- SENSE_SAMPLE (R8): the lines are debounced and their changes delivered, then the wire class and the
analog inputs are taken (R28, R56). -/
def sensed (ratios : Vector Sample 32) (wireOpen : Bool) (inputs : Vector Sample 6) (s : State) : State :=
  sampleInputs inputs (wireEvent wireOpen (takeLines ratios s))

/-- SENSE_SAMPLE (R8). -/
def execSenseSample (ratios : Vector Sample 32) (wireOpen : Bool) (inputs : Vector Sample 6) (s : State) :
    Host.Outcome State Fault Refusal :=
  .next (sensed ratios wireOpen inputs (atSense s))

/-- TIMER_STEP (R3). -/
def execTimerStep (s : State) : Host.Outcome State Fault Refusal :=
  .next (publish s (stepTimers (atStep s)))

/-- STANDSTILL_MATURE (R84, R85). -/
def execStandstillMature (s : State) : Host.Outcome State Fault Refusal :=
  .next (publish s (takeMaturity s))

/-- LAMP_REFRESH (R114); it counts the supervision period (R122). -/
def execLampRefresh (s : State) : Host.Outcome State Fault Refusal :=
  .next (publish s (computeLamps (tickPeriod (atLamp s))))

/-- PHASE_EDGE (R4): no image field changes (R116). -/
def execPhaseEdge (phase : Phase) (s : State) : Host.Outcome State Fault Refusal :=
  .next (edgeLamps phase (atEdge phase s))

/-- The dwell count of a gauge cycle, which a stop that closes at this cycle includes (the example of chapter
5). The first cycle rewrites the door image whatever changed (R86). -/
def dwellEvent (first : Bool) (s : State) : State := publishAll false first s (countDwell s)

/-- The road speed of a gauge cycle; its motion change reaches the consumers at once, as an event of its own
(R27). -/
def roadEvent (s : State) : State := finish s (evaluateRoad s)

/-- The engine speed, the analog channels and the hand-over of a gauge cycle. -/
def gaugeEvent (s : State) : State :=
  finish s (countSweep (handOver (judgeAnalog (evaluateEngine s))))

/-- GAUGE_CYCLE (R2): each one writes the gauge image last (R67). -/
def execGaugeCycle (s : State) : Host.Outcome State Fault Refusal :=
  .next (publishGauge (gaugeEvent (roadEvent (dwellEvent (decide (s.time.lastGauge = 0)) (atGauge s)))))

/-- PULSE_V_EDGE (R18, R19). -/
def execPulseVEdge (gap : Nat) (s : State) : Host.Outcome State Fault Refusal :=
  let s1 := setNow (s.time.now + gap) s
  .next (if edgeAccepted s1.time.now s1.pulse.lastEdge then acceptPulseV s1 else s1)

/-- PULSE_E_EDGE (R18, R34). -/
def execPulseEEdge (gap : Nat) (s : State) : Host.Outcome State Fault Refusal :=
  let s1 := setNow (s.time.now + gap) s
  .next (if edgeAccepted s1.time.now s1.pulse.engineEdge then
      setPulse { s1.pulse with
        engineEdge := stampOf s1.time.now, engineCount := min (s1.pulse.engineCount + 1) 65535 } s1
    else s1)

end Sys2Proof.Machine
end

