-- ==== Sys2Proof/Machine/Expiries.lean ====
section
/-! DEFINITION. The expiry commands, each of a timer that has counted to zero, and the commands of the
write engine. A timer that has not expired, or is stopped, makes its command change nothing (R3). -/

namespace Sys2Proof.Machine

/-- HOLD_TIMER_EXPIRY (R62, R63). -/
def execHoldTimerExpiry (channel : Fin 5) (s : State) : Host.Outcome State Fault Refusal :=
  let s1 := holdExpiry channel s
  .next (settle (senderFault s channel != senderFault s1 channel) s s1)

/-- LOW_SUPPLY_WATCH_EXPIRY (R44). -/
def execLowSupplyWatchExpiry (s : State) : Host.Outcome State Fault Refusal := .next (watchExpiry s)

/-- TRAVEL_TIMER_EXPIRY (R73). -/
def execTravelTimerExpiry (doorway : Fin 4) (s : State) : Host.Outcome State Fault Refusal :=
  let s1 := travelExpiry doorway s
  .next (settle (decide (s.door.doorways ≠ s1.door.doorways)) s s1)

/-- CONFLICT_TIMER_EXPIRY (R74). -/
def execConflictTimerExpiry (doorway : Fin 4) (s : State) : Host.Outcome State Fault Refusal :=
  let s1 := conflictExpiry doorway s
  .next (settle (decide (s.door.doorways ≠ s1.door.doorways)) s s1)

/-- ONSET_TIMER_EXPIRY (R95). -/
def execOnsetTimerExpiry (warning : Fin 48) (s : State) : Host.Outcome State Fault Refusal :=
  .next (publish s (onsetExpiry warning s))

/-- REPEAT_HALF_EXPIRY (R106). -/
def execRepeatHalfExpiry (s : State) : Host.Outcome State Fault Refusal :=
  .next (publish s (setArbiter (s.out.arbiter.repeatHalf s.time.now) s))

/-- BURST_INTERVAL_EXPIRY (R107). -/
def execBurstIntervalExpiry (s : State) : Host.Outcome State Fault Refusal :=
  .next (publish s (setArbiter (s.out.arbiter.interval s.time.now) s))

/-- The duration timer of the running test has expired. -/
def testExpired (s : State) : Bool :=
  match s.out.test with
  | some t => decide (t.duration.left = 0)
  | none => false

/-- TEST_DURATION_EXPIRY (R120). -/
def execTestDurationExpiry (s : State) : Host.Outcome State Fault Refusal :=
  .next (publish s (if testExpired s then endTest none s else s))

/-- LAMP_WALK_STEP (R118). -/
def execLampWalkStep (s : State) : Host.Outcome State Fault Refusal := .next (publish s (walkStep s))

/-- TEST_BUZZER_HALF (R118). -/
def execTestBuzzerHalf (s : State) : Host.Outcome State Fault Refusal := .next (publish s (buzzerHalf s))

/-- SUPV_PERIOD_EXPIRY (R123). -/
def execSupvPeriodExpiry (s : State) : Host.Outcome State Fault Refusal :=
  let s1 := periodExpiry s
  .next (settle (supervisionFallback s != supervisionFallback s1) s s1)

/-- HRSTN_TIMER_EXPIRY (R124). -/
def execHrstnTimerExpiry (s : State) : Host.Outcome State Fault Refusal := .next (hrstExpiry s)

/-- JOB_START (R142). -/
def execJobStart (s : State) : Host.Outcome State Fault Refusal := .next (tryJob s)

/-- PAGE_START (R143). -/
def execPageStart (s : State) : Host.Outcome State Fault Refusal := .next (tryPage s)

/-- PAGE_COMPLETION (R143), 6 ms after the page's start. The owner takes the job's end first, the completion of a
clear with its re-entry included (R136), and the Warning Unit judges a change of STORE_FAULT (R144) after it: no
rule gives the two an order. DESIGN CHOICE, log entry 44. -/
def execPageCompletion (verified : Bool) (s : State) : Host.Outcome State Fault Refusal :=
  match s.store.job with
  | some j =>
    (match j.phase with
     | .inFlight since =>
       let s1 := completePage j verified (setNow (max s.time.now (since + Config.pageTime)) s)
       .next (settle (storeFault s != storeFault s1) s s1)
     | .waiting => .next s)
  | none => .next s

end Sys2Proof.Machine
end

