-- ==== Sys2Proof/Machine/LinkCommands.lean ====
section
/-! DEFINITION. The commands of the Workshop Link: its frames, its expiries and its services. -/

namespace Sys2Proof.Machine

/-- REQUEST_FRAME (R153). -/
def execRequestFrame (opens : Bool) (chars : List Byte) (bits : List Bool) (s : State) :
    Host.Outcome State Fault Refusal := .next (requestClocks opens chars bits s)

/-- FETCH_FRAME (R156). -/
def execFetchFrame (head : Option (BitVec 7)) (answers : List Bool) (n : Nat) (s : State) :
    Host.Outcome State Fault Refusal := .next (fetchClocks head answers n s)

/-- MARK_CLOSE (R151). -/
def execMarkClose (s : State) : Host.Outcome State Fault Refusal := .next (takeMarkClose s)

/-- LINK_HOLD_EXPIRY (R152). -/
def execLinkHoldExpiry (s : State) : Host.Outcome State Fault Refusal := .next (holdTimerEnd s)

/-- SESSION_TIMER_EXPIRY (R157). -/
def execSessionTimerExpiry (s : State) : Host.Outcome State Fault Refusal :=
  .next (publish s (sessionTimerEnd s))

/-- OPEN_SESSION (R157). -/
def execOpenSession (s : State) : Host.Outcome State Fault Refusal :=
  .next (linkTake 1 (fun r s => answer r .ok [] (openLink s)) s)

/-- CLOSE_SESSION (R157): the buffers are emptied, then the reply is READY with OK. A fetch that the part holds at
the take ends with DISCARDED (R156), and the next fetch gives the reply. DEDUCED, log entry 45. -/
def execCloseSession (s : State) : Host.Outcome State Fault Refusal :=
  .next (publish s (linkTake 2 (fun r s => answer r .ok [] (closeLink s)) s))

/-- KEEP_SESSION (R159). -/
def execKeepSession (s : State) : Host.Outcome State Fault Refusal :=
  .next (linkTake 3 (fun r s => answer r .ok [] s) s)

/-- READ_IDENT (R159). -/
def execReadIdent (s : State) : Host.Outcome State Fault Refusal :=
  .next (linkTake 4 (answerRead fun s => .inr (identData s)) s)

/-- READ_CHANNELS (R70, R38). -/
def execReadChannels (s : State) : Host.Outcome State Fault Refusal :=
  .next (linkTake 5 (answerRead fun s => .inr (channelsData s)) s)

/-- READ_SENSE (R16). -/
def execReadSense (s : State) : Host.Outcome State Fault Refusal :=
  .next (linkTake 6 (answerRead fun s => .inr (senseData s)) s)

/-- READ_DOORS (R86). -/
def execReadDoors (s : State) : Host.Outcome State Fault Refusal :=
  .next (linkTake 7 (answerRead fun s => .inr (doorsData s)) s)

/-- READ_WARNINGS (R110, R160). -/
def execReadWarnings (s : State) : Host.Outcome State Fault Refusal :=
  .next (linkTake 8 (fun r => answerRead (warningsData (param r.payload 1).toNat) r) s)

/-- READ_FAULT_SUMMARY (R138). -/
def execReadFaultSummary (s : State) : Host.Outcome State Fault Refusal :=
  .next (linkTake 9 (answerRead fun s => .inr (summaryData s)) s)

/-- READ_FAULT (R138). -/
def execReadFault (s : State) : Host.Outcome State Fault Refusal :=
  .next (linkTake 10 (fun r => answerRead (faultData (param r.payload 1).toNat) r) s)

/-- READ_ODOMETER (R54). -/
def execReadOdometer (s : State) : Host.Outcome State Fault Refusal :=
  .next (linkTake 11 (answerRead fun s => .inr (odometerData s)) s)

/-- READ_K_FACTOR (R38). -/
def execReadKFactor (s : State) : Host.Outcome State Fault Refusal :=
  .next (linkTake 12 (answerRead fun s => .inr (kFactorData s)) s)

/-- READ_STOP_JOURNAL (R87). -/
def execReadStopJournal (s : State) : Host.Outcome State Fault Refusal :=
  .next (linkTake 13 (fun r => answerRead (journalData (param r.payload 1).toNat) r) s)

/-- TAKE_CLAIM (R158). -/
def execTakeClaim (s : State) : Host.Outcome State Fault Refusal :=
  .next (linkTake 14 takeClaimService s)

/-- GIVE_CLAIM (R158). -/
def execGiveClaim (s : State) : Host.Outcome State Fault Refusal :=
  .next (publish s (linkTake 15 giveClaimService s))

/-- WRITE_K_FACTOR (R53). -/
def execWriteKFactor (s : State) : Host.Outcome State Fault Refusal :=
  let s1 := writeKRequest s
  .next (settle (sourceValid s.pulse != sourceValid s1.pulse) s s1)

/-- UNKNOWN_KIND (R154, R169). -/
def execUnknownKind (side : Side) (s : State) : Host.Outcome State Fault Refusal :=
  .next (unknownRequest side s)

/-- CLEAR_FAULTS (R133 to R136). -/
def execClearFaults (side : Side) (s : State) : Host.Outcome State Fault Refusal :=
  .next (publish s (clearRequest side s))

/-- PRESET_ODOMETER (R51, R52). -/
def execPresetOdometer (side : Side) (s : State) : Host.Outcome State Fault Refusal :=
  .next (presetRequest side s)

/-- OUTPUT_TEST (R117, R118). -/
def execOutputTest (side : Side) (s : State) : Host.Outcome State Fault Refusal :=
  .next (publish s (testRequest side s))

/-- OUTPUT_TEST_STOP (R121). -/
def execOutputTestStop (side : Side) (s : State) : Host.Outcome State Fault Refusal :=
  .next (publish s (stopRequest side s))

end Sys2Proof.Machine
end

