-- ==== Sys2Proof/Machine/WindowCommands.lean ====
section
/-! DEFINITION. The commands of the window: its requests, and the bytes of its transactions. -/

namespace Sys2Proof.Machine

/-- ADOPT_CONFIG (R171): the warning list image is rewritten for the adoption whatever it changed (R109). -/
def execAdoptConfig (s : State) : Host.Outcome State Fault Refusal :=
  let s1 := adoptRequest s
  .next (publishAll (s.win.adoption.isNone && s1.win.adoption.isSome) false s s1)

/-- ACK_WARNINGS (R104). -/
def execAckWarnings (s : State) : Host.Outcome State Fault Refusal := .next (publish s (ackRequest s))

/-- TRIP_CONTROL (R42). -/
def execTripControl (s : State) : Host.Outcome State Fault Refusal := .next (tripRequest s)

/-- SET_K_FACTOR (R53). -/
def execSetKFactor (s : State) : Host.Outcome State Fault Refusal :=
  let s1 := setKRequest s
  .next (settle (sourceValid s.pulse != sourceValid s1.pulse) s s1)

/-- CLAIM_TAKE_READ (R167). -/
def execClaimTakeRead (start : BitVec 16) (index : Nat) (s : State) : Host.Outcome State Fault Refusal :=
  .next (fetchData start index s)

/-- CLAIM_RELEASE_WRITE (R167). -/
def execClaimReleaseWrite (claim : Claim) (value : Byte) (s : State) : Host.Outcome State Fault Refusal :=
  .next (publish s (claimWrite claim value s))

/-- SLOT_POST (R168). -/
def execSlotPost (slot : Fin 8) (s : State) : Host.Outcome State Fault Refusal := .next (postSlot slot s)

/-- SLOT_FREE (R168). -/
def execSlotFree (slot : Fin 8) (s : State) : Host.Outcome State Fault Refusal := .next (freeSlot slot s)

/-- ATTN_SET (R169). -/
def execAttnSet (mask : Byte) (s : State) : Host.Outcome State Fault Refusal := .next (attentionSet mask s)

/-- ATTN_CLEAR (R165). -/
def execAttnClear (mask : Byte) (s : State) : Host.Outcome State Fault Refusal :=
  .next (attentionClear mask s)

/-- NOTICE_CLEAR (R173). -/
def execNoticeClear (high : Bool) (value : Byte) (s : State) : Host.Outcome State Fault Refusal :=
  .next (clearNotices high value s)

/-- NOTICE_ENABLE (R173). -/
def execNoticeEnable (high : Bool) (value : Byte) (s : State) : Host.Outcome State Fault Refusal :=
  .next (enableNotices high value s)

/-- SUPV_CONTROL_PERIOD (R122). -/
def execSupvControlPeriod (value : Byte) (s : State) : Host.Outcome State Fault Refusal :=
  .next (periodWrite value s)

/-- SUPV_CONTROL_MODE (R122). -/
def execSupvControlMode (value : Byte) (s : State) : Host.Outcome State Fault Refusal :=
  .next (modeWrite value s)

/-- SUPV_REFRESH (R123). -/
def execSupvRefresh (value : Byte) (s : State) : Host.Outcome State Fault Refusal :=
  let s1 := refreshWrite value s
  .next (settle (supervisionFallback s != supervisionFallback s1) s s1)

/-- SOFT_RESTART (R174). -/
def execSoftRestart (value : Byte) (s : State) : Host.Outcome State Fault Refusal :=
  let s1 := restartWrite value s
  .next (settle (supervisionFallback s != supervisionFallback s1) s s1)

/-- PORT_FAULT_CLEAR (R166). -/
def execPortFaultClear (offset : Fin 4) (value : Byte) (s : State) : Host.Outcome State Fault Refusal :=
  .next (clearPortFault offset value s)

/-- WINDOW_WRITE (R163, R164). -/
def execWindowWrite (start : BitVec 16) (index : Nat) (value : Byte) (s : State) :
    Host.Outcome State Fault Refusal :=
  let s1 := writeData start index value s
  .next (settle (supervisionFallback s != supervisionFallback s1) s s1)

end Sys2Proof.Machine
end

