-- ==== Sys2Proof/Machine/Dispatch.lean ====
section
/-! DEFINITION. The meaning of each command. -/

namespace Sys2Proof.Machine

def exec (i : Instr) (s : State) : Host.Outcome State Fault Refusal :=
  match i with
  | .fullRestart => Sys2Proof.Machine.execFullRestart s
  | .senseSample ratios wireOpen inputs => Sys2Proof.Machine.execSenseSample ratios wireOpen inputs s
  | .timerStep => Sys2Proof.Machine.execTimerStep s
  | .standstillMature => Sys2Proof.Machine.execStandstillMature s
  | .lampRefresh => Sys2Proof.Machine.execLampRefresh s
  | .phaseEdge phase => Sys2Proof.Machine.execPhaseEdge phase s
  | .gaugeCycle => Sys2Proof.Machine.execGaugeCycle s
  | .pulseVEdge gap => Sys2Proof.Machine.execPulseVEdge gap s
  | .pulseEEdge gap => Sys2Proof.Machine.execPulseEEdge gap s
  | .holdTimerExpiry channel => Sys2Proof.Machine.execHoldTimerExpiry channel s
  | .lowSupplyWatchExpiry => Sys2Proof.Machine.execLowSupplyWatchExpiry s
  | .travelTimerExpiry doorway => Sys2Proof.Machine.execTravelTimerExpiry doorway s
  | .conflictTimerExpiry doorway => Sys2Proof.Machine.execConflictTimerExpiry doorway s
  | .onsetTimerExpiry warning => Sys2Proof.Machine.execOnsetTimerExpiry warning s
  | .repeatHalfExpiry => Sys2Proof.Machine.execRepeatHalfExpiry s
  | .burstIntervalExpiry => Sys2Proof.Machine.execBurstIntervalExpiry s
  | .testDurationExpiry => Sys2Proof.Machine.execTestDurationExpiry s
  | .lampWalkStep => Sys2Proof.Machine.execLampWalkStep s
  | .testBuzzerHalf => Sys2Proof.Machine.execTestBuzzerHalf s
  | .supvPeriodExpiry => Sys2Proof.Machine.execSupvPeriodExpiry s
  | .hrstnTimerExpiry => Sys2Proof.Machine.execHrstnTimerExpiry s
  | .jobStart => Sys2Proof.Machine.execJobStart s
  | .pageStart => Sys2Proof.Machine.execPageStart s
  | .pageCompletion verified => Sys2Proof.Machine.execPageCompletion verified s
  | .requestFrame opens chars bits => Sys2Proof.Machine.execRequestFrame opens chars bits s
  | .fetchFrame head answers clocks => Sys2Proof.Machine.execFetchFrame head answers clocks s
  | .markClose => Sys2Proof.Machine.execMarkClose s
  | .linkHoldExpiry => Sys2Proof.Machine.execLinkHoldExpiry s
  | .sessionTimerExpiry => Sys2Proof.Machine.execSessionTimerExpiry s
  | .openSession => Sys2Proof.Machine.execOpenSession s
  | .closeSession => Sys2Proof.Machine.execCloseSession s
  | .keepSession => Sys2Proof.Machine.execKeepSession s
  | .readIdent => Sys2Proof.Machine.execReadIdent s
  | .readChannels => Sys2Proof.Machine.execReadChannels s
  | .readSense => Sys2Proof.Machine.execReadSense s
  | .readDoors => Sys2Proof.Machine.execReadDoors s
  | .readWarnings => Sys2Proof.Machine.execReadWarnings s
  | .readFaultSummary => Sys2Proof.Machine.execReadFaultSummary s
  | .readFault => Sys2Proof.Machine.execReadFault s
  | .readOdometer => Sys2Proof.Machine.execReadOdometer s
  | .readKFactor => Sys2Proof.Machine.execReadKFactor s
  | .readStopJournal => Sys2Proof.Machine.execReadStopJournal s
  | .takeClaim => Sys2Proof.Machine.execTakeClaim s
  | .giveClaim => Sys2Proof.Machine.execGiveClaim s
  | .writeKFactor => Sys2Proof.Machine.execWriteKFactor s
  | .unknownKind side => Sys2Proof.Machine.execUnknownKind side s
  | .adoptConfig => Sys2Proof.Machine.execAdoptConfig s
  | .ackWarnings => Sys2Proof.Machine.execAckWarnings s
  | .tripControl => Sys2Proof.Machine.execTripControl s
  | .clearFaults side => Sys2Proof.Machine.execClearFaults side s
  | .presetOdometer side => Sys2Proof.Machine.execPresetOdometer side s
  | .setKFactor => Sys2Proof.Machine.execSetKFactor s
  | .outputTest side => Sys2Proof.Machine.execOutputTest side s
  | .outputTestStop side => Sys2Proof.Machine.execOutputTestStop side s
  | .claimTakeRead start index => Sys2Proof.Machine.execClaimTakeRead start index s
  | .claimReleaseWrite claim value => Sys2Proof.Machine.execClaimReleaseWrite claim value s
  | .slotPost slot => Sys2Proof.Machine.execSlotPost slot s
  | .slotFree slot => Sys2Proof.Machine.execSlotFree slot s
  | .attnSet mask => Sys2Proof.Machine.execAttnSet mask s
  | .attnClear mask => Sys2Proof.Machine.execAttnClear mask s
  | .noticeClear high value => Sys2Proof.Machine.execNoticeClear high value s
  | .noticeEnable high value => Sys2Proof.Machine.execNoticeEnable high value s
  | .supvControlPeriod value => Sys2Proof.Machine.execSupvControlPeriod value s
  | .supvControlMode value => Sys2Proof.Machine.execSupvControlMode value s
  | .supvRefresh value => Sys2Proof.Machine.execSupvRefresh value s
  | .softRestart value => Sys2Proof.Machine.execSoftRestart value s
  | .portFaultClear offset value => Sys2Proof.Machine.execPortFaultClear offset value s
  | .windowWrite start index value => Sys2Proof.Machine.execWindowWrite start index value s

end Sys2Proof.Machine
end

