-- ==== Sys2Proof/Safety.lean ====
section
/-! DEFINITION. What claims about the KD31 speak of: the laws that every step keeps, and the frames, which
say what an event leaves as it was. -/

namespace Sys2Proof.Safety

open Sys2Proof.Machine

/-! ## Frames -/

/-- A notice is pending. -/
def noticeSet (s : State) (n : Notice) : Bool := s.win.notice.getLsbD n.bit

/-- No notice is cleared, and only those of the list may become pending. -/
def noticesKept (may : List Notice) (s t : State) : Prop :=
  ∀ n : Notice, (noticeSet s n = true → noticeSet t n = true) ∧
    (n ∉ may → noticeSet t n = noticeSet s n)

/-- A range of the window: its first address and its length. -/
abbrev Area := Nat × Nat

/-- The gauge image (R164). -/
def gaugeArea : Area := (0x1000, 64)
/-- The sense image (R164). -/
def senseArea : Area := (0x1040, 64)
/-- The door image (R164). -/
def doorArea : Area := (0x1080, 64)
/-- The output image (R164). -/
def outputArea : Area := (0x10C0, 64)
/-- The warning list image (R164). -/
def listArea : Area := (0x1100, 256)
/-- The stop journal image (R164). -/
def journalArea : Area := (0x1200, 256)
/-- The fault memory view (R164). -/
def faultArea : Area := (0x1400, 1024)

/-- The areas of all images but the gauge image. -/
def eventAreas : List Area := [senseArea, doorArea, outputArea, listArea, journalArea, faultArea]

/-- The result and detail bytes of the slot that a window operation in flight names, if any (R169). -/
def slotResultArea : WindowOp → List Area
  | .slot n => [(slotBase n + 3, 2)]
  | _ => []

/-- Every byte of window RAM outside the areas reads as before. -/
def ramKept (areas : List Area) (s t : State) : Prop :=
  ∀ a : Nat, (∀ r ∈ areas, a < r.1 ∨ r.1 + r.2 ≤ a) → ramRead t a = ramRead s a

/-- The state with its images and notices set aside. -/
def besideImages (s : State) : State := { s with win := { s.win with ram := [], notice := 0 } }

/-- The link with what an operation's result can change set aside: the reply buffer, a hold that ends with
it, and the fetch that waited for it. -/
def besideReply (l : WorkshopLink) : WorkshopLink :=
  { l with reply := .empty, hold := none, out := .undecided }

/-- The state with all that a warning's onset or return can reach set aside: images, notices, warnings,
lamps, the buzzer arbiter, the output test with the delivery of its result, the fault records and the
jobs that they enqueue. -/
def besideWarnings (s : State) : State :=
  { s with
    warn := { warnings := Vector.replicate 48 Warning.reset, nextNumber := 0, list := []
              handed := s.warn.handed }
    out := { lamps := Vector.replicate 16 Lamp.reset
             arbiter := { level := false, repeatTimer := none, current := none, pending := none }
             test := none, lastResult := .none, supervision := s.out.supervision }
    faults := { places := Vector.replicate 40 .free, overflow := 0, clear := s.faults.clear, viewEvents := 0 }
    store := { s.store with queue := [] }
    link := besideReply s.link
    win := { s.win with
      ram := [], notice := 0, slots := Vector.replicate 8 .free
      ops := { s.win.ops with test := .idle } } }

/-- As `besideWarnings`, with all that a motion change or a line's change can reach set aside too: the
Doorway Monitor, the Pulse Channel Unit, the channels' quick adopts and the save count. -/
def besideEvents (s : State) : State :=
  { besideWarnings s with
    sense := State.reset.sense
    door := State.reset.door
    pulse := State.reset.pulse
    analog := State.reset.analog
    dist := { s.dist with ticks := 0, watch := .armed } }

/-- No output test runs before or after, and no result was delivered. -/
def noDelivery (s t : State) : Prop :=
  t.out.test = none ∧ t.win.slots = s.win.slots ∧ t.win.ops = s.win.ops ∧ t.link = s.link

/-! ## The images, byte by byte (R176)

The bytes of an image from +1 on; what follows them is 0. Binary fields are little-endian (00_scope.md, Byte
order); the link reverses them (R162). -/

/-- A byte of a number. -/
def octet (n : Nat) : Byte := BitVec.ofNat 8 n
/-- A bit as a number. -/
def flag (x : Bool) : Nat := if x = true then 1 else 0
/-- The two bytes of a 16-bit field. -/
def two (n : Nat) : List Byte := [octet n, octet (n / 256)]
/-- The four bytes of a 32-bit field. -/
def four (n : Nat) : List Byte := [octet n, octet (n / 256), octet (n / 65536), octet (n / 16777216)]
/-- A signed 16-bit field as a number. -/
def signed (v : Int) : Nat := (BitVec.ofInt 16 v).toNat
/-- A decimal digit. -/
def digit (n k : Nat) : Nat := n / 10 ^ k % 10
/-- The five BCD bytes of an odometer value. -/
def bcdFive (n : Nat) : List Byte :=
  [octet (digit n 8), octet (16 * digit n 7 + digit n 6), octet (16 * digit n 5 + digit n 4),
   octet (16 * digit n 3 + digit n 2), octet (16 * digit n 1 + digit n 0)]
/-- The three BCD bytes of a trip meter's value. -/
def bcdThree (n : Nat) : List Byte :=
  [octet (16 * digit n 5 + digit n 4), octet (16 * digit n 3 + digit n 2), octet (16 * digit n 1 + digit n 0)]

/-- The codes of the speed status. -/
def speedCode : SpeedStatus → Nat
  | .valid => 0
  | .over => 1
  | .invalid => 2
/-- The codes of the motion state. -/
def motionCode : Motion → Nat
  | .unknown => 0
  | .standstill => 1
  | .moving => 2
/-- The codes of a channel's status. -/
def statusCode : ChannelStatus → Nat
  | .valid => 0
  | .held => 1
  | .invalid => 2
/-- The codes of a doorway's state. -/
def doorCode : DoorState → Nat
  | .unknown => 0
  | .closed => 1
  | .moving => 2
  | .opened => 3
  | .stalled => 4
  | .conflict => 5

/-- The value that a channel shows: 0x8000 while its status is INVALID (R62). -/
def shownNow (s : State) (c : Fin 6) : Int :=
  let x := s.analog.channels[c]
  if x.status = .invalid then -32768 else x.y.getD (-32768)
/-- The status that a channel shows: a sender that is not INVALID shows HELD during crank hold (R61). -/
def statusNow (s : State) (c : Fin 6) : ChannelStatus :=
  let x := s.analog.channels[c]
  if s.analog.crankHold = true ∧ c.val < 5 ∧ x.status ≠ .invalid then .held else x.status

/-- The swept value at gauge cycle `k` of a test (R68): L + (H - L) × p / 15, rounded to the nearest integer. A
quotient by 15 is never halfway between two. -/
def sweptAt (k : Nat) (low high : Int) : Int :=
  let m := k % 30
  let p : Nat := if m ≤ 15 then m else 30 - m
  low + (2 * ((high - low) * p) + 15) / 30

/-- The gauge image: with GAUGE_SWEEP running, the speeds and the senders' values are swept (R67, R68). -/
def gaugeBytes (s : State) : List Byte :=
  let p := s.pulse
  let sweep : Option Nat := s.out.test.bind (fun x => if x.pattern = .gaugeSweep then some x.cycles else none)
  let shown : Fin 6 → List Byte := fun c => two (signed (shownNow s c)) ++ [octet (statusCode (statusNow s c))]
  let channel : Fin 6 → List Byte := fun c =>
    match sweep with
    | none => shown c
    | some k =>
      if h : c.val < 5 then
        let values := (senderEntry s.image ⟨c.val, h⟩).table.map (·.2)
        two (signed (sweptAt k (values.headD 0) (values.getLastD 0))) ++ [3]
      else shown c
  let trip : Trip → List Byte := fun x => bcdThree x.value ++ [octet (flag x.running)]
  two p.raw ++
  two (match sweep with | some k => (sweptAt k 0 25000).toNat | none => p.displayed) ++
  [octet (speedCode p.status), octet (flag p.wireBroken + 2 * flag (!p.calValid)), octet (motionCode p.motion)] ++
  two (match sweep with | some k => (sweptAt k 0 5000).toNat | none => p.rpm) ++
  [octet (flag p.running),
   octet (flag s.analog.crankHold + 2 * flag (ignitionOn s) + 4 * flag sweep.isSome)] ++
  ((List.finRange 6).map channel).flatten ++
  bcdFive s.dist.live ++ [octet (flag s.dist.lost)] ++ trip s.dist.tripA ++ trip s.dist.tripB

/-- The sense image (R16). -/
def senseBytes (s : State) : List Byte :=
  let state : LineState → Nat := fun x =>
    match x with
    | .unknown => 0
    | .active => 1
    | .inactive => 2
    | .short => 3
    | .broken => 4
  let cls : Option RawClass → Nat := fun x =>
    match x with
    | none => 0
    | some .short => 1
    | some .closed => 2
    | some .opened => 3
    | some .broken => 4
  let role : Role → Nat := fun x =>
    match x with
    | .unused => 0
    | .ignition => 1
    | .general => 2
    | .kneel => 3
    | .ramp => 4
    | .stopRequest => 5
    | .parkingBrake => 6
    | .ackButton => 7
    | .switchClosed n => 8 + n.val
    | .openEnd n => 12 + n.val
    | .edge n => 16 + n.val
    | .emergency n => 20 + n.val
  [octet (flag (ignitionOn s))] ++
  (List.finRange 32).map (fun n =>
    octet (role (lineEntry s.image n).role + 32 * state s.sense.lines[n].debounced)) ++
  (List.finRange 16).map (fun k =>
    octet (cls (s.sense.lines[2 * k.val]).lastClass + 16 * cls (s.sense.lines[2 * k.val + 1]).lastClass))

/-- The door image (R86), with the running dwell of R80. -/
def doorBytes (s : State) : List Byte :=
  let d := s.door
  (List.finRange 4).map (fun n =>
    let x := d.doorways[n]
    octet (doorCode x.state + 8 * flag x.obstructed + 16 * flag x.emergency +
      128 * flag (doorwayPresent s.image n))) ++
  [octet (flag d.kneel + 2 * flag d.ramp + 4 * flag d.latch + 8 * flag d.dpermit),
   match d.cycle with
   | .outOfService => 0
   | .driving => 1
   | .arrived => 2
   | .atStop => 3
   | .departing => 4] ++
  four ((d.stop.map (fun o => o.record.sequence)).getD 0) ++
  two (match d.stop, d.cycle with
    | some o, .atStop => o.record.dwell
    | some o, .departing => o.lastClose
    | _, _ => 0)

/-- The output image (R116). -/
def outputBytes (s : State) : List Byte :=
  let o := s.out
  let burst : Option BurstClass → Nat := fun b =>
    match b with
    | none => 0
    | some .info => 1
    | some .caution => 2
  let look : Appearance → Nat := fun a =>
    match a with
    | .off => 0
    | .on => 1
    | .slow => 2
    | .fast => 3
  let owner : Owner → Nat := fun a =>
    match a with
    | .normal => 0
    | .fallback => 1
    | .test => 2
  let pattern : Pattern → Nat := fun p =>
    match p with
    | .lampWalk => 0
    | .allLamps => 1
    | .buzzer => 2
    | .gaugeSweep => 3
  let tested : Bool := o.test.any (fun x => decide (x.pattern = .buzzer) && x.buzzOn)
  o.lamps.toList.map (fun l => octet (look l.appearance + 4 * owner l.owner)) ++
  [octet (flag (o.arbiter.level || tested) + 2 * flag o.arbiter.repeatTimer.isSome +
    4 * burst (o.arbiter.current.map (·.cls)) + 16 * burst o.arbiter.pending)] ++
  (match o.test with
   | none => [0, 0]
   | some x => [octet (1 + 2 * flag (decide (x.side = .workshop)) + 4 * pattern x.pattern),
       octet ((x.duration.left + 99) / 100)]) ++
  (match o.lastResult with
   | .none => [0, 0]
   | .ok => [1, 0]
   | .aborted r => [2, match r with
     | .stopped => 1
     | .ignitionOff => 2
     | .motion => 3
     | .parkingBrake => 4
     | .stopWarning => 5
     | .claimReleased => 6
     | .sideGone => 7])

/-- The warning list image (R101). -/
def listBytes (s : State) : List Byte :=
  octet s.warn.list.length :: (s.warn.list.map (fun w =>
    let x := s.warn.warnings[w]
    let cls := match (warningDef s.image w).cls with
      | .stop => 0
      | .caution => 1
      | .info => 2
    let state := match x.state with
      | .inactive => 0
      | .pending => 1
      | .activeUnack => 2
      | .activeAck => 3
      | .latched => 4
    [octet w.val, octet (cls + 4 * state), octet (x.number.getD 0)] ++
      two (min (x.age / 100) 65535))).flatten

/-- The stop journal image (R87). -/
def journalBytes (s : State) : List Byte :=
  octet s.door.journal.length :: (s.door.journal.map (fun r =>
    four r.sequence ++ four r.openStamp.toNat ++ four r.closeStamp.toNat ++ bcdFive r.odometer ++ two r.dwell ++
      [octet r.mask.toNat, octet r.obstructions, r.flags])).flatten

/-- The first byte of a STORED place. -/
def recordHead (r : FaultRecord) : Byte :=
  octet (1 + 4 * flag r.active + 8 * speedCode r.frame.speedStatus + 32 * statusCode r.frame.coolantStatus)
/-- The 24 bits of a doorway summary. -/
def doorwayBits (r : FaultRecord) : Nat :=
  let six : DoorSummary → Nat := fun x =>
    flag x.present + 2 * doorCode x.state + 16 * flag x.obstructed + 32 * flag x.emergency
  six r.frame.doorways[0] + 64 * six r.frame.doorways[1] + 4096 * six r.frame.doorways[2] +
    262144 * six r.frame.doorways[3]
/-- The 18 BCD digits of the first and the last odometer. -/
def bcdNine (m n : Nat) : List Byte :=
  [octet (16 * digit m 8 + digit m 7), octet (16 * digit m 6 + digit m 5), octet (16 * digit m 4 + digit m 3),
   octet (16 * digit m 2 + digit m 1), octet (16 * digit m 0 + digit n 8), octet (16 * digit n 7 + digit n 6),
   octet (16 * digit n 5 + digit n 4), octet (16 * digit n 3 + digit n 2), octet (16 * digit n 1 + digit n 0)]
/-- The 25 bytes of a place, each field's bytes as `order` lays them. -/
def placeLaid (order : List Byte → List Byte) : Place → List Byte
  | .free => [0, 0xFF] ++ List.replicate 23 0
  | .erasing _ => [2, 0xFF] ++ List.replicate 23 0
  | .stored r =>
    [recordHead r, octet r.code.val, r.source, octet r.count, octet r.aging] ++
      bcdNine r.firstOdometer r.lastOdometer ++ order (two r.frame.speed) ++ order (two r.frame.rpm) ++
      order (two (signed r.frame.supply)) ++ order (two (signed r.frame.coolant)) ++
      order [octet (doorwayBits r), octet (doorwayBits r / 256), octet (doorwayBits r / 65536)]

/-- The fault memory view (R137): 3 bytes, and the 40 places. -/
def faultBytes (s : State) : List Byte :=
  [octet (recordCount s), octet s.faults.overflow, octet (flag s.faults.clear.isSome)] ++
    (s.faults.places.toList.map (placeLaid id)).flatten

/-- An image shows these bytes, and 0 past their end. -/
def imageShows (area : Area) (bytes : List Byte) (t : State) : Prop :=
  ∀ k : Nat, k < area.2 - 2 → ramRead t (area.1 + 1 + k) = bytes.getD k 0

/-- An image is rewritten once (R172, R176): the lead generation goes up by one, the trail equals it, and the bytes
between show the content. -/
def imageWritten (area : Area) (bytes : List Byte) (s t : State) : Prop :=
  ramRead t area.1 = ramRead s area.1 + 1 ∧ ramRead t (area.1 + (area.2 - 1)) = ramRead t area.1 ∧
  imageShows area bytes t

/-! ## What the window reads, byte by byte (R164, R165, R176) -/

/-- The notices in the order of their bits (R173, R176). -/
def noticeOrder : List Notice :=
  [.slotDone, .warningsChanged, .doorsChanged, .gaugeCycle, .stopRecorded, .faultMemoryChanged, .workshop,
   .claimChanged, .supervision, .portFault, .store, .ignition, .outputTest]

/-- The byte of these bits, bit 0 first. -/
def bits (l : List Bool) : Byte := octet (l.foldr (fun b n => flag b + 2 * n) 0)

/-- The port words (R165, R176); what follows them is 0. An empty port-fault capture shows the address 0: DESIGN
CHOICE, log entry 10. -/
def portBytes (s : State) : List Byte :=
  let v := s.out.supervision
  let source := match s.win.source with
    | .stored => 0
    | .adopted => 1
    | .defaults => 2
  let stage := match v.stage with
    | .off => 0
    | .watching => 1
    | .warned => 2
    | .fallback => 3
  let pending := noticeOrder.map (noticeSet s)
  let enabled := (List.range 13).map s.win.enable.getLsbD
  let runState := flag s.win.softCause + 2 * source + 8 * flag (ignitionOn s) + 16 * stage +
    64 * flag v.occurred + 128 * flag (decide (s.store.notRetained ≠ []))
  [0x31, 0x4B, 0x01, 0, octet runState, 0, bits (s.win.attention.toList.map Option.isSome), 0, 0, 0,
   bits (pending.take 8), bits (pending.drop 8), 0, 0, bits (enabled.take 8), bits (enabled.drop 8),
   octet v.period, octet (flag v.resets), 0, 0] ++
  two ((s.win.capture.map BitVec.toNat).getD 0) ++ [octet s.win.faultCount, octet (flag s.win.capture.isSome)]

/-- The areas that read as window RAM holds them: the lamp requests, the staging area and the images (R164). -/
def ramAreas : List Area :=
  [(0x0300, 16), (0x0400, 2048), gaugeArea, senseArea, doorArea, outputArea, listArea, journalArea, faultArea]

/-- What each address of the window reads, taking nothing (R164): the port words, the holders of the claims (R167),
the slots with the codes of their states (R168, R177), the areas of window RAM, and 0 elsewhere. -/
def windowByte (s : State) (a : Nat) : Byte :=
  let holder : Holder → Byte := fun h =>
    match h with
    | .free => 0
    | .window => 1
    | .workshop => 2
  let state : SlotState → Byte := fun x =>
    match x with
    | .free => 0
    | .posted => 1
    | .taken => 2
    | .done => 3
  if a < 0x0020 then (portBytes s).getD a 0
  else if a < 0x0024 then
    holder (if a = 0x0020 then s.win.claims.faults else if a = 0x0021 then s.win.claims.odometer
      else if a = 0x0022 then s.win.claims.config else s.win.claims.outputs)
  else if 0x0100 ≤ a ∧ a < 0x0300 then
    if a % 64 = 0 then (s.win.slots[(a - 0x0100) / 64]?.map state).getD 0 else ramRead s a
  else if ramAreas.any (fun r => decide (r.1 ≤ a) && decide (a < r.1 + r.2)) then ramRead s a
  else 0

/-! ## Consequences, takes and answers -/

/-- What the consequences of judged warnings write: their images, and the result of a test that a STOP onset
aborts (R98). -/
def warningReach (s t : State) : Prop :=
  ramKept ([outputArea, listArea, faultArea] ++ slotResultArea s.win.ops.test) s t ∧
  noticesKept [.warningsChanged, .faultMemoryChanged, .outputTest, .slotDone] s t ∧
  (s.out.test = none → noDelivery s t)

/-- What the consequences of a line's or a motion's change write (R14, R27). -/
def eventReach (s t : State) : Prop :=
  ramKept (eventAreas ++ slotResultArea s.win.ops.test) s t ∧
  noticesKept [.warningsChanged, .faultMemoryChanged, .outputTest, .slotDone, .doorsChanged, .stopRecorded,
    .ignition] s t ∧
  (s.out.test = none → noDelivery s t)

/-- An object's job asked for: at the tail, unless it waits already (R141). -/
def addJob (q : List Object) (o : Object) : List Object := if o ∈ q then q else q ++ [o]

/-- At the timer step `i`, the next of the request engine, slot `n` is the lowest-numbered slot that is due,
and it holds a request of a kind (R169). -/
def takeDue (s : State) (i : Nat) (n : Fin 8) (kind : Byte) : Prop :=
  i = nextInstant Config.stepPeriod s.win.lastTake s.time.now ∧ slotByte s n 1 = kind ∧
  s.win.slots[n] = .posted ∧ (∃ a, s.win.attention[n] = some a ∧ a < i) ∧
  ∀ m : Fin 8, m < n → s.win.slots[m] = .posted → ∀ a, s.win.attention[m] = some a → i ≤ a

/-- The state `mid` with slot `n` taken at `i` and left in a slot state. -/
def takenAt (i : Nat) (n : Fin 8) (st : SlotState) (mid : State) : State :=
  { mid with
    time := { mid.time with now := i }
    win := { mid.win with
      lastTake := i
      slots := mid.win.slots.set n.val st n.isLt
      attention := mid.win.attention.set n.val none n.isLt } }

/-- The request of slot `n` completes at its take: the effects are those of `mid`, the slot is DONE with its
result and detail, and SLOT_DONE is set (R169). -/
def slotCompletes (s t mid : State) (i : Nat) (n : Fin 8) (result detail : Byte) (areas : List Area)
    (may : List Notice) : Prop :=
  besideImages t = besideImages (takenAt i n .done mid) ∧
  (s.win.ram.wf → slotByte t n 3 = result ∧ slotByte t n 4 = detail) ∧ noticeSet t .slotDone = true ∧
  ramKept ((slotBase n + 3, 2) :: areas) s t ∧ noticesKept (.slotDone :: may) s t

/-- The request of slot `n` is taken by its owner: the effects are those of `mid`, the slot is TAKEN, with the result
0xFF and the detail 0 (R177), and the kind's window operation in flight names it (R169). -/
def slotInFlight (s t mid : State) (i : Nat) (n : Fin 8) (k : Operation) (areas : List Area)
    (may : List Notice) : Prop :=
  besideImages t = besideImages (setWindowOp k (.slot n) (takenAt i n .taken mid)) ∧
  (s.win.ram.wf → slotByte t n 3 = 0xFF ∧ slotByte t n 4 = 0) ∧
  ramKept ((slotBase n + 3, 2) :: areas) s t ∧ noticesKept may s t

/-- A request for a service is buffered, with a payload of the length that the service takes, and the session
is OPEN (R154). -/
def requested (s : State) (r : Request) (code : Byte) (length : Nat) : Prop :=
  s.link.request = some r ∧ r.payload[0]? = some code ∧ r.payload.length = length ∧ s.link.session = true

/-- The state `mid` with the buffered request taken at its instant, and the reply set aside. -/
def servedAt (r : Request) (mid : State) : State :=
  { mid with
    time := { mid.time with now := linkTakeInstant r.acceptedAt mid.time.now }
    link := besideReply { mid.link with request := none } }

/-- The link's take of a request: the effects are those of `mid`, and the reply buffer holds a reply. -/
def linkServes (s t mid : State) (r : Request) (reply : Reply) (areas : List Area) (may : List Notice) :
    Prop :=
  besideImages { t with link := besideReply t.link } = besideImages (servedAt r mid) ∧
  t.link.reply = reply ∧ ramKept areas s t ∧ noticesKept may s t

/-- A reply with its result and data (R159): any hold has ended. -/
def linkAnswers (s t mid : State) (r : Request) (code result : Byte) (data : List Byte) (areas : List Area)
    (may : List Notice) : Prop :=
  linkServes s t mid r (.ready r.tag ([code, result] ++ data)) areas may ∧ t.link.hold = none

/-- What a close of the session does (R157), but for the reply buffer. -/
def sessionClosed (s t : State) : Prop :=
  t.link.session = false ∧ t.link.sessionTimer = none ∧ t.link.request = none ∧ t.link.hold = none ∧
  (∀ k : Claim, t.win.claims.holder k =
    if s.win.claims.holder k = .workshop then .free else s.win.claims.holder k) ∧
  ((∃ k : Claim, s.win.claims.holder k = .workshop) → noticeSet t .claimChanged = true) ∧
  ((∀ k : Claim, s.win.claims.holder k ≠ .workshop) →
    noticeSet t .claimChanged = noticeSet s .claimChanged) ∧
  noticeSet t .workshop = true ∧
  (∀ x, s.out.test = some x → x.side = .workshop → t.out.test = none ∧ t.out.lastResult = .aborted .sideGone) ∧
  (∀ x, s.out.test = some x → x.side = .window → t.out = s.out) ∧
  (s.out.test = none → t.out = s.out) ∧
  t.sense = s.sense ∧ t.pulse = s.pulse ∧ t.dist = s.dist ∧ t.analog = s.analog ∧ t.door = s.door ∧
  t.warn = s.warn ∧ t.faults = s.faults ∧ t.store = s.store ∧ t.image = s.image ∧ t.pending = s.pending ∧
  t.win.slots = s.win.slots ∧ t.win.ops = s.win.ops ∧ t.win.attention = s.win.attention ∧
  ramKept [outputArea] s t ∧ noticesKept [.claimChanged, .workshop, .outputTest] s t

/-! ## Records, the stop cycle and results -/

/-- A new record for a warning (R129), as the places, the overflow count and the queue of jobs after it: in the
lowest FREE place, else in place of the PASSIVE record of the highest aging, then the lowest count, then the
lowest first odometer, then the lowest place, else dropped. The record holds the values of R127. -/
def recordMade (s : State) (w : Fin 48) (places : Vector Place 40) (overflow : Nat) (queue : List Object) :
    Prop :=
  let made : Place := .stored
    { code := w, source := (warningDef s.image w).code, active := true, count := 1, aging := 0
      firstOdometer := s.dist.live, lastOdometer := s.dist.live
      frame :=
        { speed := s.pulse.raw, speedStatus := s.pulse.status, rpm := s.pulse.rpm, supply := shownValue s 5
          coolant := shownValue s 1, coolantStatus := shownStatus s 1
          doorways := Vector.ofFn fun n =>
            { present := doorwayPresent s.image n, state := s.door.doorways[n].state
              obstructed := s.door.doorways[n].obstructed, emergency := s.door.doorways[n].emergency } } }
  let old := s.faults
  (∀ i : Fin 40, old.places[i] = .free → (∀ j : Fin 40, j < i → old.places[j] ≠ .free) →
    places = old.places.set i.val made i.isLt ∧ overflow = old.overflow ∧
    queue = addJob (addJob s.store.queue (.place i)) .header) ∧
  (∀ (i : Fin 40) (r : FaultRecord), (∀ j : Fin 40, old.places[j] ≠ .free) →
    old.places[i] = .stored r → r.active = false →
    (∀ (j : Fin 40) (q : FaultRecord), old.places[j] = .stored q → q.active = false → j ≠ i →
      q.aging < r.aging ∨ (q.aging = r.aging ∧
        (r.count < q.count ∨ (r.count = q.count ∧
          (r.firstOdometer < q.firstOdometer ∨ (r.firstOdometer = q.firstOdometer ∧ i < j)))))) →
    places = old.places.set i.val made i.isLt ∧ overflow = old.overflow ∧
    queue = addJob s.store.queue (.place i)) ∧
  ((∀ i : Fin 40, old.places[i] ≠ .free) →
    (∀ (i : Fin 40) (q : FaultRecord), old.places[i] = .stored q → q.active = true) →
    places = old.places ∧ overflow = min (old.overflow + 1) 255 ∧
    queue = if old.overflow < 255 then addJob s.store.queue .header else s.store.queue)

/-- No place holds a STORED record of a warning. -/
def unrecorded (s : State) (w : Fin 48) : Prop :=
  ∀ (i : Fin 40) (q : FaultRecord), s.faults.places[i] = .stored q → q.code ≠ w

/-- Re-entry (R136) for the warnings of a list, in its order: each that lies in the scope, has record yes and has
no STORED record gets a new one. The jobs enter the queue record by record: log entry 48. -/
def reentered (scope : Option (Fin 48)) : List (Fin 48) → State → State → Prop
  | [], s, t => t = s
  | w :: rest, s, t => ∃ (places : Vector Place 40) (overflow : Nat) (queue : List Object),
    ((scope = none ∨ scope = some w) ∧ (warningDef s.image w).record = true ∧ unrecorded s w →
      recordMade s w places overflow queue) ∧
    (¬ ((scope = none ∨ scope = some w) ∧ (warningDef s.image w).record = true ∧ unrecorded s w) →
      places = s.faults.places ∧ overflow = s.faults.overflow ∧ queue = s.store.queue) ∧
    reentered scope rest
      { s with
        faults := { s.faults with places := places, overflow := overflow }
        store := { s.store with queue := queue } } t

/-- A further occurrence of a code that has one STORED record (R128): counted into it, with the job of its place
where that changed it (R131). -/
def recordCounted (s : State) (w : Fin 48) (places : Vector Place 40) (overflow : Nat) (queue : List Object) :
    Prop :=
  ∀ (i : Fin 40) (r : FaultRecord), s.faults.places[i] = .stored r → r.code = w →
    (∀ (j : Fin 40) (q : FaultRecord), s.faults.places[j] = .stored q → q.code = w → j = i) →
    let counted : FaultRecord :=
      { r with count := min (r.count + 1) 255, lastOdometer := s.dist.live, active := true, aging := 0 }
    places = s.faults.places.set i.val (.stored counted) i.isLt ∧ overflow = s.faults.overflow ∧
    queue = if counted = r then s.store.queue else addJob s.store.queue (.place i)

/-- The occurrences of the onsets of a list, one after the other: each with record yes is counted into the record
of its code or makes a new one (R128, R129). The jobs enter the queue record by record: log entry 48. -/
def occurred : List (Fin 48) → State → State → Prop
  | [], s, t => t = s
  | w :: rest, s, t => ∃ (places : Vector Place 40) (overflow : Nat) (queue : List Object),
    ((warningDef s.image w).record = true →
      recordCounted s w places overflow queue ∧ (unrecorded s w → recordMade s w places overflow queue)) ∧
    ((warningDef s.image w).record = false →
      places = s.faults.places ∧ overflow = s.faults.overflow ∧ queue = s.store.queue) ∧
    occurred rest
      { s with
        faults := { s.faults with places := places, overflow := overflow }
        store := { s.store with queue := queue } } t

/-- The places that recovery takes from the array (R139): PASSIVE records of the pages that pass, and of two pages
of one code the one with the greater last odometer, among equals the lower. -/
def placesRecovered (a : NvArray) (places : Vector Place 40) : Prop :=
  let kept : Fin 40 → Option FaultRecord := fun i =>
    if a.places[i].good placeCheck = true then a.places[i].content else none
  ∀ i : Fin 40,
    (kept i = none → places[i] = .free) ∧
    (∀ r, kept i = some r →
      let better : Fin 40 → Prop := fun j => j ≠ i ∧ ∃ q, kept j = some q ∧ q.code = r.code ∧
        (r.lastOdometer < q.lastOdometer ∨ (r.lastOdometer = q.lastOdometer ∧ j < i))
      ((∃ j, better j) → places[i] = .free) ∧
      ((∀ j, ¬ better j) → places[i] = .stored { r with active := false }))

/-- The result of a timed operation reaches the side that asked for it: the slot that the window's record still
names, or the reply that waits for it (R145, R155, R169). -/
def delivered (s t : State) (k : Operation) (side : Side) (code result : Byte) : Prop :=
  match side with
  | .window => ∀ n, s.win.ops.get k = .slot n →
    t.win.ops.get k = .idle ∧ t.win.slots[n] = .done ∧ noticeSet t .slotDone = true ∧
    (s.win.ram.wf → s.out.test = none ∨ s.win.ops.test ≠ .slot n →
      slotByte t n 3 = result ∧ slotByte t n 4 = 0)
  | .workshop => ∀ tag, s.link.reply = .waiting tag (some k) → t.link.reply = .ready tag [code, result]

/-- A present doorway is not closed: MOVING, OPEN or STALLED (R72). -/
def notClosed (t : State) (n : Fin 4) : Bool :=
  doorwayPresent t.image n &&
    (match t.door.doorways[n].state with
     | .moving => true
     | .opened => true
     | .stalled => true
     | .unknown => false
     | .closed => false
     | .conflict => false)

/-- The Doorway Monitor's state with its open record closed (R81): the dwell, the close stamp and the flag, and
the record at the end of a journal of at most 8. -/
def stopClosed (now : Nat) (dwell : OpenStop → Nat) (flag : BitVec 8) (d : DoorMonitor) : DoorMonitor :=
  match d.stop with
  | none => d
  | some o =>
    { d with
      stop := none
      journal := d.journal.drop (d.journal.length - 7) ++
        [{ o.record with
           dwell := dwell o, closeStamp := BitVec.ofNat 32 now, flags := o.record.flags ||| flag }] }

/-- What one judgement of the stop cycle makes of the Doorway Monitor's state `d`, where ignition, motion, odometer
and doorways stand as `t` has them (R76, R78, R80 to R82). -/
def cycleJudged (t : State) (d e : DoorMonitor) : Prop :=
  let now := t.time.now
  let standing := t.pulse.motion = .standstill
  let open_ := ∃ n : Fin 4, notClosed t n = true
  let closed := ∀ n : Fin 4, doorwayPresent t.image n = true → t.door.doorways[n].state = .closed
  let bit : Bool → Nat → Nat := fun b k => if b = true then k else 0
  let opened : OpenStop :=
    { record :=
        { sequence := if d.nextSequence = 0 then 1 else d.nextSequence
          openStamp := BitVec.ofNat 32 now, closeStamp := 0, odometer := t.dist.live, dwell := 0
          mask := BitVec.ofNat 4 (bit (notClosed t 0) 1 + bit (notClosed t 1) 2 + bit (notClosed t 2) 4 +
            bit (notClosed t 3) 8)
          obstructions := 0
          flags := BitVec.ofNat 8 (bit d.ramp 1 + bit d.kneel 2 +
            (if ∃ n : Fin 4, doorwayPresent t.image n = true ∧ t.door.doorways[n].emergency = true then 4
             else 0) + bit d.latch 8) }
      openedAt := now, lastClose := 0 }
  (ignitionOn t = false → e = match d.cycle with
    | .outOfService => d
    | .driving => { d with cycle := .outOfService, latch := false }
    | .arrived => { d with cycle := .outOfService, latch := false }
    | .atStop => { stopClosed now (fun o => o.record.dwell) 32 d with cycle := .outOfService, latch := false }
    | .departing => { stopClosed now (fun o => o.lastClose) 32 d with cycle := .outOfService, latch := false }) ∧
  (ignitionOn t = true → ¬ standing → e = match d.cycle with
    | .outOfService => { d with cycle := .driving }
    | .driving => d
    | .arrived => { d with cycle := .driving }
    | .atStop => { stopClosed now (fun o => o.record.dwell) 16 d with cycle := .driving }
    | .departing => { stopClosed now (fun o => o.lastClose) 0 d with cycle := .driving }) ∧
  (ignitionOn t = true → standing → open_ →
    (d.cycle = .outOfService ∨ d.cycle = .driving ∨ d.cycle = .arrived →
      e = { d with
        cycle := .atStop, stop := some opened, latch := false
        journal := if d.nextSequence = 0 then [] else d.journal
        nextSequence := if d.nextSequence = 0 then 2
          else if d.nextSequence = 4294967295 then 0 else d.nextSequence + 1 }) ∧
    (d.cycle = .atStop ∨ d.cycle = .departing → e = { d with cycle := .atStop })) ∧
  (ignitionOn t = true → standing → ¬ open_ →
    (d.cycle = .outOfService ∨ d.cycle = .driving ∨ d.cycle = .arrived → e = { d with cycle := .arrived }) ∧
    (d.cycle = .atStop → closed →
      e = { d with
        cycle := .departing, stop := d.stop.map (fun o => { o with lastClose := o.record.dwell }) }) ∧
    (d.cycle = .atStop → ¬ closed → e = d) ∧
    (d.cycle = .departing → e = d))

/-- A motion change's own marks in the Doorway Monitor (R84): the standstill age, and no maturity due. -/
def motionMarks (s t : State) (d : DoorMonitor) : DoorMonitor :=
  if t.pulse.motion = s.pulse.motion then d
  else { d with age := if t.pulse.motion = .standstill then some 0 else none, matureDue := false }

/-- A judgement of the stop cycle from the Doorway Monitor's state `d`, with what it shows: DOORS_CHANGED (R86),
STOP_RECORDED (R81) and the journal image (R87). -/
def cycleFollows (s t : State) (d : DoorMonitor) : Prop :=
  cycleJudged t d { t.door with dpermit := s.door.dpermit } ∧
  (t.door.cycle ≠ s.door.cycle ∨ t.door.latch ≠ s.door.latch → noticeSet t .doorsChanged = true) ∧
  (s.door.stop ≠ none → t.door.stop = none → noticeSet t .stopRecorded = true) ∧
  (t.door.journal ≠ s.door.journal → imageWritten journalArea (journalBytes t) s t)

/-- The combination of a doorway's lines (R72). -/
def comboJudged (t : State) (k : Fin 4) : Combo :=
  match roleState t (.switchClosed k), roleState t (.openEnd k) with
  | some .active, none => .shut
  | some .active, some .inactive => .shut
  | some .inactive, none => .full
  | some .inactive, some .active => .full
  | some .inactive, some .inactive => .travel
  | some .active, some .active => .both
  | _, _ => .fault

/-- A doorway that takes a combination (R72 to R74), with its travel limit in tenths of a second. -/
def doorwayMoved (now limit : Nat) (combo : Combo) (d : Doorway) : Doorway :=
  match combo with
  | .fault => { d with combo := .fault, state := .unknown, travel := none, conflict := none }
  | .shut => { d with combo := .shut, state := .closed, travel := none, conflict := none }
  | .full => { d with combo := .full, state := .opened, travel := none, conflict := none }
  | .travel =>
    if d.state = .moving ∨ d.state = .stalled then { d with combo := .travel, conflict := none }
    else { d with
      combo := .travel, state := .moving, conflict := none
      travel := some { left := 10 * limit, since := now } }
  | .both => { d with combo := .both, conflict := some { left := 50, since := now } }

/-! ## Sample groups -/

/-- The group that a channel holds for an event at `i`, as its sum and its count (R56): a sample taken at the instant
of an earlier gauge cycle, before that cycle, belongs to it; one taken at `i` itself does not. -/
def openGroup (s : State) (i : Nat) (c : Fin 6) : Nat × Nat :=
  let x := s.analog.channels[c]
  match x.late with
  | none => (x.sum, x.count)
  | some v => if s.analog.lateAt < i then (x.sum + v.toNat, x.count + 1) else (x.sum, x.count)

/-- The group that a gauge cycle at `i` opens: a sample taken at its own instant before it is the first one of the
next group (R56). -/
def nextGroup (s : State) (i : Nat) (c : Fin 6) : Nat × Nat :=
  match s.analog.channels[c].late with
  | none => (0, 0)
  | some v => if s.analog.lateAt < i then (0, 0) else (v.toNat, 1)

/-! ## The warnings judged at an event -/

/-- The truth that a source other than a gauge source gives, and the one kept for a gauge source (R90, R93), where
the blocks stand as `r` has them. -/
def truthOf (r : State) (kept : Bool) : Option Source → Prop
  | none => False
  | some (.senseActive l) => r.sense.lines[l].debounced = .active
  | some (.senseInactive l) => r.sense.lines[l].debounced = .inactive
  | some (.gaugeAbove _) => kept = true
  | some (.gaugeBelow _) => kept = true
  | some .doorOpenMoving => r.pulse.motion = .moving ∧ ∃ n : Fin 4, notClosed r n = true
  | some .rampMoving => r.pulse.motion = .moving ∧ r.door.ramp = true
  | some .kneelMoving => r.pulse.motion = .moving ∧ r.door.kneel = true
  | some (.doorStalled n) => doorwayPresent r.image n = true ∧ r.door.doorways[n].state = .stalled
  | some (.doorConflict n) => doorwayPresent r.image n = true ∧ r.door.doorways[n].state = .conflict
  | some (.doorEmergency n) => doorwayPresent r.image n = true ∧ r.door.doorways[n].emergency = true
  | some (.senderFault c) => r.analog.channels[c.castSucc].fault = true
  | some (.wireFault l) => r.sense.lines[l].debounced = .short ∨ r.sense.lines[l].debounced = .broken
  | some .speedSourceFault => r.pulse.wireBroken = true ∨ r.pulse.calValid = false
  | some .supplyLow => r.analog.supplyLow = true
  | some .storeFault => r.store.notRetained ≠ []
  | some .configDefaults => r.win.source = .defaults
  | some .supervisionFallback => r.out.supervision.stage = .fallback

/-- The qualifier holds (R94). -/
def qualified (r : State) : Qualifier → Prop
  | .always => True
  | .ignitionOn => r.sense.lines[0].debounced = .active
  | .engineRunning => r.pulse.running = true
  | .moving => r.pulse.motion = .moving

/-- The truth that a hand-over leaves a gauge source, and the one that any other source has (R91, R92): an INVALID
speed is judged as 0 (R37). -/
def gaugeJudged (d : WarningDef) (handed : Vector (Option Handed) 8) (kept : Bool) : Bool :=
  let judged : Fin 8 → (Int → Bool) → Bool := fun c f =>
    match handed[c] with
    | none => false
    | some h =>
      match h.status with
      | .channel .valid => f h.value
      | .channel .held => kept
      | .channel .invalid => false
      | .speed .invalid => f 0
      | .speed _ => f h.value
      | .none => f h.value
  match d.source with
  | some (.gaugeAbove c) => judged c (fun v =>
      if d.threshold < v then true else if v ≤ d.threshold - d.hysteresis then false else kept)
  | some (.gaugeBelow c) => judged c (fun v =>
      if v < d.threshold then true else if d.threshold + d.hysteresis ≤ v then false else kept)
  | _ => kept

/-- The condition of a warning is true: its source and its qualifier (R94). -/
def conditionIn (r : State) (w : Fin 48) (kept : Bool) : Bool :=
  sourceTruth r (warningDef r.image w).source kept && qualifierHolds r (warningDef r.image w).qualifier

/-- The warning has its onset where it is judged (R95). -/
def onsetIn (r : State) (u : WarningUnit) (w : Fin 48) : Bool :=
  let d := warningDef r.image w
  let x := u.warnings[w]
  d.enabled && conditionIn r w x.truth &&
    (decide (x.state = .latched) || (decide (x.state = .inactive) && decide (d.delay = 0)))

/-- The warning leaves the list where it is judged (R95). -/
def leavesIn (r : State) (u : WarningUnit) (w : Fin 48) : Bool :=
  let d := warningDef r.image w
  let x := u.warnings[w]
  d.enabled && !conditionIn r w x.truth &&
    (decide (x.state = .activeAck) || (decide (x.state = .activeUnack) && !d.latch))

/-- The warnings that have their onset, in ascending order of id. -/
def onsetsIn (r : State) (u : WarningUnit) : List (Fin 48) := (List.finRange 48).filter (onsetIn r u)

/-- The value of the onset counter after `k` onsets (R97). -/
def counterAfter (first k : Nat) : Nat := if k = 0 then first else min (first + k) 4294967295

/-- A warning that has become INACTIVE: no timer and no age (R95, R100). -/
def returned (x : Warning) : Warning := { x with state := .inactive, timer := none, age := 0, onsetAt := 0 }

/-- Every warning judged once (R94, R95, R97, R99), at an instant, in ascending order of id: from `u` to `v`, where
the blocks that the sources and the qualifiers read stand as `r` has them. -/
def warningsJudged (r : State) (now : Nat) (u v : WarningUnit) : Prop :=
  (∀ w : Fin 48,
    let d := warningDef r.image w
    let x := u.warnings[w]
    let y : Warning := { x with truth := sourceTruth r d.source x.truth }
    let before := ((onsetsIn r u).filter (fun z => decide (z < w))).length
    let onset : Warning :=
      { y with state := .activeUnack, timer := none, age := 0, onsetAt := now
               number := some (counterAfter u.nextNumber before) }
    v.warnings[w] =
      if d.enabled = false then x
      else match x.state, conditionIn r w x.truth with
        | .inactive, false => y
        | .inactive, true =>
          if d.delay = 0 then onset
          else { y with state := .pending, timer := some { left := 10 * d.delay, since := now } }
        | .pending, false => returned y
        | .pending, true => y
        | .activeUnack, false => if d.latch = true then { y with state := .latched } else returned y
        | .activeUnack, true => y
        | .activeAck, false => returned y
        | .activeAck, true => y
        | .latched, false => y
        | .latched, true => onset) ∧
  v.nextNumber = counterAfter u.nextNumber (onsetsIn r u).length ∧ v.handed = u.handed ∧
  (u.list.Nodup →
    (∀ w : Fin 48, w ∈ v.list ↔ onsetIn r u w = true ∨ (w ∈ u.list ∧ leavesIn r u w = false)) ∧
    v.list.filter (fun w => !onsetIn r u w) = u.list.filter (fun w => !onsetIn r u w && !leavesIn r u w))

/-- One warning acknowledged (R102), in the Warning Unit alone. -/
def acknowledged (w : Fin 48) (u : WarningUnit) : WarningUnit :=
  let x := u.warnings[w]
  match x.state with
  | .activeUnack => { u with warnings := u.warnings.set w.val { x with state := .activeAck } w.isLt }
  | .latched => { u with warnings := u.warnings.set w.val (returned x) w.isLt, list := u.list.erase w }
  | .inactive => u
  | .pending => u
  | .activeAck => u

/-! ## The buzzer and the records, as the warnings drive them -/

/-- The STOP repeating flag (R105). -/
def stopCalls (t : State) : Prop :=
  ∃ w : Fin 48, t.warn.warnings[w].state = .activeUnack ∧ (warningDef t.image w).cls = .stop ∧
    (warningDef t.image w).chime = true

/-- A burst that starts, with BUZZ on (R107). -/
def burstStarted (now : Nat) (c : BurstClass) (a : Arbiter) : Arbiter :=
  { a with level := true, current := some { cls := c, position := 0, timer := { left := 20, since := now } } }

/-- The repeat stops: BUZZ is off, and a pending burst starts (R106). -/
def repeatStopped (now : Nat) (a : Arbiter) : Arbiter :=
  let quiet : Arbiter := { level := false, repeatTimer := none, current := none, pending := none }
  match a.pending with
  | none => quiet
  | some c => burstStarted now c quiet

/-- The arbiter follows the STOP repeating flag (R106): the repeat starts with its on half and cuts a burst, the
pending one is kept; or it stops; or nothing changes. -/
def repeatFollows (now : Nat) (calls : Prop) (a b : Arbiter) : Prop :=
  (calls → a.repeatTimer = none →
    b = { a with level := true, repeatTimer := some { left := 50, since := now }, current := none }) ∧
  (calls → a.repeatTimer ≠ none → b = a) ∧
  (¬ calls → a.repeatTimer = none → b = a) ∧
  (¬ calls → a.repeatTimer ≠ none → b = repeatStopped now a)

/-- The arbiter takes a burst request (R107): it starts in silence, is kept where none is pending, replaces a pending
burst of a lower class, and merges into any other. -/
def burstTaken (now : Nat) (c : BurstClass) (a b : Arbiter) : Prop :=
  (a.repeatTimer = none → a.current = none → b = burstStarted now c a) ∧
  (a.repeatTimer ≠ none ∨ a.current ≠ none →
    b = { a with pending := if a.pending = some .caution then some .caution else some c })

/-- What warnings that leave their states without an onset hand over: the end of the STOP repeating flag (R106),
where any of them `moved`, and the returns to INACTIVE of those that `left` (R98, R130), each with a record that
becomes PASSIVE. -/
def returnsHanded (s t : State) (now : Nat) (moved : Prop) (left : Fin 48 → Prop) : Prop :=
  (moved → s.out.arbiter.repeatTimer ≠ none → ¬ stopCalls t →
    t.out.arbiter = repeatStopped now s.out.arbiter) ∧
  (s.out.arbiter.repeatTimer ≠ none → ¬ moved ∨ stopCalls t → t.out.arbiter = s.out.arbiter) ∧
  (s.out.arbiter.repeatTimer = none → ¬ stopCalls s → t.out.arbiter = s.out.arbiter) ∧
  (∀ (w : Fin 48) (j : Fin 40) (q : FaultRecord), left w → (warningDef s.image w).record = true →
    s.faults.places[j] = .stored q → q.code = w →
    (∀ (k : Fin 40) (p : FaultRecord), s.faults.places[k] = .stored p → p.code = w → k = j) →
    t.faults.places[j] = .stored { q with active := false } ∧
    (q.active = true → Object.place j ∈ t.store.queue ∧ noticeSet t .faultMemoryChanged = true)) ∧
  (∀ j : Fin 40, (∀ (w : Fin 48) (q : FaultRecord), left w → (warningDef s.image w).record = true →
    s.faults.places[j] = .stored q → q.code ≠ w) → t.faults.places[j] = s.faults.places[j])

/-! ## Supervision -/

/-- What an entry to FALLBACK does (R124), as the state after it, `t`, against the state before it: the stage, the
HRSTn timer, the claims, the end of a window test, the lamps computed, and the warnings judged with
SUPERVISION_FALLBACK true (R93). The one appearance left out is that of a lamp whose source is WARNINGS where a STOP
onset of this event ends a workshop test. -/
def fallbackEntered (s t : State) : Prop :=
  let v := s.out.supervision
  t.out.supervision =
    { v with
      stage := .fallback, expected := 0x5A, progress := false, timer := none, occurred := true
      hrst := if v.resets = true ∨ v.hrst.isSome = true then some { left := 10, since := s.time.now }
        else none } ∧
  (∀ k : Claim, t.win.claims.holder k =
    if s.win.claims.holder k = .window then .free else s.win.claims.holder k) ∧
  ((∃ k : Claim, s.win.claims.holder k = .window) → noticeSet t .claimChanged = true) ∧
  noticeSet t .supervision = true ∧
  (∀ x, s.out.test = some x → x.side = .window →
    t.out.test = none ∧ t.out.lastResult = .aborted .sideGone ∧ noticeSet t .outputTest = true ∧
    ∀ n, s.win.ops.test = .slot n → t.win.slots[n] = .done ∧
      (s.win.ram.wf → slotByte t n 3 = 1 ∧ slotByte t n 4 = 7)) ∧
  (∀ m : Fin 16, (∀ x, t.out.test = some x → testAppearance x m = none) →
    let kept := lampNormal s.image m ≠ .hostRequest
    let source := if kept then lampNormal s.image m else lampFallback s.image m
    t.out.lamps[m].owner = (if kept then .normal else .fallback) ∧
    (source ≠ .warnings ∨ t.out.test = s.out.test ∨ (∀ x, s.out.test = some x → x.side = .window) →
      t.out.lamps[m].appearance = sourceAppearance s m source)) ∧
  warningsJudged t s.time.now s.warn t.warn ∧
  t.pulse = s.pulse ∧ t.door = s.door ∧ t.dist = s.dist ∧ t.sense = s.sense ∧ t.analog = s.analog ∧
  t.image = s.image ∧ t.pending = s.pending ∧ t.time = s.time ∧
  t.link.session = s.link.session ∧ t.link.request = s.link.request ∧ t.store.array = s.store.array ∧
  t.store.job = s.store.job ∧ t.win.attention = s.win.attention ∧ t.win.enable = s.win.enable ∧
  ramKept ([outputArea, listArea, faultArea] ++ slotResultArea s.win.ops.test) s t

/-! ## The active warning list -/

/-- The law of the list (R99): each warning at most once, and exactly those in ACTIVE_UNACK, ACTIVE_ACK or LATCHED;
ordered by class, STOP first, and within a class the latest onset first. Numbers are below the onset counter,
and are told apart until the counter has reached its last value (R97). -/
def listLaw (s : State) : Prop :=
  let rank : Fin 48 → Nat := fun w =>
    match (warningDef s.image w).cls with
    | .stop => 0
    | .caution => 1
    | .info => 2
  let number : Fin 48 → Nat := fun w => (s.warn.warnings[w].number).getD 0
  s.warn.list.Nodup ∧ (∀ w : Fin 48, w ∈ s.warn.list ↔ (s.warn.warnings[w].state).listed = true) ∧
  s.warn.nextNumber ≤ 4294967295 ∧
  (∀ w ∈ s.warn.list, (s.warn.warnings[w].number).isSome = true ∧
    (number w < s.warn.nextNumber ∨ (number w = 4294967295 ∧ s.warn.nextNumber = 4294967295))) ∧
  s.warn.list.Pairwise (fun v w => rank v < rank w ∨
    (rank v = rank w ∧ (number w < number v ∨ (number w = 4294967295 ∧ number v = 4294967295))))

/-! ## Warnings after a full restart -/

/-- The condition of an enabled warning is true, where the state stands as `t` (R93, R94); a gauge source has no
truth before the first hand-over (R92). -/
def conditionAfter (t : State) (w : Fin 48) : Bool :=
  let d := warningDef t.image w
  d.enabled && sourceTruth t d.source false && qualifierHolds t d.qualifier

/-- The warnings with an onset at the end of a full restart, in ascending order of id (R94, R95). -/
def restartOnsets (t : State) : List (Fin 48) :=
  (List.finRange 48).filter (fun w => conditionAfter t w && decide ((warningDef t.image w).delay = 0))

/-- The Warning Unit at the end of a full restart (R94, R95, R97): each enabled warning whose condition is true has
its onset, or is PENDING where its delay is not 0, and every other is INACTIVE. -/
def warningsRestarted (t : State) : Prop :=
  (∀ w : Fin 48,
    let d := warningDef t.image w
    let x := t.warn.warnings[w]
    x.truth = (d.enabled && sourceTruth t d.source false) ∧
    (conditionAfter t w = false → x.state = .inactive ∧ x.timer = none ∧ x.number = none ∧ x.age = 0) ∧
    (conditionAfter t w = true → d.delay ≠ 0 →
      x.state = .pending ∧ x.timer = some { left := 10 * d.delay, since := 0 } ∧ x.number = none) ∧
    (conditionAfter t w = true → d.delay = 0 →
      x.state = .activeUnack ∧ x.timer = none ∧ x.age = 0 ∧
      x.number = some (1 + ((restartOnsets t).filter (fun v => decide (v < w))).length))) ∧
  t.warn.nextNumber = 1 + (restartOnsets t).length ∧ listLaw t ∧ ∀ c : Fin 8, t.warn.handed[c] = none

/-- The buzzer arbiter at the end of a full restart: silent, then with what the onsets ask of it in ascending order
of id (R98, R105 to R107). -/
def arbiterRestarted (t : State) : Prop :=
  let chimes := (restartOnsets t).filter (fun w => (warningDef t.image w).chime)
  let stops := chimes.filter (fun w => decide ((warningDef t.image w).cls = .stop))
  let bursts := chimes.filter (fun w => decide ((warningDef t.image w).cls ≠ .stop))
  let burst : Fin 48 → BurstClass := fun w => if (warningDef t.image w).cls = .caution then .caution else .info
  let highest : List (Fin 48) → Option BurstClass := fun l =>
    if .caution ∈ l.map burst then some .caution else (l.head?).map (fun _ => .info)
  (stops = [] → bursts = [] →
    t.out.arbiter = { level := false, repeatTimer := none, current := none, pending := none }) ∧
  (∀ b rest, stops = [] → bursts = b :: rest →
    t.out.arbiter = { level := true, repeatTimer := none, pending := highest rest
                      current := some { cls := burst b, position := 0, timer := { left := 20, since := 0 } } }) ∧
  (∀ f, stops.head? = some f →
    t.out.arbiter = { level := true, repeatTimer := some { left := 50, since := 0 }, current := none
                      pending := highest (if (bursts.head?).any (fun b => decide (b < f)) then bursts.tail
                        else bursts) })

/-! ## Readings -/

/-- The services that read: the command, its code, the payload length that it takes, and what it answers. -/
def reader : Instr → Option (Byte × Nat × (Request → State → Result ⊕ List Byte))
  | .keepSession => some (3, 1, fun _ _ => .inr [])
  | .readIdent => some (4, 1, fun _ s => .inr (identData s))
  | .readChannels => some (5, 1, fun _ s => .inr (channelsData s))
  | .readSense => some (6, 1, fun _ s => .inr (senseData s))
  | .readDoors => some (7, 1, fun _ s => .inr (doorsData s))
  | .readWarnings => some (8, 2, fun r s => warningsData (param r.payload 1).toNat s)
  | .readFaultSummary => some (9, 1, fun _ s => .inr (summaryData s))
  | .readFault => some (10, 2, fun r s => faultData (param r.payload 1).toNat s)
  | .readOdometer => some (11, 1, fun _ s => .inr (odometerData s))
  | .readKFactor => some (12, 1, fun _ s => .inr (kFactorData s))
  | .readStopJournal => some (13, 2, fun r s => journalData (param r.payload 1).toNat s)
  | _ => none

/-- The services of the link: the command, its code and the payload length that it takes (R178). -/
def service : Instr → Option (Byte × Nat)
  | .openSession => some (1, 1)
  | .closeSession => some (2, 1)
  | .takeClaim => some (14, 2)
  | .giveClaim => some (15, 2)
  | .clearFaults .workshop => some (16, 3)
  | .presetOdometer .workshop => some (17, 6)
  | .writeKFactor => some (18, 3)
  | .outputTest .workshop => some (19, 3)
  | .outputTestStop .workshop => some (20, 1)
  | c => (reader c).map (fun x => (x.1, x.2.1))

/-! ## Laws that every step keeps -/

/-- Window RAM is in its one canonical form, and each object has at most one job in the queue (R141). -/
def storageLaw (s : State) : Prop := s.win.ram.wf ∧ s.store.queue.Nodup

/-- The configuration in force passes the 17 validation items: it is a stored image that recovery validated (R147),
the default image (R180) or one that passed the check of its adoption (R171, R179). -/
def imageLaw (s : State) : Prop := firstFailing s.image = none

/-- The value of a captured odometer ring content lies between the retained and the live value. -/
def capturedBetween (low high : Nat) : Captured → Prop
  | .ring _ slot => ∃ v, bcdValue slot.value = some v ∧ low ≤ v ∧ v ≤ high
  | _ => True

/-- The odometer's law (R46): retained ≤ live ≤ 9999999.99 km, with a save in flight between the two. -/
def odometerLaw (s : State) : Prop :=
  s.dist.retained ≤ s.dist.live ∧ s.dist.live ≤ 999999999 ∧
  ∀ j, s.store.job = some j → capturedBetween s.dist.retained s.dist.live j.content

/-- At most one STORED record for each code (R129). -/
def recordLaw (s : State) : Prop :=
  ∀ (i j : Fin 40) (p q : FaultRecord),
    s.faults.places[i] = .stored p → s.faults.places[j] = .stored q → p.code = q.code → i = j

/-- The overflow count stays at 255 once it has reached it (R129), and so do its copies in the fault header's page
and in a job that writes it (R131, R142). -/
def overflowLaw (s : State) : Prop :=
  s.faults.overflow ≤ 255 ∧ s.store.array.header.content.2 ≤ 255 ∧
  ∀ j records overflow, s.store.job = some j → j.content = .header records overflow → overflow ≤ 255

/-- A claim is held by WORKSHOP only while the session is OPEN (R157). -/
def claimLaw (s : State) : Prop := ∀ k : Claim, s.win.claims.holder k = .workshop → s.link.session = true

/-- SENSE0 carries the role IGNITION (R13). -/
def ignitionWired (s : State) : Prop := (lineEntry s.image 0).role = .ignition

/-- What holds while an output test runs (R118): ignition ON, STANDSTILL, PARKING_BRAKE ACTIVE, no STOP warning in
ACTIVE_UNACK, and its side holds OUTPUTS. -/
def testLaw (s : State) : Prop :=
  ignitionWired s ∧
  ∀ x, s.out.test = some x →
    ignitionOn s = true ∧ s.pulse.motion = .standstill ∧ roleActive s .parkingBrake = true ∧
    (∀ w : Fin 48, s.warn.warnings[w].state = .activeUnack → (warningDef s.image w).cls ≠ .stop) ∧
    s.win.claims.outputs = sideHolder x.side

/-- DPERMIT is asserted only while it is judged so (R85): ignition ON, and a mature standstill or an INVALID
source with PARKING_BRAKE ACTIVE. The standstill age is held only in STANDSTILL and stays at 200 (R84). -/
def permitLaw (s : State) : Prop :=
  ignitionWired s ∧
  (∀ a, s.door.age = some a → a ≤ 200 ∧ s.pulse.motion = .standstill) ∧
  (s.door.dpermit = true →
    ignitionOn s = true ∧
      (mature s = true ∨ (sourceValid s.pulse = false ∧ roleActive s .parkingBrake = true)))

end Sys2Proof.Safety
end

