-- ==== Sys2Proof/Certificates/Slice0/Obligations.lean ====
section
/-! DEFINITION. The statements for the provers, each over every state: what each command does, what it leaves
as it was, and the laws that every step keeps. -/

section ObligationStatements

open Sys2Proof Sys2Proof.Machine Sys2Proof.Safety

/-! ## The step, time and reset -/

/-- A step runs the command at the front of the queue on the state with the queue's rest. The queue is the
model's form of "each event is taken whole"; log entry 1. -/
def Obligations.StepRunsFrontCommand : Prop :=
  ∀ (s : State) (c : Instr) (rest : List Instr), s.pending = c :: rest →
    step s = exec c { s with pending := rest }

/-- On an empty queue one microsecond passes, unless an event of the part itself is due. The model's choice:
log entry 1. -/
def Obligations.EmptyQueueIdles : Prop :=
  ∀ s : State, s.pending = [] →
    (ownEventDue s = true → step s = .next s) ∧
    (ownEventDue s = false →
      step s = .next { s with time := { s.time with now := s.time.now + 1 } })

/-- What a full restart leaves, whatever the state before it (R1, R5, R17, R34, R55, R71, R108, R122, R149, R175),
with the trips (R50), the places and the overflow count of the Fault Memory (R139), the marks (R147), and the
warnings, the buzzer and the records after the onsets at its end (R94, R139). That these onsets belong to the same
event is log entry 15, the SUPPLY of their freeze frames log entry 14, that the place's job of a new record comes
before the header's, record by record, log entries 29 and 48; an overflow count above 255 in the header's page is left out. -/
def Obligations.FullRestartValues : Prop :=
  ∀ s : State, ∃ t, exec .fullRestart s = .next t ∧
    t.time.now = 0 ∧ t.pending = s.pending ∧ t.store.array = s.store.array ∧ t.store.job = none ∧
    (∀ n : Fin 32, t.sense.lines[n] =
      { debounced := .unknown, candidate := none, run := 0, lastClass := none }) ∧
    (t.pulse.lastEdge = 0 ∧ t.pulse.count = 0 ∧ t.pulse.reference = none ∧ t.pulse.raw = 0 ∧
      t.pulse.displayed = 0 ∧ t.pulse.status = .invalid ∧ t.pulse.motion = .unknown ∧
      t.pulse.standstillAt = none ∧ t.pulse.wireBroken = false ∧ t.pulse.wireRun = 0 ∧ t.pulse.acc = 0 ∧
      t.pulse.engineEdge = 0 ∧ t.pulse.engineCount = 0 ∧ t.pulse.engineRef = none ∧ t.pulse.rpm = 0 ∧
      t.pulse.running = false) ∧
    (let page := s.store.array.calibration
     t.pulse.calValid = page.good calibrationCheck ∧
      t.pulse.k = if page.good calibrationCheck = true then page.content else 0) ∧
    (let page := s.store.array.tripA
     t.dist.tripA = if page.good tripCheck = true then page.content else { value := 0, running := false }) ∧
    (let page := s.store.array.tripB
     t.dist.tripB = if page.good tripCheck = true then page.content else { value := 0, running := false }) ∧
    (∀ o : Object, o ∈ t.store.notRetained ↔
      match o with
      | .ring => ∀ i : Fin 8, ringValue s.store.array.ring[i] = none
      | .tripA => s.store.array.tripA.good tripCheck = false
      | .tripB => s.store.array.tripB.good tripCheck = false
      | .calibration => s.store.array.calibration.good calibrationCheck = false
      | .configuration => storedImage s.store.array.configuration = none
      | .header => False
      | .place _ => False) ∧
    (∀ c : Fin 6, t.analog.channels[c].status = .invalid ∧ t.analog.channels[c].y = none ∧
      t.analog.channels[c].fault = false ∧ t.analog.channels[c].hold = none) ∧
    t.analog.crankHold = false ∧ t.analog.supplyLow = false ∧
    (∀ n : Fin 4, t.door.doorways[n].state = .unknown ∧ t.door.doorways[n].obstructed = false ∧
      t.door.doorways[n].emergency = false ∧ t.door.doorways[n].travel = none ∧
      t.door.doorways[n].conflict = none) ∧
    (t.door.kneel = false ∧ t.door.ramp = false ∧ t.door.cycle = .outOfService ∧ t.door.stop = none ∧
      t.door.latch = false ∧ t.door.journal = [] ∧ t.door.nextSequence = 1 ∧ t.door.age = none ∧
      t.door.dpermit = false) ∧
    (∀ m : Fin 16, t.out.lamps[m] = { appearance := .off, owner := .normal, pin := false }) ∧
    t.out.test = none ∧ t.out.lastResult = .none ∧
    t.out.supervision = { period := 0, resets := false, stage := .off, expected := 0x5A, timer := none,
                          progress := false, occurred := false, hrst := none } ∧
    (t.link.inFrame = false ∧ t.link.request = none ∧ t.link.reply = .empty ∧ t.link.hold = none ∧
      t.link.session = false ∧ t.link.sessionTimer = none) ∧
    (∀ n : Fin 8, t.win.slots[n] = .free ∧ t.win.attention[n] = none) ∧
    (∀ k : Claim, t.win.claims.holder k = .free) ∧ (∀ k : Operation, t.win.ops.get k = .idle) ∧
    t.win.enable = 0 ∧ t.win.capture = none ∧ t.win.faultCount = 0 ∧ t.win.softCause = false ∧
    t.win.adoption = none ∧ t.dist.preset = none ∧ t.dist.kfactor = none ∧ t.faults.clear = none ∧
    (∀ a : Nat, a < 0x1000 → ramRead t a = 0) ∧
    noticeSet t .faultMemoryChanged = true ∧
    (noticeSet t .store = true ↔ t.store.notRetained ≠ []) ∧
    (match storedImage s.store.array.configuration with
     | some img => t.image = img ∧ t.win.source = .stored
     | none => t.image = defaultImage ∧ t.win.source = .defaults) ∧
    warningsRestarted t ∧ arbiterRestarted t ∧
    (let page := s.store.array.header
     page.content.2 ≤ 255 → ∃ places u, placesRecovered s.store.array places ∧
      occurred (restartOnsets t)
        { t with
          faults := { t.faults with
            places := places, overflow := if page.good headerCheck = true then page.content.2 else 0 }
          store := { t.store with queue := [] } } u ∧
      t.faults.places = u.faults.places ∧ t.faults.overflow = u.faults.overflow ∧
      t.store.queue = u.store.queue)

/-- The odometer recovered from the ring: the valid slot of the greatest value, the highest index among equals
(R48); with no valid slot, ODO_LOST (R49). The write count of a slot that passes its check with a value that is not
valid BCD is the model's choice, log entry 38. -/
def Obligations.FullRestartRecoversOdometer : Prop :=
  ∀ s : State, ∃ t, exec .fullRestart s = .next t ∧
    (∀ (i : Fin 8) (v : Nat), ringValue s.store.array.ring[i] = some v →
      (∀ (j : Fin 8) (w : Nat), ringValue s.store.array.ring[j] = some w → w < v ∨ (w = v ∧ j ≤ i)) →
      t.dist.live = v ∧ t.dist.retained = v ∧ t.dist.lost = false ∧ t.dist.ticks = 0 ∧
        t.dist.nextSlot = i + 1 ∧ Object.ring ∉ t.store.notRetained ∧
        ∀ j : Fin 8, t.dist.writeCounts[j] =
          if s.store.array.ring[j].good slotCheck = true then s.store.array.ring[j].content.count else 0) ∧
    ((∀ i : Fin 8, ringValue s.store.array.ring[i] = none) →
      t.dist.live = 0 ∧ t.dist.retained = 0 ∧ t.dist.lost = true ∧ t.dist.ticks = 0 ∧
        t.dist.nextSlot = 0 ∧ Object.ring ∈ t.store.notRetained ∧ Object.ring ∉ t.store.queue ∧
        ∀ j : Fin 8, t.dist.writeCounts[j] = 0)

/-! ## Sense lines and the timebase -/

/-- R6 whole: at every sense sample the last raw class of every line is its band. -/
def Obligations.RawClassAtEverySample : Prop :=
  ∀ (s : State) (ratios : Vector Sample 32) (wire : Bool) (inputs : Vector Sample 6),
    ∃ t, exec (.senseSample ratios wire inputs) s = .next t ∧
      ∀ n : Fin 32, t.sense.lines[n].lastClass = some
        (if (lineEntry s.image n).diagnosis = true then
          (if ratios[n].toNat ≤ 63 then .short else if ratios[n].toNat ≤ 399 then .closed
           else if ratios[n].toNat ≤ 799 then .opened else .broken)
         else if ratios[n].toNat ≤ 511 then .closed else .opened)

/-- The debouncing of a line at a sense sample (R7 to R10) with the sense image (R16, R176), that of the wire of
PULSE_V (R28) with the loss and the return of the speed source (R30, R32), at which the warnings are judged (R93 to
R95), and the parking-brake proxy (R31), the samples that the analog groups take, also at a gauge cycle's own
instant (R56), and the frame of the command. The lines come before the wire: log entry 4. -/
def Obligations.SenseSampleDebounces : Prop :=
  ∀ (s : State) (ratios : Vector Sample 32) (wire : Bool) (inputs : Vector Sample 6),
    ∃ t, exec (.senseSample ratios wire inputs) s = .next t ∧
      (∀ n : Fin 32,
        let e := lineEntry s.image n
        let l := s.sense.lines[n]
        let l' := t.sense.lines[n]
        let st := sampleState e.openedActive (rawClass e.diagnosis ratios[n])
        let aside := e.role = .unused ∨ (s.analog.crankHold = true ∧ (st = .short ∨ st = .broken))
        let run := if l.candidate = some st then l.run + 1 else 1
        let need := if st = .short ∨ st = .broken then max e.n 20 else e.n
        (aside → l'.debounced = l.debounced ∧ l'.candidate = l.candidate ∧ l'.run = l.run) ∧
        (¬ aside → st = l.debounced → l'.debounced = l.debounced ∧ l'.candidate = none ∧ l'.run = 0) ∧
        (¬ aside → st ≠ l.debounced → need ≤ run →
          l'.debounced = st ∧ l'.candidate = none ∧ l'.run = 0) ∧
        (¬ aside → st ≠ l.debounced → run < need →
          l'.debounced = l.debounced ∧ l'.candidate = some st ∧ l'.run = run)) ∧
      (let i := nextInstant Config.sensePeriod s.time.lastSense s.time.now
       let own := i % 100000 = 0 ∧ s.time.lastGauge ≠ i
       (∀ c : Fin 6,
         let g := openGroup s i c
         let x := t.analog.channels[c]
         (own → x.sum = g.1 ∧ x.count = g.2 ∧ x.late = some inputs[c]) ∧
         (¬ own → x.sum = g.1 + inputs[c].toNat ∧ x.count = g.2 + 1 ∧
           x.late = if s.analog.lateAt < i then none else s.analog.channels[c].late)) ∧
       (own → t.analog.lateAt = i) ∧ (¬ own → t.analog.lateAt = s.analog.lateAt) ∧
       besideEvents t = besideEvents { s with time := { s.time with now := i, lastSense := i } }) ∧
      (let p := s.pulse
       let i := t.time.now
       let w : Bool × Nat :=
         if wire = true ∧ s.analog.crankHold = true then (p.wireBroken, p.wireRun)
         else if wire = p.wireBroken then (p.wireBroken, 0)
         else if p.wireRun + 1 < 40 then (p.wireBroken, p.wireRun + 1)
         else (!p.wireBroken, 0)
       let before := !p.wireBroken && p.calValid
       let after := !w.1 && p.calValid
       let proxy : Motion := match roleState t .parkingBrake with
         | some .active => .standstill
         | some .inactive => .moving
         | _ => .unknown
       let braked := ∃ n : Fin 32, (lineEntry s.image n).role = .parkingBrake ∧
         t.sense.lines[n].debounced ≠ s.sense.lines[n].debounced
       let motion : Motion :=
         if before = true then (if after = true then p.motion else proxy)
         else if after = true then .unknown
         else if braked then proxy
         else p.motion
       let source : PulseUnit := match before, after with
         | true, false =>
           { p with raw := 0, displayed := 0, status := .invalid, count := 0, reference := none }
         | false, true => { p with count := 0, reference := none, lastEdge := BitVec.ofNat 32 i }
         | _, _ => p
       t.pulse =
         { source with
           wireBroken := w.1, wireRun := w.2, motion := motion
           standstillAt :=
             if before = false ∧ after = true then none
             else if motion = p.motion then p.standstillAt
             else if motion = .standstill then some i else none } ∧
       (before ≠ after → t.door.dpermit = permitJudged t)) ∧
      (t.analog.crankHold = s.analog.crankHold ∧ t.analog.supplyLow = s.analog.supplyLow ∧
        t.dist.watch = s.dist.watch) ∧
      (∀ c : Fin 6, t.analog.channels[c].y = s.analog.channels[c].y ∧
        t.analog.channels[c].status = s.analog.channels[c].status ∧
        t.analog.channels[c].hold = s.analog.channels[c].hold) ∧
      ((∀ n : Fin 32, t.sense.lines[n].debounced = s.sense.lines[n].debounced) →
        (sourceValid t.pulse = sourceValid s.pulse → t.warn = s.warn) ∧
        (sourceValid t.pulse ≠ sourceValid s.pulse → warningsJudged t t.time.now s.warn t.warn)) ∧
      (senseBytes t ≠ senseBytes s → imageWritten senseArea (senseBytes t) s t) ∧
      (senseBytes t = senseBytes s → ∀ a : Nat, 0x1040 ≤ a → a < 0x1080 → ramRead t a = ramRead s a) ∧
      eventReach s t

/-- A line takes a new state at the sample that completes the required run, and at none before it (R8). -/
def Obligations.DebounceNeedsFullRun : Prop :=
  ∀ (e : LineEntry) (l : Line) (st : LineState) (rs : List Sample),
    e.role ≠ .unused → l.candidate = none → st ≠ l.debounced → rs ≠ [] →
    (∀ r ∈ rs, sampleState e.openedActive (rawClass e.diagnosis r) = st) →
    let need := if st = .short ∨ st = .broken then max e.n 20 else e.n
    let l' := rs.foldl (fun x r => x.sample e false r) l
    (rs.length < need → l'.debounced = l.debounced ∧ l'.candidate = some st ∧ l'.run = rs.length) ∧
    (rs.length = need → l'.debounced = st ∧ l'.candidate = none ∧ l'.run = 0)

/-- A timer step takes one off every running timer that was not started at its instant (R3), counts the
standstill age (R84) and the onset ages (R100), and does nothing else; hold timers are suspended during
crank hold (R61). A step that changes the seconds since onset of a listed warning rewrites the list image, with no
notice (R101), and one that changes a test's remaining seconds the output image (R116), byte by byte (R176); each
stays otherwise. That bytes +18 and +19 of the output image are 0 with no test running is log entry 18. A maturity becomes due exactly where the age reaches the permit delay; that it waits in a flag
for its own command is the model's choice, log entry 23. -/
def Obligations.TimerStepCountsEveryTimer : Prop :=
  ∀ s : State, ∃ t, exec .timerStep s = .next t ∧
    let i := nextInstant Config.stepPeriod s.time.lastStep s.time.now
    let tick : Timer → Timer := fun x => if x.since = i then x else { left := x.left - 1, since := x.since }
    (∀ c : Fin 6, t.analog.channels[c] =
      if s.analog.crankHold = true then s.analog.channels[c]
      else { s.analog.channels[c] with hold := s.analog.channels[c].hold.map tick }) ∧
    (∀ n : Fin 4, t.door.doorways[n] =
      { s.door.doorways[n] with
        travel := s.door.doorways[n].travel.map tick
        conflict := s.door.doorways[n].conflict.map tick }) ∧
    (∀ w : Fin 48, t.warn.warnings[w] =
      { s.warn.warnings[w] with
        timer := s.warn.warnings[w].timer.map tick
        age := if s.warn.warnings[w].state.listed = true ∧ s.warn.warnings[w].onsetAt ≠ i
          then s.warn.warnings[w].age + 1 else s.warn.warnings[w].age }) ∧
    t.dist.watch = (match s.dist.watch with
      | .timing x => .timing (tick x)
      | .armed => .armed
      | .spent => .spent) ∧
    t.door.age = (match s.door.age, s.pulse.standstillAt with
      | some a, some z => if z < i then some (min (a + 1) 200) else some a
      | a, _ => a) ∧
    t.door.matureDue = (s.door.matureDue ||
      (match s.door.age, s.pulse.standstillAt with
       | some a, some z =>
         decide (z < i) && decide (a < 200) && decide (a + 1 = ((pulseParams s.image).permitDelay + 9) / 10)
       | _, _ => false)) ∧
    t.out.arbiter =
      { s.out.arbiter with
        repeatTimer := s.out.arbiter.repeatTimer.map tick
        current := s.out.arbiter.current.map (fun b => { b with timer := tick b.timer }) } ∧
    t.out.test = s.out.test.map (fun x => { x with duration := tick x.duration, half := x.half.map tick }) ∧
    t.out.supervision = { s.out.supervision with hrst := s.out.supervision.hrst.map tick } ∧
    t.link = { s.link with hold := s.link.hold.map tick, sessionTimer := s.link.sessionTimer.map tick } ∧
    besideImages t = besideImages
      { s with
        time := { s.time with now := i, lastStep := i }
        analog := { s.analog with channels := t.analog.channels }
        door := { s.door with doorways := t.door.doorways, age := t.door.age, matureDue := t.door.matureDue }
        warn := { s.warn with warnings := t.warn.warnings }
        dist := { s.dist with watch := t.dist.watch }
        out := { s.out with
          arbiter := t.out.arbiter, test := t.out.test, supervision := t.out.supervision }
        link := t.link } ∧
    (let seconds : State → List Nat := fun u => u.warn.list.map (fun w => min (u.warn.warnings[w].age / 100) 65535)
     (seconds t ≠ seconds s → imageWritten listArea (listBytes t) s t) ∧
     (seconds t = seconds s → ramKept [outputArea] s t)) ∧
    (outputBytes t ≠ outputBytes s → imageWritten outputArea (outputBytes t) s t) ∧
    (outputBytes t = outputBytes s → ramKept [listArea] s t) ∧
    ramKept [listArea, outputArea] s t ∧ t.win.notice = s.win.notice

/-- The maturity of a standstill judges DPERMIT (R84, R85), which the door image shows, byte by byte (R86, R176).
That it waits in a flag and that with none due the command changes nothing are the model's choices, log entries 23
and 2. -/
def Obligations.MaturityJudgesPermit : Prop :=
  ∀ s : State,
    (s.door.matureDue = false → exec .standstillMature s = .next s) ∧
    (s.door.matureDue = true → ∃ t, exec .standstillMature s = .next t ∧
      let p := ignitionOn s && (mature s || (!sourceValid s.pulse && roleActive s .parkingBrake))
      besideImages t =
        besideImages { s with door := { s.door with matureDue := false, dpermit := p } } ∧
      (p ≠ s.door.dpermit →
        noticeSet t .doorsChanged = true ∧ imageWritten doorArea (doorBytes t) s t) ∧
      (p = s.door.dpermit → t.win = s.win) ∧
      ramKept [doorArea] s t ∧ noticesKept [.doorsChanged] s t)

/-- A lamp refresh decides every lamp's owner, appearance and pin (R114) by the tables of R112, R113 and R118, counts
the supervision period (R122), writes the output image where a field of it changed (R116), byte by byte (R176), and
does nothing else. With no test running, as R117 and R119 have it, a lamp of
source WARNINGS that an enabled STOP warning in ACTIVE_UNACK is assigned to is FAST and NORMAL: the law of the
STOP telltales. That bytes +18 and +19 of the output image are 0 with no test running is the model's choice, log
entry 18. -/
def Obligations.LampRefreshDecidesLamps : Prop :=
  ∀ s : State,
    let moving := s.pulse.motion = .moving
    let given : Fin 48 → Appearance := fun w =>
      match s.warn.warnings[w].state, (warningDef s.image w).cls with
      | .activeUnack, .stop => .fast
      | .activeUnack, .caution => .slow
      | .activeUnack, .info => .slow
      | .activeAck, _ => .on
      | .latched, _ => .slow
      | .inactive, _ => .off
      | .pending, _ => .off
    let rank : Appearance → Nat := fun a =>
      match a with
      | .off => 0
      | .on => 1
      | .slow => 2
      | .fast => 3
    let assigned : Fin 48 → Fin 16 → Prop := fun w m =>
      (warningDef s.image w).enabled = true ∧ (warningDef s.image w).lamp = some m
    (∀ m : Fin 16,
      sourceAppearance s m .none = .off ∧
      sourceAppearance s m .hostRequest =
        (if ramRead s (0x0300 + m.val) = 1 then .on else if ramRead s (0x0300 + m.val) = 2 then .slow
         else if ramRead s (0x0300 + m.val) = 3 then .fast else .off) ∧
      (∀ (l : Fin 32) (a : Appearance), sourceAppearance s m (.senseMirror l a) =
        if s.sense.lines[l].debounced = .active then a else .off) ∧
      (∀ n : Fin 4, sourceAppearance s m (.doorway n) =
        if notClosed s n = true then (if moving then .fast else .on) else .off) ∧
      sourceAppearance s m .doorwayAny =
        (if ∃ n : Fin 4, notClosed s n = true then (if moving then .fast else .on) else .off) ∧
      sourceAppearance s m .stopRequest = (if s.door.latch = true then .on else .off) ∧
      sourceAppearance s m .permit = (if s.door.dpermit = true then .on else .off) ∧
      (∀ w, assigned w m → rank (given w) ≤ rank (sourceAppearance s m .warnings)) ∧
      (sourceAppearance s m .warnings = .off ∨
        ∃ w, assigned w m ∧ given w = sourceAppearance s m .warnings)) ∧
    (∀ (x : OutputTest) (m : Fin 16), testAppearance x m =
      match x.pattern with
      | .lampWalk => some (if x.step = m then .fast else .off)
      | .allLamps => some .on
      | .buzzer => none
      | .gaugeSweep => none) ∧
    ∃ t, exec .lampRefresh s = .next t ∧
      let i := nextInstant Config.lampPeriod s.time.lastLamp s.time.now
      (∀ m : Fin 16,
        let l := t.out.lamps[m]
        (match s.out.test.bind (fun x => testAppearance x m) with
         | some a => l.owner = .test ∧ l.appearance = a
         | none =>
           if s.out.supervision.stage = .fallback ∧ lampNormal s.image m = .hostRequest then
             l.owner = .fallback ∧ l.appearance = sourceAppearance s m (lampFallback s.image m)
           else l.owner = .normal ∧ l.appearance = sourceAppearance s m (lampNormal s.image m)) ∧
        l.pin = (match l.appearance with
          | .off => false
          | .on => true
          | .slow => decide (i % 1000000 < 500000)
          | .fast => decide (i % 250000 < 125000))) ∧
      (∀ (w : Fin 48) (m : Fin 16), s.out.test = none → assigned w m → lampNormal s.image m = .warnings →
        (warningDef s.image w).cls = .stop → s.warn.warnings[w].state = .activeUnack →
        t.out.lamps[m].appearance = .fast ∧ t.out.lamps[m].owner = .normal) ∧
      t.out.supervision.timer = s.out.supervision.timer.map
        (fun x => if x.since = i then x else { left := x.left - 1, since := x.since }) ∧
      besideImages t = besideImages
        { s with
          time := { s.time with now := i, lastLamp := i }
          out := { s.out with
            lamps := t.out.lamps
            supervision := { s.out.supervision with timer := t.out.supervision.timer } } } ∧
      (outputBytes t ≠ outputBytes s → imageWritten outputArea (outputBytes t) s t) ∧
      (outputBytes t = outputBytes s → t.win = s.win) ∧
      ramKept [outputArea] s t ∧ t.win.notice = s.win.notice

/-- What a debounced change of one line does to its role, at a sense sample that changes that line alone and leaves
the speed source as it is: the ignition (R13), the stop request (R82), the acknowledge button (R103) and the
parking brake (R85, R119). Every warning is then judged (R94) and moves by the table of R95; one that leaves its
state without an onset hands on the end of the repeat (R106) and the return of its record (R130). Which reason ends
a test of an INVALID source is log entry 31; that the role takes the change before the warnings that name its line,
be it a press of ACK_BUTTON, is the model's choice, log entries 53 and 54; that a record which ages enqueues its place before the header, and the
places in ascending order, are log entries 29 and 46. -/
def Obligations.SenseSampleReachesRoles : Prop :=
  ∀ (s : State) (ratios : Vector Sample 32) (wire : Bool) (inputs : Vector Sample 6),
    ∃ t, exec (.senseSample ratios wire inputs) s = .next t ∧ ∀ n : Fin 32,
      (∀ m : Fin 32, t.sense.lines[m].debounced = s.sense.lines[m].debounced ↔ m ≠ n) →
      sourceValid t.pulse = sourceValid s.pulse →
      let role := (lineEntry s.image n).role
      let old := s.sense.lines[n].debounced
      let new := t.sense.lines[n].debounced
      let pressed := old = .inactive ∧ new = .active
      let settled := ∀ w : Fin 48, t.warn.warnings[w].state = s.warn.warnings[w].state
      let condition : Fin 48 → Bool := fun w =>
        sourceTruth t (warningDef s.image w).source s.warn.warnings[w].truth &&
          qualifierHolds t (warningDef s.image w).qualifier
      let enabled : Fin 48 → Bool := fun w => (warningDef s.image w).enabled
      let waits : Fin 48 → Prop := fun w =>
        s.warn.warnings[w].state = .activeUnack ∨ s.warn.warnings[w].state = .latched
      let judgedSo : Fin 48 → Prop := fun w => enabled w = true →
        (condition w = true ↔ s.warn.warnings[w].state = .pending ∨
          s.warn.warnings[w].state = .activeUnack ∨ s.warn.warnings[w].state = .activeAck)
      (role = .ignition → n = 0 →
        (ignitionOn t = ignitionOn s →
          noticeSet t .ignition = noticeSet s .ignition ∧ t.door = s.door ∧ t.dist = s.dist) ∧
        (ignitionOn s = false → ignitionOn t = true →
          noticeSet t .ignition = true ∧ t.door.dpermit = permitJudged t ∧ t.dist = s.dist ∧
          (settled → t.faults.overflow = s.faults.overflow ∧
            (∀ j : Fin 40, t.faults.places[j] =
              match s.faults.places[j] with
              | .stored r =>
                if r.active = true then .stored r
                else if agingLimit s.image ≤ r.aging + 1 then .free
                else .stored { r with aging := r.aging + 1 }
              | p => p) ∧
            (∀ j : Fin 40, t.faults.places[j] ≠ s.faults.places[j] → Object.place j ∈ t.store.queue) ∧
            (recordCount t ≠ recordCount s → Object.header ∈ t.store.queue) ∧
            ((∃ (j : Fin 40) (r : FaultRecord), s.faults.places[j] = .stored r ∧ r.active = false) →
              noticeSet t .faultMemoryChanged = true))) ∧
        (ignitionOn s = true → ignitionOn t = false →
          noticeSet t .ignition = true ∧ t.door.dpermit = false ∧
          t.dist = { s.dist with ticks := 0 } ∧ Object.ring ∈ t.store.queue ∧
          Object.tripA ∈ t.store.queue ∧ Object.tripB ∈ t.store.queue ∧
          (∀ c : Fin 6, t.analog.channels[c].quick = 0) ∧ t.out.test = none ∧
          (s.out.test ≠ none → t.out.lastResult = .aborted .ignitionOff))) ∧
      (role = .stopRequest →
        let sets := pressed ∧ (s.door.cycle = .driving ∨ s.door.cycle = .arrived) ∧ s.door.latch = false
        (sets → t.door = { s.door with latch := true } ∧ noticeSet t .doorsChanged = true ∧
          (settled → t.out.arbiter =
            if s.out.arbiter.repeatTimer = none ∧ s.out.arbiter.current = none then
              { s.out.arbiter with
                level := true
                current := some { cls := .info, position := 0
                                  timer := { left := 20, since := t.time.now } } }
            else { s.out.arbiter with pending := some (s.out.arbiter.pending.getD .info) })) ∧
        (¬ sets → t.door = s.door ∧ (settled → t.out.arbiter = s.out.arbiter))) ∧
      (role = .ackButton → t.door = s.door ∧
        (∀ (w : Fin 48) (a b : List (Fin 48)), pressed → s.warn.list = a ++ w :: b → waits w →
          (∀ v ∈ a, ¬ waits v) →
          (s.warn.warnings[w].state = .activeUnack → judgedSo w → t.warn.warnings[w].state = .activeAck) ∧
          (s.warn.warnings[w].state = .latched → judgedSo w →
            t.warn.warnings[w].state = .inactive ∧ (s.warn.list.Nodup → w ∉ t.warn.list)) ∧
          (∀ v, v ≠ w → judgedSo v → t.warn.warnings[v].state = s.warn.warnings[v].state)) ∧
        (¬ pressed → ∀ v, judgedSo v → t.warn.warnings[v].state = s.warn.warnings[v].state)) ∧
      (role = .parkingBrake → t.door.dpermit = permitJudged t ∧
        (old = .active → t.out.test = none ∧
          (s.out.test ≠ none → t.out.lastResult =
            if sourceValid s.pulse = false ∧ s.pulse.motion = .standstill ∧ t.pulse.motion ≠ .standstill
            then .aborted .motion else .aborted .parkingBrake))) ∧
      (role = .general → t.door = s.door ∧ t.dist = s.dist) ∧
      (role ≠ .ackButton ∨ ¬ pressed → warningsJudged t t.time.now s.warn t.warn) ∧
      (role = .ackButton → pressed →
        (∀ (w : Fin 48) (a b : List (Fin 48)), s.warn.list = a ++ w :: b → waits w → (∀ v ∈ a, ¬ waits v) →
          warningsJudged t t.time.now (acknowledged w s.warn) t.warn) ∧
        ((∀ v ∈ s.warn.list, ¬ waits v) → warningsJudged t t.time.now s.warn t.warn)) ∧
      (role ≠ .ackButton ∨ ¬ pressed → role ≠ .ignition → role ≠ .stopRequest →
        (∀ w : Fin 48, t.warn.warnings[w].state = .activeUnack → s.warn.warnings[w].state = .activeUnack) →
        let left : Fin 48 → Prop := fun w =>
          s.warn.warnings[w].state.listed = true ∧ t.warn.warnings[w].state = .inactive
        returnsHanded s t t.time.now
          (∃ w : Fin 48, s.warn.warnings[w].state.listed = true ∧
            t.warn.warnings[w].state ≠ s.warn.warnings[w].state) left)

/-- A phase edge switches the pins of the lamps that flash at the phase, and nothing else (R4). -/
def Obligations.PhaseEdgeSwitchesPins : Prop :=
  ∀ (s : State) (phase : Phase), ∃ t, exec (.phaseEdge phase) s = .next t ∧
    t.time.now = (match phase with
      | .slow => nextInstant 500000 s.time.lastSlow s.time.now
      | .fast => nextInstant 125000 s.time.lastFast s.time.now) ∧
    (∀ m : Fin 16, t.out.lamps[m] =
      match phase, s.out.lamps[m].appearance with
      | .slow, .slow => { s.out.lamps[m] with pin := decide (t.time.now % 1000000 < 500000) }
      | .fast, .fast => { s.out.lamps[m] with pin := decide (t.time.now % 250000 < 125000) }
      | _, _ => s.out.lamps[m]) ∧
    t = { s with
      time := (match phase with
        | .slow => { s.time with now := t.time.now, lastSlow := t.time.now }
        | .fast => { s.time with now := t.time.now, lastFast := t.time.now })
      out := { s.out with lamps := t.out.lamps } }

/-! ## The gauge cycle -/

/-- The supply at a gauge cycle, from its group's raw mean (R56): scaling (R58), crank hold (R59), SUPPLY_LOW
(R60) and the low-supply watch (R44). A sample taken at the cycle's own instant before it opens the next group. The
group without a sample, whose mean is free (log entry 6), is left out. -/
def Obligations.GaugeCycleJudgesSupply : Prop :=
  ∀ s : State,
    let i := nextInstant Config.gaugePeriod s.time.lastGauge s.time.now
    let g := openGroup s i 5
    g.2 ≠ 0 →
    ∃ t, exec .gaugeCycle s = .next t ∧
      let raw := (g.1 + g.2 / 2) / g.2
      let v := (2 * raw * 4000 + 1023) / 2046
      t.analog.channels[5].mean = some raw ∧
      (t.analog.channels[5].sum, t.analog.channels[5].count) = nextGroup s i 5 ∧
      t.analog.channels[5].late = none ∧ t.analog.channels[5].y = some (v : Int) ∧
      t.analog.channels[5].status = .valid ∧
      t.analog.crankHold = decide (v < crankThreshold s.image) ∧
      (v < 2200 → t.analog.supplyLow = true) ∧ (2300 ≤ v → t.analog.supplyLow = false) ∧
      (2200 ≤ v → v < 2300 → t.analog.supplyLow = s.analog.supplyLow) ∧
      t.dist.watch = (match s.dist.watch with
        | .armed => if v < 1600 then .timing { left := 100, since := t.time.now } else .armed
        | .timing x => if v < 1600 then .timing x else .armed
        | .spent => if v < 1600 then .spent else .armed)

/-- The road speed at a gauge cycle: a speed from a span (R21), a first reference (R22), the standstill
timeout (R23), the decay bound (R24), a standing bus, an INVALID source (R25), and the displayed speed's
step (R26). -/
def Obligations.GaugeCycleEvaluatesRoadSpeed : Prop :=
  ∀ s : State, ∃ t, exec .gaugeCycle s = .next t ∧
    let p := s.pulse
    let q := t.pulse
    let i := nextInstant Config.gaugePeriod s.time.lastGauge s.time.now
    let speed : Nat → Nat → Nat := fun n span => (2 * n * 360000000000 + p.k * span) / (2 * p.k * span)
    let since := (BitVec.ofNat 32 i - p.lastEdge).toNat
    let timeout := (pulseParams s.image).timeout * 1000
    (sourceValid p = true → p.count ≠ 0 → ∀ r, p.reference = some r →
      let v := speed p.count (p.lastEdge - r).toNat
      q.raw = min v 25000 ∧ q.status = (if v ≤ 25000 then .valid else .over) ∧
      q.reference = some p.lastEdge ∧ q.count = 0 ∧ (1 ≤ v → q.motion = .moving) ∧
      (v = 0 → q.motion = p.motion)) ∧
    (sourceValid p = true → p.count ≠ 0 → p.reference = none →
      q.reference = some p.lastEdge ∧ q.count = 0 ∧ q.raw = p.raw ∧ q.motion = p.motion ∧
      q.status = (if p.status = .invalid then .valid else p.status)) ∧
    (sourceValid p = true → p.count = 0 → p.motion = .standstill → p.reference = none →
      q.raw = p.raw ∧ q.status = p.status ∧ q.reference = none ∧ q.motion = .standstill ∧
      q.standstillAt = p.standstillAt) ∧
    (sourceValid p = true → p.count = 0 → (p.motion ≠ .standstill ∨ p.reference ≠ none) →
      timeout ≤ since →
      q.raw = 0 ∧ q.status = .valid ∧ q.reference = none ∧ q.motion = .standstill ∧
      q.standstillAt = (if p.motion = .standstill then p.standstillAt else some i)) ∧
    (sourceValid p = true → p.count = 0 → (p.motion ≠ .standstill ∨ p.reference ≠ none) →
      since < timeout →
      q.reference = p.reference ∧ q.motion = p.motion ∧
      (if since ≠ 0 ∧ speed 1 since < p.raw then
        q.raw = min (speed 1 since) 25000 ∧ q.status = (if speed 1 since ≤ 25000 then .valid else .over)
       else q.raw = p.raw ∧ q.status = (if p.status = .invalid then .valid else p.status))) ∧
    (sourceValid p = false →
      q.raw = 0 ∧ q.displayed = 0 ∧ q.status = .invalid ∧ q.count = 0 ∧ q.reference = none ∧
      q.motion = p.motion) ∧
    (sourceValid p = true →
      let d : Int := (q.raw : Int) - p.displayed
      let step := d.tdiv (2 ^ (pulseParams s.image).shift)
      q.displayed = (p.displayed + (if step = 0 ∧ d ≠ 0 then d.sign else step)).toNat)

/-- The engine speed at a gauge cycle, and the engine-running flag (R34, R35). -/
def Obligations.GaugeCycleEvaluatesEngineSpeed : Prop :=
  ∀ s : State, ∃ t, exec .gaugeCycle s = .next t ∧
    let p := s.pulse
    let q := t.pulse
    let c := pulseParams s.image
    let i := nextInstant Config.gaugePeriod s.time.lastGauge s.time.now
    let speed : Nat → Nat → Nat := fun n span =>
      min ((2 * n * 600000000 + c.p10 * span) / (2 * c.p10 * span)) 5000
    let since := (BitVec.ofNat 32 i - p.engineEdge).toNat
    (p.engineCount ≠ 0 → ∀ r, p.engineRef = some r →
      q.rpm = speed p.engineCount (p.engineEdge - r).toNat ∧ q.engineRef = some p.engineEdge ∧
      q.engineCount = 0) ∧
    (p.engineCount ≠ 0 → p.engineRef = none →
      q.rpm = p.rpm ∧ q.engineRef = some p.engineEdge ∧ q.engineCount = 0) ∧
    (p.engineCount = 0 → p.engineRef = none → q.rpm = p.rpm ∧ q.engineRef = none) ∧
    (p.engineCount = 0 → p.engineRef ≠ none → 500000 ≤ since → q.rpm = 0 ∧ q.engineRef = none) ∧
    (p.engineCount = 0 → p.engineRef ≠ none → since < 500000 →
      q.engineRef = p.engineRef ∧
      q.rpm = (if since ≠ 0 then min p.rpm (speed 1 since) else p.rpm)) ∧
    q.running = (if p.running = true then decide (c.rOff ≤ q.rpm) else decide (c.rOn ≤ q.rpm)) ∧
    q.engineEdge = p.engineEdge

/-- A sender channel at a gauge cycle: held by supply (R61), a fault cycle or a good cycle (R62), the filter
(R64) and the quick adopt (R65). A sample taken at the cycle's own instant before it opens the next group (R56). The
group without a sample, whose mean is free (log entry 6), is left out. The quick adopt reads the motion state after
this cycle's road evaluation: log entry 5. That a held cycle keeps the table value x is the model's
choice, log entry 19: R61 says only that none is derived. -/
def Obligations.GaugeCycleJudgesSenders : Prop :=
  ∀ (s : State) (n : Fin 5),
    let i := nextInstant Config.gaugePeriod s.time.lastGauge s.time.now
    let g := openGroup s i n.castSucc
    g.2 ≠ 0 →
    ∃ t, exec .gaugeCycle s = .next t ∧
      let c := s.analog.channels[n.castSucc]
      let c' := t.analog.channels[n.castSucc]
      let e := senderEntry s.image n
      let r := (g.1 + g.2 / 2) / g.2
      let held := s.analog.crankHold = true ∨ t.analog.crankHold = true
      let bad := r < e.shortLimit ∨ e.openLimit < r
      let x := tableValue e.table r
      c'.mean = some r ∧ (c'.sum, c'.count) = nextGroup s i n.castSucc ∧ c'.late = none ∧
      (held → c'.x = c.x ∧ c'.y = c.y ∧ c'.status = c.status ∧ c'.fault = c.fault ∧ c'.hold = c.hold ∧
        c'.quick = 0) ∧
      (¬ held → bad → c'.y = c.y ∧ c'.quick = 0 ∧
        (c.status = .valid → e.hold ≠ 0 →
          c'.status = .held ∧ c'.fault = c.fault ∧
          c'.hold = some { left := 10 * e.hold, since := t.time.now }) ∧
        (c.status = .valid → e.hold = 0 → c'.status = .invalid ∧ c'.fault = true) ∧
        (c.status = .held → c'.status = .held ∧ c'.fault = c.fault ∧ c'.hold = c.hold) ∧
        (c.status = .invalid → c'.status = .invalid ∧
          (c.hold.isSome = true ∨ c.fault = true → c'.hold = c.hold ∧ c'.fault = c.fault) ∧
          (c.hold = none → c.fault = false →
            if e.hold = 0 then c'.fault = true
            else c'.hold = some { left := 10 * e.hold, since := t.time.now }))) ∧
      (¬ held → ¬ bad → c'.x = some x ∧ c'.status = .valid ∧ c'.hold = none ∧
        (c.status = .invalid → c'.y = some x ∧ c'.fault = false ∧ c'.quick = 0) ∧
        (c.status ≠ .invalid → ∀ y, c.y = some y → c'.fault = c.fault ∧
          let step := (x - y).tdiv (2 ^ e.shift)
          let filtered := y + (if step = 0 ∧ x - y ≠ 0 then (x - y).sign else step)
          let counts := e.margin ≠ 0 ∧ c.status = .valid ∧ t.pulse.motion = .standstill ∧
            ignitionOn s = true ∧ e.margin < (x - y).natAbs
          (counts → c.quick < 2 → c'.y = some filtered ∧ c'.quick = c.quick + 1) ∧
          (counts → 2 ≤ c.quick → c'.y = some x ∧ c'.quick = 0) ∧
          (¬ counts → c'.y = some filtered ∧ c'.quick = 0)))

/-- R57 whole. A table with ascending raw values gives its end values beyond its ends and the line through the
segment's two breakpoints within them, the quotient rounded with halves away from zero; x lies between the two
values, so within -32,767 to 32,767, and the product stays within 1,023 × 65,534. A good cycle of a sender takes
its raw mean through the table of its channel. -/
def Obligations.SenderTableInterpolates : Prop :=
  (∀ (s : State) (n : Fin 5),
    ∃ t, exec .gaugeCycle s = .next t ∧ ∀ r, t.analog.channels[n.castSucc].mean = some r →
      s.analog.crankHold = false → t.analog.crankHold = false →
      (senderEntry s.image n).shortLimit ≤ r → r ≤ (senderEntry s.image n).openLimit →
      t.analog.channels[n.castSucc].x = some (tableValue (senderEntry s.image n).table r)) ∧
  ∀ (before after : List (Nat × Int)) (p q : Nat × Int) (r : Nat),
    rawsAscend (before ++ p :: q :: after) = true →
    let table := before ++ p :: q :: after
    (∀ f, table.head? = some f → r ≤ f.1 → tableValue table r = f.2) ∧
    (∀ z, table.getLast? = some z → z.1 < r → tableValue table r = z.2) ∧
    (p.1 < r → r ≤ q.1 →
      let num : Int := ((r : Int) - p.1) * (q.2 - p.2)
      let den : Int := (q.1 : Int) - p.1
      ∃ quotient : Int, tableValue table r = p.2 + quotient ∧ 2 * |num - den * quotient| ≤ den ∧
        (2 * |num - den * quotient| = den → |num| < den * |quotient|)) ∧
    (r = q.1 → tableValue table r = q.2) ∧
    (p.1 < r → r ≤ q.1 → min p.2 q.2 ≤ tableValue table r ∧ tableValue table r ≤ max p.2 q.2) ∧
    ((∀ e ∈ table, e.1 ≤ 1023 ∧ |e.2| ≤ 32767) →
      |tableValue table r| ≤ 32767 ∧
      (p.1 < r → r ≤ q.1 → |((r : Int) - p.1) * (q.2 - p.2)| ≤ 1023 * 65534))

/-- Every gauge cycle writes the gauge image whole (R67, R172), byte by byte (R176), with the swept values while a
GAUGE_SWEEP test runs (R68), and sets GAUGE_CYCLE; the first one rewrites the door image (R86), each one counts
the dwell of an open stop (R80), and a motion change reaches the stop cycle with its notices and the journal image
(R76, R81, R84, R87) and the permit (R85). The warnings are judged twice (R94, R95): at the motion change, against
all else as the last cycle left it, and after the hand-over of this cycle's values with their statuses (R37, R66), by
which the gauge sources are judged first (R91, R92), an INVALID speed as the value 0; with the tables of the sources and the qualifiers (R90, R93, R94); and the
frame of the command. The dwell comes before the motion, the motion before the rest: log entry 5. -/
def Obligations.GaugeCycleWritesImage : Prop :=
  (∀ (r : State) (kept : Bool),
    (∀ x : Option Source, sourceTruth r x kept = true ↔ truthOf r kept x) ∧
    (∀ q : Qualifier, qualifierHolds r q = true ↔ qualified r q)) ∧
  ∀ s : State, ∃ t, exec .gaugeCycle s = .next t ∧
    let i := nextInstant Config.gaugePeriod s.time.lastGauge s.time.now
    imageWritten gaugeArea (gaugeBytes t) s t ∧ noticeSet t .gaugeCycle = true ∧
    (t.out.test = none ∨ t.out.test =
      s.out.test.map (fun x => if x.startedAt = i then x else { x with cycles := x.cycles + 1 })) ∧
    (s.out.test ≠ none → t.out.test = none →
      t.out.lastResult = .aborted .motion ∨ t.out.lastResult = .aborted .stopWarning) ∧
    (s.time.lastGauge = 0 → noticeSet t .doorsChanged = true ∧ imageShows doorArea (doorBytes t) t) ∧
    (∀ c : Fin 8, t.warn.handed[c] = some
      (if h : c.val < 6 then { value := shownNow t ⟨c.val, h⟩, status := .channel (statusNow t ⟨c.val, h⟩) }
       else if c.val = 6 then { value := t.pulse.displayed, status := .speed t.pulse.status }
       else { value := t.pulse.rpm, status := .none })) ∧
    (∃ mid : WarningUnit,
      warningsJudged { s with pulse := { s.pulse with motion := t.pulse.motion } } i s.warn mid ∧
      warningsJudged t i
        { mid with
          handed := t.warn.handed
          warnings := Vector.ofFn fun w : Fin 48 =>
            let d := warningDef s.image w
            let x := mid.warnings[w]
            if d.enabled = true then { x with truth := gaugeJudged d t.warn.handed x.truth } else x }
        t.warn) ∧
    (let counted : DoorMonitor :=
       { s.door with
         stop := s.door.stop.map fun o =>
           if o.openedAt = i then o
           else { o with record := { o.record with dwell := min (o.record.dwell + 1) 65535 } } }
     (t.pulse.motion = s.pulse.motion → t.door = counted) ∧
     (t.pulse.motion ≠ s.pulse.motion →
       cycleFollows s t (motionMarks s t counted) ∧ t.door.dpermit = permitJudged t)) ∧
    besideEvents t = besideEvents { s with
      time := { s.time with now := i, lastGauge := i }
      warn := { s.warn with handed := t.warn.handed } } ∧
    t.sense = s.sense ∧ t.dist.ticks = s.dist.ticks ∧ t.pulse.lastEdge = s.pulse.lastEdge ∧
    t.pulse.acc = s.pulse.acc ∧ t.pulse.k = s.pulse.k ∧ t.pulse.calValid = s.pulse.calValid ∧
    t.pulse.wireBroken = s.pulse.wireBroken ∧ t.pulse.wireRun = s.pulse.wireRun ∧
    ramKept (gaugeArea :: eventAreas ++ slotResultArea s.win.ops.test) s t ∧
    noticesKept [.gaugeCycle, .warningsChanged, .faultMemoryChanged, .outputTest, .slotDone, .doorsChanged,
      .stopRecorded] s t

/-! ## Pulse edges -/

/-- A PULSE_V edge (R18 to R20) with the tick that it may emit (R40, R41, R43), and a PULSE_E edge (R18, R34). -/
def Obligations.PulseEdges : Prop :=
  ∀ (s : State) (gap : Nat),
    let i := s.time.now + gap
    let moved : State := { s with time := { s.time with now := i } }
    let stamped : PulseUnit :=
      { s.pulse with lastEdge := BitVec.ofNat 32 i, count := min (s.pulse.count + 1) 65535 }
    let late := 40 ≤ (BitVec.ofNat 32 i - s.pulse.lastEdge).toNat
    let trip : Trip → Trip := fun x =>
      if x.running = true then { x with value := if x.value = 999999 then 0 else x.value + 1 } else x
    (¬ late → exec (.pulseVEdge gap) s = .next moved) ∧
    (late → sourceValid s.pulse = false → exec (.pulseVEdge gap) s = .next { moved with pulse := stamped }) ∧
    (late → sourceValid s.pulse = true → s.pulse.acc + 100 < s.pulse.k →
      exec (.pulseVEdge gap) s = .next { moved with pulse := { stamped with acc := s.pulse.acc + 100 } }) ∧
    (late → sourceValid s.pulse = true → s.pulse.k ≤ s.pulse.acc + 100 →
      s.dist.live = 999999999 → s.dist.ticks < 100 →
      exec (.pulseVEdge gap) s = .next
        { moved with
          pulse := { stamped with acc := s.pulse.acc + 100 - s.pulse.k }
          dist := { s.dist with tripA := trip s.dist.tripA, tripB := trip s.dist.tripB } }) ∧
    (late → sourceValid s.pulse = true → s.pulse.k ≤ s.pulse.acc + 100 →
      s.dist.live ≠ 999999999 → s.dist.ticks ≠ 99 →
      exec (.pulseVEdge gap) s = .next
        { moved with
          pulse := { stamped with acc := s.pulse.acc + 100 - s.pulse.k }
          dist := { s.dist with
            live := s.dist.live + 1, ticks := s.dist.ticks + 1
            tripA := trip s.dist.tripA, tripB := trip s.dist.tripB } }) ∧
    (late → sourceValid s.pulse = true → s.pulse.k ≤ s.pulse.acc + 100 →
      s.dist.live ≠ 999999999 → s.dist.ticks = 99 →
      exec (.pulseVEdge gap) s = .next
        { moved with
          pulse := { stamped with acc := s.pulse.acc + 100 - s.pulse.k }
          dist := { s.dist with
            live := s.dist.live + 1, ticks := 0
            tripA := trip s.dist.tripA, tripB := trip s.dist.tripB }
          store := { s.store with
            queue := addJob (addJob (addJob s.store.queue .ring) .tripA) .tripB } }) ∧
    ((BitVec.ofNat 32 i - s.pulse.engineEdge).toNat < 40 → exec (.pulseEEdge gap) s = .next moved) ∧
    (40 ≤ (BitVec.ofNat 32 i - s.pulse.engineEdge).toNat →
      exec (.pulseEEdge gap) s = .next
        { moved with pulse := { s.pulse with
            engineEdge := BitVec.ofNat 32 i, engineCount := min (s.pulse.engineCount + 1) 65535 } })

/-! ## Expiries -/

/-- The expiry of a sender's hold timer: INVALID with the sender fault flag (R62, R63), at which the warnings are
judged (R93 to R95). That of the low-supply watch saves the odometer and the trips once (R43, R44). That a timer
which has not expired makes its command change nothing is the model's choice, log entry 2. -/
def Obligations.AnalogTimerExpiries : Prop :=
  ∀ (s : State) (n : Fin 5),
    let c := s.analog.channels[n.castSucc]
    (expired c.hold = false → exec (.holdTimerExpiry n) s = .next s) ∧
    (expired c.hold = true → ∃ t, exec (.holdTimerExpiry n) s = .next t ∧
      t.analog =
        { s.analog with
          channels :=
            s.analog.channels.set n.castSucc.val { c with status := .invalid, fault := true, hold := none }
              n.castSucc.isLt } ∧
      (c.fault = false → warningsJudged t t.time.now s.warn t.warn) ∧ (c.fault = true → t.warn = s.warn) ∧
      besideWarnings { t with analog := s.analog } = besideWarnings s ∧ warningReach s t) ∧
    (∀ x, s.dist.watch = .timing x → x.left = 0 →
      exec .lowSupplyWatchExpiry s = .next { s with
        dist := { s.dist with watch := .spent, ticks := 0 }
        store := { s.store with
          queue := addJob (addJob (addJob s.store.queue .ring) .tripA) .tripB } }) ∧
    ((∀ x, s.dist.watch = .timing x → x.left ≠ 0) → exec .lowSupplyWatchExpiry s = .next s)

/-- The expiry of a travel timer makes a MOVING doorway STALLED (R73), whose bit an open record takes (R79), that of a
conflict timer makes a doorway CONFLICT (R74). The stop cycle is judged once (R76, R78, R80 to R82) with its notices
and the journal image (R81, R87), a changed state shows in the door image byte by byte with DOORS_CHANGED (R86,
R176), and the warnings are judged (R93 to R95). That a timer which has not expired makes its command
change nothing is the model's choice, log entry 2. -/
def Obligations.DoorTimerExpiries : Prop :=
  ∀ (s : State) (n : Fin 4),
    let d := s.door.doorways[n]
    let marked := s.door.stop.map fun o =>
      { o with record := { o.record with mask := o.record.mask ||| BitVec.twoPow 4 n.val } }
    let reach : State → Doorway → Option OpenStop → Prop := fun t d' stop =>
      t.door.doorways = s.door.doorways.set n.val d' n.isLt ∧
      cycleFollows s t { s.door with doorways := s.door.doorways.set n.val d' n.isLt, stop := stop } ∧
      (d'.state ≠ d.state → noticeSet t .doorsChanged = true ∧ imageWritten doorArea (doorBytes t) s t) ∧
      t.door.kneel = s.door.kneel ∧ t.door.ramp = s.door.ramp ∧ t.door.age = s.door.age ∧
      t.door.matureDue = s.door.matureDue ∧ t.door.dpermit = s.door.dpermit ∧
      warningsJudged t t.time.now s.warn t.warn ∧
      besideWarnings { t with door := s.door } = besideWarnings s ∧ eventReach s t
    (expired d.travel = true → d.state = .moving → ∃ t, exec (.travelTimerExpiry n) s = .next t ∧
      reach t { d with state := .stalled, travel := none } marked) ∧
    (expired d.travel = false ∨ d.state ≠ .moving → exec (.travelTimerExpiry n) s = .next s) ∧
    (expired d.conflict = true → ∃ t, exec (.conflictTimerExpiry n) s = .next t ∧
      reach t { d with state := .conflict, travel := none, conflict := none } s.door.stop) ∧
    (expired d.conflict = false → exec (.conflictTimerExpiry n) s = .next s)

/-- The expiry of an onset timer is an onset (R95): its number (R97), its place at the head of its class (R99),
its age (R100), the list image byte by byte (R101, R176), and what it asks of the buzzer (R98, R105): a STOP onset
of the repeat (R106), a CAUTION or INFO onset with chime of a burst of its class (R107). That a timer which has
not expired makes the command change nothing is the model's choice, log entry 2. -/
def Obligations.OnsetTimerExpiryIsOnset : Prop :=
  ∀ (s : State) (w : Fin 48),
    let x := s.warn.warnings[w]
    let rank : Fin 48 → Nat := fun v =>
      match (warningDef s.image v).cls with
      | .stop => 0
      | .caution => 1
      | .info => 2
    (x.state ≠ .pending ∨ expired x.timer = false → exec (.onsetTimerExpiry w) s = .next s) ∧
    (x.state = .pending → expired x.timer = true → ∃ t, exec (.onsetTimerExpiry w) s = .next t ∧
      t.warn.warnings = s.warn.warnings.set w.val
        { state := .activeUnack, timer := none, truth := x.truth, number := some s.warn.nextNumber
          age := 0, onsetAt := s.time.now } w.isLt ∧
      t.warn.nextNumber = min (s.warn.nextNumber + 1) 4294967295 ∧
      (∃ a b, t.warn.list = a ++ w :: b ∧ a ++ b = s.warn.list.erase w ∧
        (∀ v ∈ a, rank v < rank w) ∧ (∀ v, b.head? = some v → rank w ≤ rank v)) ∧
      noticeSet t .warningsChanged = true ∧
      ((warningDef s.image w).cls = .stop → t.out.test = none) ∧
      ((warningDef s.image w).cls ≠ .stop → t.out.test = s.out.test ∧ t.link = s.link) ∧
      (let d := warningDef s.image w
       let now := s.time.now
       (d.cls = .stop → repeatFollows now (stopCalls t) s.out.arbiter t.out.arbiter) ∧
       (d.cls = .stop → d.chime = true → stopCalls t) ∧
       (d.cls ≠ .stop → d.chime = false → t.out.arbiter = s.out.arbiter) ∧
       (d.cls = .caution → d.chime = true → burstTaken now .caution s.out.arbiter t.out.arbiter) ∧
       (d.cls = .info → d.chime = true → burstTaken now .info s.out.arbiter t.out.arbiter)) ∧
      imageWritten listArea (listBytes t) s t ∧
      besideWarnings t = besideWarnings s ∧ warningReach s t)

/-- An onset with record yes is an occurrence: counted into the STORED record of its code (R128), or a new record
in the lowest FREE place, else in place of the PASSIVE record that R129 chooses, else dropped into the overflow
count (R129), with the jobs of R131 and a rewrite of the view (R137), byte by byte (R176). That the place's job
comes before the header's is log entry 29; that the view is rewritten where no field changed is log entry 42. An
overflow count above 255, which no run reaches (overflowLaw), and onsets other than by the timer's expiry are left
out. -/
def Obligations.OccurrenceIsRecorded : Prop :=
  ∀ (s : State) (w : Fin 48),
    s.warn.warnings[w].state = .pending → expired s.warn.warnings[w].timer = true →
    (warningDef s.image w).record = true →
    ∃ t, exec (.onsetTimerExpiry w) s = .next t ∧
      noticeSet t .faultMemoryChanged = true ∧ imageWritten faultArea (faultBytes t) s t ∧
      t.faults.clear = s.faults.clear ∧
      recordCounted s w t.faults.places t.faults.overflow t.store.queue ∧
      (s.faults.overflow ≤ 255 → unrecorded s w →
        recordMade s w t.faults.places t.faults.overflow t.store.queue)

/-- The 500 ms and 200 ms timers of the sounds and the patterns: a half of the repeat alternates BUZZ (R106), an
interval of a burst steps it and its last one ends it, a pending burst then starting (R107); LAMP_WALK steps, from
15 to 0, and computes the lamps, and the pattern BUZZER alternates its half (R118). That a timer which has not
expired makes its command change nothing is the model's choice, log entry 2. -/
def Obligations.BuzzerAndPatternTimersStep : Prop :=
  ∀ s : State,
    let a := s.out.arbiter
    let now := s.time.now
    let reach : State → Arbiter → Prop := fun t a' =>
      besideImages t = besideImages { s with out := { s.out with arbiter := a' } } ∧
      ramKept [outputArea] s t ∧ t.win.notice = s.win.notice
    (expired a.repeatTimer = true → ∃ t, exec .repeatHalfExpiry s = .next t ∧
      reach t { a with level := !a.level, repeatTimer := some { left := 50, since := now } }) ∧
    (expired a.repeatTimer = false → exec .repeatHalfExpiry s = .next s) ∧
    (∀ b, a.current = some b → b.timer.left = 0 → a.repeatTimer = none →
      let last := (match b.cls with | .caution => 6 | .info => 2) ≤ b.position + 1
      ∃ t, exec .burstIntervalExpiry s = .next t ∧
        (¬ last → reach t { a with
          level := decide ((b.position + 1) % 2 = 0)
          current := some { cls := b.cls, position := b.position + 1
                            timer := { left := 20, since := now } } }) ∧
        (last → a.pending = none → reach t { level := false, repeatTimer := none, current := none,
                                             pending := none }) ∧
        (last → ∀ c, a.pending = some c → reach t
          { level := true, repeatTimer := none, pending := none
            current := some { cls := c, position := 0, timer := { left := 20, since := now } } })) ∧
    ((∀ b, a.current = some b → b.timer.left ≠ 0) → exec .burstIntervalExpiry s = .next s) ∧
    (∀ x, s.out.test = some x → x.pattern = .lampWalk → expired x.half = true →
      ∃ t, exec .lampWalkStep s = .next t ∧
        t.out.test = some { x with step := x.step + 1, half := some { left := 50, since := now } } ∧
        (∀ m : Fin 16, t.out.lamps[m].owner = .test ∧
          t.out.lamps[m].appearance = if m = x.step + 1 then .fast else .off) ∧
        besideImages t = besideImages
          { s with out := { s.out with test := t.out.test, lamps := t.out.lamps } } ∧
        ramKept [outputArea] s t ∧ t.win.notice = s.win.notice) ∧
    ((∀ x, s.out.test = some x → x.pattern = .lampWalk → expired x.half = false) →
      exec .lampWalkStep s = .next s) ∧
    (∀ x, s.out.test = some x → x.pattern = .buzzer → expired x.half = true →
      ∃ t, exec .testBuzzerHalf s = .next t ∧
        besideImages t = besideImages { s with out := { s.out with
          test := some { x with buzzOn := !x.buzzOn, half := some { left := 50, since := now } } } } ∧
        ramKept [outputArea] s t ∧ t.win.notice = s.win.notice) ∧
    ((∀ x, s.out.test = some x → x.pattern = .buzzer → expired x.half = false) →
      exec .testBuzzerHalf s = .next s)

/-- The expiry of a test's duration timer ends the test with OK (R120), delivered to the side that asked for it
(R155, R169). That otherwise the command changes nothing is the model's choice, log entry 2. -/
def Obligations.TestDurationEndsTest : Prop :=
  ∀ s : State,
    ((∀ x, s.out.test = some x → x.duration.left ≠ 0) → exec .testDurationExpiry s = .next s) ∧
    (∀ x, s.out.test = some x → x.duration.left = 0 → ∃ t, exec .testDurationExpiry s = .next t ∧
      t.out.test = none ∧ t.out.lastResult = .ok ∧ noticeSet t .outputTest = true ∧
      t.out.arbiter = s.out.arbiter ∧ t.out.supervision = s.out.supervision ∧
      (∀ m : Fin 16, t.out.lamps[m].owner ≠ .test) ∧
      (∀ n, x.side = .window → s.win.ops.test = .slot n →
        t.win.slots = s.win.slots.set n.val .done n.isLt ∧ t.win.ops = { s.win.ops with test := .idle } ∧
        noticeSet t .slotDone = true ∧ (s.win.ram.wf → slotByte t n 3 = 0 ∧ slotByte t n 4 = 0)) ∧
      (∀ tag, x.side = .workshop → s.link.reply = .waiting tag (some .test) →
        t.link.reply = .ready tag [19, 0] ∧ t.win.slots = s.win.slots) ∧
      besideWarnings t = besideWarnings s ∧ t.warn = s.warn ∧
      t.faults = s.faults ∧ t.store = s.store ∧
      ramKept (outputArea :: slotResultArea s.win.ops.test) s t ∧
      noticesKept [.outputTest, .slotDone] s t)

/-- What a debounced change of one line does to the Doorway Monitor, at a sense sample that changes that line alone
and leaves the speed source as it is: the combination and state of a doorway with its timers (R72 to R74), the
overlays and flags (R75), and what they add to an open record (R79). The stop cycle that a doorway's change is
judged by is StopCycleIsJudged. -/
def Obligations.SenseSampleMovesDoorways : Prop :=
  ∀ (s : State) (ratios : Vector Sample 32) (wire : Bool) (inputs : Vector Sample 6),
    ∃ t, exec (.senseSample ratios wire inputs) s = .next t ∧ ∀ (n : Fin 32) (k : Fin 4),
      (∀ m : Fin 32, t.sense.lines[m].debounced = s.sense.lines[m].debounced ↔ m ≠ n) →
      sourceValid t.pulse = sourceValid s.pulse →
      let role := (lineEntry s.image n).role
      let present := doorwayPresent s.image k = true
      let d := s.door.doorways[k]
      let put : Doorway → Vector Doorway 4 := fun x => s.door.doorways.set k.val x k.isLt
      let adds : (StopRecord → StopRecord) → Option OpenStop := fun f =>
        s.door.stop.map (fun o => { o with record := f o.record })
      let active : Role → Bool := fun r => decide (roleState t r = some .active)
      (role = .switchClosed k ∨ role = .openEnd k →
        let combo := comboJudged t k
        (¬ present ∨ combo = d.combo → t.door = s.door) ∧
        (present → combo ≠ d.combo →
          t.door.doorways = put (doorwayMoved t.time.now (travelLimit s.image k) combo d) ∧
          t.door.kneel = s.door.kneel ∧ t.door.ramp = s.door.ramp ∧ t.door.age = s.door.age ∧
          t.door.matureDue = s.door.matureDue ∧ t.door.dpermit = s.door.dpermit)) ∧
      (role = .edge k → t.door =
        if present then
          { s.door with
            doorways := put { d with obstructed := active (.edge k) }
            stop := if t.sense.lines[n].debounced = .active then
                adds (fun r => { r with obstructions := min (r.obstructions + 1) 255 })
              else s.door.stop }
        else s.door) ∧
      (role = .emergency k → t.door =
        if present then
          { s.door with
            doorways := put { d with emergency := active (.emergency k) }
            stop := if active (.emergency k) = true ∧ d.emergency = false then
                adds (fun r => { r with flags := r.flags ||| 4 })
              else s.door.stop }
        else s.door) ∧
      (role = .kneel → t.door = { s.door with
        kneel := active .kneel
        stop := if active .kneel = true ∧ s.door.kneel = false then
            adds (fun r => { r with flags := r.flags ||| 2 })
          else s.door.stop }) ∧
      (role = .ramp → t.door = { s.door with
        ramp := active .ramp
        stop := if active .ramp = true ∧ s.door.ramp = false then
            adds (fun r => { r with flags := r.flags ||| 1 })
          else s.door.stop }) ∧
      (t.door.doorways[k].state ≠ d.state → noticeSet t .doorsChanged = true)

/-- The expiries of the supervision timers: of the period timer in each stage (R123, R124), and of the HRSTn
timer (R124). That with no expired timer each command changes nothing is the model's choice, log entry 2; the
appearance that fallbackEntered leaves out is named there. -/
def Obligations.SupervisionTimers : Prop :=
  ∀ s : State,
    let v := s.out.supervision
    (expired v.timer = false → exec .supvPeriodExpiry s = .next s) ∧
    (expired v.timer = true → v.stage = .watching → exec .supvPeriodExpiry s = .next
      { s with
        out := { s.out with supervision := { v with
          stage := .warned, timer := some { left := v.period, since := s.time.now } } }
        win := { s.win with notice := s.win.notice ||| 0x100 } }) ∧
    (expired v.timer = true → v.stage = .warned →
      ∃ t, exec .supvPeriodExpiry s = .next t ∧ fallbackEntered s t) ∧
    (expired v.timer = true → v.stage = .fallback → exec .supvPeriodExpiry s = .next
      { s with out := { s.out with supervision := { v with
          progress := false, expected := 0x5A, timer := none } } }) ∧
    (expired v.hrst = true → exec .hrstnTimerExpiry s = .next
      { s with out := { s.out with supervision := { v with hrst := none } } }) ∧
    (expired v.hrst = false → exec .hrstnTimerExpiry s = .next s)

/-! ## The Retained Store -/

/-- The start of a job and of a waiting page (R142, R143): the odometer ring first, else the oldest; the content
captured as it stands; the ring's slot index and write count advanced (R45), the configuration write count
(R147); the page that is begun fails its check until it is written (R146); and the requests that wait on the
object learn of the start (R145). The rest of the state stays. That otherwise nothing changes is the model's
choice, log entry 2; that the page keeps its old content with a check byte that differs by a constant is log
entry 8. -/
def Obligations.JobsAndPagesStart : Prop :=
  ∀ s : State,
    let allowed := ∃ v, s.analog.channels[5].y = some v ∧ 1600 ≤ v
    let old := s.store.array
    let begun : Captured → Nat → NvArray := fun c page =>
      match c with
      | .ring k _ =>
        { old with ring := old.ring.set k.val { old.ring[k] with checkError := Config.failedCheck } k.isLt }
      | .tripA _ => { old with tripA := { old.tripA with checkError := Config.failedCheck } }
      | .tripB _ => { old with tripB := { old.tripB with checkError := Config.failedCheck } }
      | .calibration _ => { old with calibration := { old.calibration with checkError := Config.failedCheck } }
      | .configuration _ _ =>
        if h : page < 64 then
          { old with
            configuration := old.configuration.set page
              { old.configuration[page] with checkError := Config.failedCheck } h }
        else old
      | .header _ _ => { old with header := { old.header with checkError := Config.failedCheck } }
      | .place i _ =>
        { old with places := old.places.set i.val { old.places[i] with checkError := Config.failedCheck } i.isLt }
    let counts := s.dist.writeCounts
    let slot := s.dist.nextSlot
    let configCount := if 65535 ≤ s.store.configCount then 1 else s.store.configCount + 1
    let content : Object → Captured := fun o =>
      match o with
      | .ring => .ring slot
          { value := word40 (bcdOdometer s.dist.live), count := min (counts[slot] + 1) 65535 }
      | .tripA => .tripA s.dist.tripA
      | .tripB => .tripB s.dist.tripB
      | .calibration => .calibration s.pulse.k
      | .configuration => .configuration s.image configCount
      | .header => .header (recordCount s) s.faults.overflow
      | .place i => .place i (match s.faults.places[i] with
          | .stored r => some r
          | .free => none
          | .erasing _ => none)
    let learns : Option Waiter → Option Waiter := fun w => w.map (fun x => { x with started := true })
    (∀ o, s.store.job = none → allowed →
      (o = .ring ∧ Object.ring ∈ s.store.queue ∨
        Object.ring ∉ s.store.queue ∧ s.store.queue.head? = some o) →
      exec .jobStart s = .next
        { s with
          store := { s.store with
            queue := s.store.queue.erase o
            job := some { object := o, content := content o, page := 0, retry := false
                          phase := .inFlight s.time.now }
            array := begun (content o) 0
            configCount := if o = .configuration then configCount else s.store.configCount }
          dist := { s.dist with
            nextSlot := if o = .ring then slot + 1 else slot
            writeCounts := if o = .ring then counts.set slot.val (min (counts[slot] + 1) 65535) slot.isLt
              else counts
            preset := if o = .ring then learns s.dist.preset else s.dist.preset
            kfactor := if o = .calibration then learns s.dist.kfactor else s.dist.kfactor }
          win := { s.win with
            adoption := if o = .configuration then learns s.win.adoption else s.win.adoption }
          faults := { s.faults with
            clear := s.faults.clear.map (fun c =>
              { c with waits := c.waits.map (fun x => if x.object = o then { x with started := true } else x) }) } }) ∧
    (s.store.job ≠ none ∨ s.store.queue = [] ∨ ¬ allowed → exec .jobStart s = .next s) ∧
    (∀ j, s.store.job = some j → j.phase = .waiting → allowed →
      exec .pageStart s = .next
        { s with store := { s.store with
            job := some { j with phase := .inFlight s.time.now }, array := begun j.content j.page } }) ∧
    ((∀ j, s.store.job = some j → j.phase ≠ .waiting ∨ ¬ allowed) → exec .pageStart s = .next s)

/-- A page completion (R143, R144): a failed first attempt is retried, a page that succeeds is followed by the
next, the last one ends the job with success, a failed retry ends it with failure. The outcome reaches the ring's
retained value (R46), the preset, the k-factor and the adoption that wait on the job (R52, R53, R145, R171), the
ERASING place (R135) and the clear with its re-entry (R136); a change of STORE_FAULT has the warnings judged (R93
to R95). The completion falls 6 ms after the start, and a page that succeeds holds the content with the check byte
computed over it (R140); what the check computes is free, log entry 7. That a re-entry's record enqueues its place
before the header, record by record, and that the place freed enqueues nothing, is the model's choice, log entries 29
and 48. The places are
stated where STORE_FAULT does not change, because the order of the clear's completion and the judging of its
change is the model's choice, log entry 44; a re-entry with an overflow count above 255, which no run reaches
(overflowLaw), is left out. -/
def Obligations.PageCompletionMovesJob : Prop :=
  ∀ (s : State) (j : Job) (since : Nat), s.store.job = some j → j.phase = .inFlight since →
    ∃ good bad, exec (.pageCompletion true) s = .next good ∧ exec (.pageCompletion false) s = .next bad ∧
      let last := (match j.object with | .configuration => 64 | _ => 1) ≤ j.page + 1
      let started := ∃ v, s.analog.channels[5].y = some v ∧ 1600 ≤ v
      let now := max s.time.now (since + 6000)
      (good.time.now = now ∧ bad.time.now = now) ∧
      (¬ last → good.store.job = some { j with
          page := j.page + 1, retry := false
          phase := if good.analog.channels[5].y.any (fun v => decide (1600 ≤ v)) = true
            then .inFlight now else .waiting }) ∧
      (j.retry = false → started → bad.store.job = some { j with retry := true, phase := .inFlight now }) ∧
      (j.retry = false → ¬ started → bad.store.job = some { j with retry := true, phase := .waiting }) ∧
      (last → good.store.job = none ∧
        (∀ o, o ∈ good.store.notRetained ↔ o ∈ s.store.notRetained ∧ o ≠ j.object) ∧
        (noticeSet s .store = false →
          (noticeSet good .store = true ↔ s.store.notRetained ≠ [] ∧ good.store.notRetained = [])) ∧
        good.dist.live = s.dist.live ∧
        (∀ slot v k, j.object = .ring → j.content = .ring slot v → bcdValue v.value = some k →
          good.dist.retained = k)) ∧
      (last → let old := s.store.array
        match j.content with
        | .ring slot v => ∃ page, good.store.array = { old with ring := old.ring.set slot.val page slot.isLt } ∧
          page.content = v ∧ page.checkByte slotCheck = slotCheck v
        | .tripA x => ∃ page, good.store.array = { old with tripA := page } ∧
          page.content = x ∧ page.checkByte tripCheck = tripCheck x
        | .tripB x => ∃ page, good.store.array = { old with tripB := page } ∧
          page.content = x ∧ page.checkByte tripCheck = tripCheck x
        | .calibration k => ∃ page, good.store.array = { old with calibration := page } ∧
          page.content = k ∧ page.checkByte calibrationCheck = calibrationCheck k
        | .header records overflow => ∃ page, good.store.array = { old with header := page } ∧
          page.content = (records, overflow) ∧ page.checkByte headerCheck = headerCheck (records, overflow)
        | .place i r => ∃ page, good.store.array = { old with places := old.places.set i.val page i.isLt } ∧
          page.content = r ∧ page.checkByte placeCheck = placeCheck r
        | .configuration _ _ => True) ∧
      (∀ image count, j.content = .configuration image count → ∀ h : j.page < 64,
        let page := good.store.array.configuration[j.page]
        let written : ConfigPage := { bytes := image.slice (32 * j.page) 32, count := count }
        page.content = written ∧ page.checkByte configCheck = configCheck written) ∧
      (j.retry = true → bad.store.job = none ∧ j.object ∈ bad.store.notRetained ∧
        (∀ o, o ≠ j.object → (o ∈ bad.store.notRetained ↔ o ∈ s.store.notRetained)) ∧
        noticeSet bad .store = true ∧ bad.store.array = s.store.array ∧ bad.dist.live = s.dist.live ∧
        bad.dist.retained = s.dist.retained ∧ bad.dist.nextSlot = s.dist.nextSlot) ∧
      (∀ (t : State) (ok : Bool), (t = good ∧ last ∧ ok = true) ∨ (t = bad ∧ j.retry = true ∧ ok = false) →
        let result : Byte := if ok = true then 0 else 9
        let owns := j.object = .header ∨ ∃ i, j.object = .place i
        let mine : ClearWait := { object := j.object, started := true }
        (if j.object = .ring ∧ (s.dist.preset.any (fun w => w.started)) = true then t.dist.preset = none
         else t.dist.preset = s.dist.preset) ∧
        (∀ w, j.object = .ring → s.dist.preset = some w → w.started = true →
          delivered s t .preset w.side 17 result) ∧
        (if j.object = .calibration ∧ (s.dist.kfactor.any (fun w => w.started)) = true then
          t.dist.kfactor = none
         else t.dist.kfactor = s.dist.kfactor) ∧
        (∀ w, j.object = .calibration → s.dist.kfactor = some w → w.started = true →
          delivered s t .kfactor w.side 18 result) ∧
        (if j.object = .configuration ∧ (s.win.adoption.any (fun w => w.started)) = true then
          t.win.adoption = none
         else t.win.adoption = s.win.adoption) ∧
        (∀ w, j.object = .configuration → s.win.adoption = some w → w.started = true →
          delivered s t .adopt w.side 0 result) ∧
        (s.faults.clear = none → t.faults.clear = none) ∧
        (∀ c, s.faults.clear = some c →
          let rest := c.waits.filter (fun x => decide (x ≠ mine))
          let freed : Vector Place 40 :=
            match j.object with
            | .place i =>
              (match s.faults.places[i] with
               | .erasing _ => s.faults.places.set i.val .free i.isLt
               | _ => s.faults.places)
            | _ => s.faults.places
          (¬ owns ∨ mine ∉ c.waits → t.faults.clear = some c) ∧
          (owns → mine ∈ c.waits → rest ≠ [] →
            t.faults.clear = some { c with waits := rest, failed := c.failed || !ok } ∧
            (storeFault t = storeFault s → t.faults.places = freed ∧ t.faults.overflow = s.faults.overflow)) ∧
          (owns → mine ∈ c.waits → rest = [] →
            t.faults.clear = none ∧
            delivered s t .clear c.side 16 (if (c.failed || !ok) = true then 9 else 0) ∧
            noticeSet t .faultMemoryChanged = true ∧
            (storeFault t = storeFault s → s.faults.overflow ≤ 255 → ∃ u,
              reentered c.scope s.warn.list { s with faults := { s.faults with places := freed } } u ∧
              t.faults.places = u.faults.places ∧ t.faults.overflow = u.faults.overflow ∧
              t.store.queue = u.store.queue)))) ∧
      (∀ t, t = good ∨ t = bad →
        (storeFault t ≠ storeFault s → warningsJudged t now s.warn t.warn) ∧
        (storeFault t = storeFault s → t.warn = s.warn) ∧
        t.sense = s.sense ∧ t.pulse = s.pulse ∧ t.analog = s.analog ∧ t.door = s.door ∧ t.image = s.image ∧
        t.pending = s.pending ∧ t.out.supervision = s.out.supervision ∧ t.win.claims = s.win.claims ∧
        t.link.session = s.link.session ∧ t.link.request = s.link.request ∧
        t.dist.tripA = s.dist.tripA ∧ t.dist.tripB = s.dist.tripB ∧ t.dist.ticks = s.dist.ticks)

/-! ## The Workshop Link -/

/-- A whole request frame whose check matches is accepted (R150, R151, R153): the request enters its buffer,
the reply becomes WAITING, an OPEN session's timer restarts, and WCK is held after the answer (R152). A frame is
refused at its head where the request buffer is full, at a length of 0 or above 48, and at a check that does not
match: this character and every further one is answered high, both buffers and the session's timer stay, and WCK is
not held. -/
def Obligations.RequestFrameIsAccepted : Prop :=
  (∀ (s : State) (head : Byte) (rest : List Byte), s.link.hold = none → head.msb = false →
    let refused : List Byte → State := fun progress =>
      { s with link := { s.link with
          inFrame := true, counter := 9, shift := [], kind := .ignored, progress := progress, answer := true
          out := .undecided, holdNext := false } }
    let frame : List Byte → Host.Outcome State Fault Refusal := fun chars =>
      exec (.requestFrame true (head :: chars ++ rest) []) s
    (s.link.request ≠ none → frame [] = .next (refused [])) ∧
    (s.link.request = none → ∀ length : Byte, length = 0 ∨ 48 < length.toNat →
      frame [length] = .next (refused [head])) ∧
    (s.link.request = none → ∀ (payload : List Byte) (check : Byte), payload.length ≠ 0 → payload.length ≤ 48 →
      let body := head :: BitVec.ofNat 8 payload.length :: payload
      check ≠ body.foldl (· ^^^ ·) 0 →
      frame (BitVec.ofNat 8 payload.length :: payload ++ [check]) = .next (refused body))) ∧
  ∀ (s : State) (head : Byte) (payload : List Byte),
    s.link.hold = none → s.link.request = none → head.msb = false →
    payload.length ≠ 0 → payload.length ≤ 48 →
    let length : Byte := BitVec.ofNat 8 payload.length
    let check := (head :: length :: payload).foldl (· ^^^ ·) 0
    ∃ t, exec (.requestFrame true (head :: length :: payload ++ [check]) []) s = .next t ∧
      t.link.request = some { tag := head.setWidth 7, payload := payload, acceptedAt := s.time.now } ∧
      t.link.reply = .waiting (head.setWidth 7) none ∧
      t.link.hold = some { left := 2, since := s.time.now } ∧ t.link.session = s.link.session ∧
      t.link.sessionTimer = (if s.link.session = true then some { left := 500, since := s.time.now }
        else s.link.sessionTimer) ∧
      t.link.inFrame = true ∧ t.link.counter = 9 ∧ { t with link := s.link } = s

/-- A fetch frame at every state of the reply buffer (R152, R155, R156). A READY reply whose characters, to the
check, are all answered low becomes DELIVERED; one that ends before leaves it READY. A DELIVERED, an EMPTY and a
DISCARDED reply give their characters and stay. A WAITING reply makes the part hold WCK after the head, and what is
clocked then reaches nothing; the hold ends with READY where a service answers, and with DISCARDED where the session
closes. None touches the request or the session. -/
def Obligations.FetchDeliversReadyReply : Prop :=
  ∀ (s : State) (head tag : BitVec 7) (payload : List Byte) (k : Nat),
    let chars : Byte → BitVec 7 → List Byte → List Byte := fun status tag payload =>
      let body := status :: tag.setWidth 8 :: BitVec.ofNat 8 payload.length :: payload
      body ++ [body.foldl (· ^^^ ·) 0]
    let fetch := exec (.fetchFrame (some head) (List.replicate k false) 0) s
    let kept : State → Prop := fun t =>
      t.link.request = s.link.request ∧ t.link.session = s.link.session ∧
      t.link.sessionTimer = s.link.sessionTimer ∧ { t with link := s.link } = s
    let same : State → List Byte → Prop := fun t sent =>
      t.link.reply = s.link.reply ∧ t.link.hold = none ∧
      t.link.out = (if k < sent.length then .sending false sent k else .ended)
    let waits := s.link.kind = .fetch ∧ s.link.out = .undecided ∧ s.link.hold ≠ none
    (s.link.hold = none →
      (s.link.reply = .ready tag payload → payload.length ≤ 250 → ∃ t, fetch = .next t ∧
        (payload.length + 4 ≤ k → t.link.reply = .delivered tag payload ∧ t.link.out = .ended) ∧
        (k < payload.length + 4 → t.link.reply = .ready tag payload ∧
          t.link.out = .sending true (chars 1 tag payload) k) ∧
        t.link.hold = none ∧ kept t) ∧
      (s.link.reply = .delivered tag payload → ∃ t, fetch = .next t ∧ same t (chars 1 tag payload) ∧ kept t) ∧
      (s.link.reply = .empty → ∃ t, fetch = .next t ∧ same t [3, 0, 0, 3] ∧ kept t) ∧
      (s.link.reply = .discarded tag → ∃ t, fetch = .next t ∧ same t (chars 4 tag []) ∧ kept t) ∧
      (∀ operation, s.link.reply = .waiting tag operation → ∃ t, fetch = .next t ∧
        t.link.reply = .waiting tag operation ∧ t.link.hold = some { left := 2, since := s.time.now } ∧
        t.link.kind = .fetch ∧ t.link.out = .undecided ∧ kept t)) ∧
    (∀ r, requested s r 3 1 → waits → ∃ t, exec .keepSession s = .next t ∧ t.link.hold = none ∧
      t.link.out = .sending true (chars 1 r.tag [3, 0]) 0) ∧
    (∀ operation, s.link.reply = .waiting tag operation → waits → expired s.link.sessionTimer = true →
      ∃ t, exec .sessionTimerExpiry s = .next t ∧ t.link.hold = none ∧ t.link.reply = .discarded tag ∧
        t.link.out = .sending false (chars 4 tag []) 0)

/-- A mark close ends the frame and touches neither buffer (R150, R151); the expiry of the hold timer releases
WCK and decides the status of a fetch that waited for it: PENDING for a reply that is WAITING (R152, R155, R156).
That a mark close during a hold changes nothing is log entry 16, that a timer which has not expired makes its
command change nothing is log entry 2: the model's choices. -/
def Obligations.MarkCloseAndHoldExpiry : Prop :=
  ∀ s : State,
    let l := s.link
    (l.hold = none → exec .markClose s = .next { s with link := { l with
      inFrame := false, counter := 0, shift := [], kind := .none, progress := [], answer := false
      out := .undecided, holdNext := false } }) ∧
    (l.hold ≠ none → exec .markClose s = .next s) ∧
    (expired l.hold = false → exec .linkHoldExpiry s = .next s) ∧
    (expired l.hold = true →
      exec .linkHoldExpiry s = .next { s with link := { l with
        hold := none
        out := if l.kind = .fetch ∧ l.out = .undecided then fetchOf l.reply else l.out } } ∧
      ∀ tag k, l.reply = .waiting tag k → fetchOf l.reply =
        .sending false [2, tag.setWidth 8, 0, (2 : Byte) ^^^ tag.setWidth 8] 0)

/-- The session opens and closes (R157): OPEN_SESSION, CLOSE_SESSION, and the expiry of its timer. The instant of a
take is the model's choice among those that R154 allows, log entry 22; that a timer which has not expired makes
its command change nothing is log entry 2. -/
def Obligations.SessionOpensAndCloses : Prop :=
  ∀ s : State,
    (∀ r, s.link.request = some r → r.payload = [1] → ∃ t, exec .openSession s = .next t ∧
      let now := linkTakeInstant r.acceptedAt s.time.now
      linkAnswers s t
        { s with link := { s.link with session := true, sessionTimer := some { left := 500, since := now } } }
        r 1 0 [] [] [.workshop] ∧
      (s.link.session = false → noticeSet t .workshop = true) ∧
      (s.link.session = true → t.win.notice = s.win.notice)) ∧
    (∀ r, requested s r 2 1 → ∃ t, exec .closeSession s = .next t ∧ sessionClosed s t ∧
      t.link.reply = .ready r.tag [2, 0]) ∧
    (expired s.link.sessionTimer = true → ∃ t, exec .sessionTimerExpiry s = .next t ∧
      sessionClosed s t ∧
      t.link.reply = (match s.link.reply with
        | .empty => .empty
        | .delivered _ _ => .empty
        | .waiting tag _ => .discarded tag
        | .ready tag _ => .discarded tag
        | .discarded tag => .discarded tag)) ∧
    (expired s.link.sessionTimer = false → exec .sessionTimerExpiry s = .next s)

/-- KEEP_SESSION and the ten reading services, with the session OPEN: the reply is READY with the data as they
stand, and nothing else changes (R159, R160); without a session all but READ_IDENT answer NO_SESSION, and a
payload of the wrong length answers BAD_PARAMETER (R154). The data are those of ReadingDataBytes. The instant of a
take is the model's choice among the three timer steps that R154 allows, log entry 22. -/
def Obligations.ReadingServicesAnswer : Prop :=
  ∀ (c : Instr) (code : Byte) (length : Nat) (read : Request → State → Result ⊕ List Byte),
    reader c = some (code, length, read) → ∀ (s : State) (r : Request),
    (requested s r code length → ∃ t, exec c s = .next t ∧
      match read r s with
      | .inr data => linkAnswers s t s r code 0 data [] []
      | .inl e => linkAnswers s t s r code e.code [] [] []) ∧
    (s.link.request = some r → r.payload[0]? = some code → s.link.session = false → code ≠ 4 →
      ∃ t, exec c s = .next t ∧ linkAnswers s t s r code 7 [] [] []) ∧
    (s.link.request = some r → r.payload[0]? = some code → s.link.session = true ∨ code = 4 →
      r.payload.length ≠ length → ∃ t, exec c s = .next t ∧ linkAnswers s t s r code 4 [] [] []) ∧
    (s.link.request = some r → r.payload = [4] → code = 4 →
      ∃ t, exec c s = .next t ∧ linkAnswers s t s r 4 0 (identData s) [] [])

/-- The data of the ten readings, byte by byte, with the multi-byte numbers most significant byte first (R162, R178):
READ_IDENT, READ_CHANNELS (R70), READ_SENSE (R16), READ_DOORS (R86), READ_WARNINGS (R160), READ_FAULT_SUMMARY and
READ_FAULT (R138), READ_ODOMETER (R54), READ_K_FACTOR (R38) and READ_STOP_JOURNAL (R87); and the 32 bytes of the
page of a fault record object (R176). That READ_SENSE and READ_DOORS give the bytes of the images as last
rewritten is log entry 11; that the doorway summary is reversed as one field is log entry 12; that the sender fault
flag of SUPPLY is sent as 0 is log entry 43. -/
def Obligations.ReadingDataBytes : Prop :=
  ∀ s : State,
    let b := octet
    let two : Nat → List Byte := fun n => (Safety.two n).reverse
    let four : Nat → List Byte := fun n => (Safety.four n).reverse
    (let k := if s.pulse.calValid = true then s.pulse.k else 0
     kFactorData s = two k ++ [if s.pulse.calValid = true then 1 else 0]) ∧
    identData s = [0x4B, 0x31, 0x01, if s.link.session = true then 1 else 0,
      match s.win.source with | .stored => 0 | .adopted => 1 | .defaults => 2] ∧
    (odometerData s).length = 38 ∧
    (s.dist.live ≤ 999999999 → bcdValue (word40 ((odometerData s).take 5)) = some s.dist.live) ∧
    (s.dist.retained ≤ 999999999 →
      bcdValue (word40 (((odometerData s).drop 5).take 5)) = some s.dist.retained) ∧
    (odometerData s).drop 10 =
      [b (flag s.dist.lost), if Object.ring ∈ s.store.notRetained then 1 else 0] ++
      ([s.dist.tripA, s.dist.tripB].map (fun x => bcdThree x.value ++ [b (flag x.running)])).flatten ++
      [b s.dist.ticks, b s.dist.nextSlot.val] ++ (s.dist.writeCounts.toList.map two).flatten ∧
    channelsData s =
      ((List.finRange 6).map (fun c : Fin 6 =>
        let x := s.analog.channels[c]
        two (x.mean.getD 0xFFFF) ++
        two (signed (shownNow s c)) ++
        [b (statusCode (statusNow s c)), b (flag (decide (c.val < 5) && x.fault))])).flatten ++
      [b (flag s.analog.crankHold + 2 * flag s.analog.supplyLow)] ++ two s.pulse.raw ++
      two s.pulse.displayed ++
      [b (speedCode s.pulse.status), b (flag s.pulse.wireBroken + 2 * flag (!s.pulse.calValid)),
       b (motionCode s.pulse.motion)] ++
      two s.pulse.rpm ++ [b (flag s.pulse.running)] ∧
    (senseData s = (List.range 49).map (fun k => ramRead s (0x1041 + k))) ∧
    (doorsData s = ([0x1081, 0x1082, 0x1083, 0x1084, 0x1085, 0x1086, 0x108A, 0x1089, 0x1088, 0x1087, 0x108C,
      0x108B].map (ramRead s))) ∧
    (∀ index : Nat,
      let count := s.warn.list.length
      (index < count ∨ (index = 0 ∧ count = 0) → warningsData index s = .inr
        ([b count] ++ four s.warn.nextNumber ++ [b index] ++
          (((s.warn.list.drop index).take 20).map (fun w =>
            [b w.val, (match (warningDef s.image w).cls with | .stop => 0 | .caution => 1 | .info => 2),
             (match s.warn.warnings[w].state with
              | .inactive => 0 | .pending => 1 | .activeUnack => 2 | .activeAck => 3 | .latched => 4)] ++
            four ((s.warn.warnings[w].number).getD 0) ++
            two (min (s.warn.warnings[w].age / 100) 65535))).flatten)) ∧
      (count ≤ index → ¬ (index = 0 ∧ count = 0) → warningsData index s = .inl .badParameter)) ∧
    summaryData s = [b (recordCount s), b s.faults.overflow, b (flag s.faults.clear.isSome)] ++
      (s.faults.places.toList.map (fun p => match p with
        | .free => [0, 0xFF]
        | .stored r => [recordHead r, b r.code.val]
        | .erasing _ => [2, 0xFF])).flatten ∧
    (∀ i : Fin 40, faultData i.val s = .inr (b i.val :: placeLaid List.reverse s.faults.places[i])) ∧
    (∀ index : Nat, 40 ≤ index → faultData index s = .inl .badParameter) ∧
    (∀ r : FaultRecord, recordPage (some r) = placeLaid id (.stored r) ++ List.replicate 7 0) ∧
    recordPage none = placeLaid id .free ++ List.replicate 7 0 ∧
    (∀ (index : Nat) (r : StopRecord), s.door.journal[index]? = some r → journalData index s = .inr
      ([b s.door.journal.length, b index] ++ four r.sequence ++ four r.openStamp.toNat ++
        four r.closeStamp.toNat ++
        bcdFive r.odometer ++ two r.dwell ++ [b r.mask.toNat, b r.obstructions, r.flags])) ∧
    (∀ index : Nat, s.door.journal.length ≤ index → journalData index s = .inl .badParameter)

/-- TAKE_CLAIM and GIVE_CLAIM of a claim (R158): the holder, the result, CLAIM_CHANGED, and the claim's holder in
the reply; a claim number above 3 and a payload of the wrong length give BAD_PARAMETER (R154, R158). That the
reply carries the holder with BUSY and NOT_CLAIMED too is log entry 30 (R158 and R159 disagree); the instant of a
take is the model's choice among those that R154 allows, log entry 22. -/
def Obligations.LinkClaims : Prop :=
  (∀ (s : State) (r : Request) (c : Instr) (code : Byte),
    (c = .takeClaim ∧ code = 14) ∨ (c = .giveClaim ∧ code = 15) →
    (requested s r code 2 → 3 < (param r.payload 1).toNat →
      ∃ t, exec c s = .next t ∧ linkAnswers s t s r code 4 [] [] []) ∧
    (s.link.request = some r → r.payload[0]? = some code → s.link.session = true → r.payload.length ≠ 2 →
      ∃ t, exec c s = .next t ∧ linkAnswers s t s r code 4 [] [] [])) ∧
  ∀ (s : State) (r : Request) (k : Claim), (param r.payload 1).toNat = claimNumber k →
    (requested s r 14 2 → ∃ t, exec .takeClaim s = .next t ∧
      match s.win.claims.holder k with
      | .free =>
        linkAnswers s t { s with win := { s.win with claims := s.win.claims.give k .workshop } } r 14 0 [2]
          [] [.claimChanged] ∧ noticeSet t .claimChanged = true
      | .workshop => linkAnswers s t s r 14 0 [2] [] []
      | .window => linkAnswers s t s r 14 5 [1] [] []) ∧
    (requested s r 15 2 → ∃ t, exec .giveClaim s = .next t ∧
      match s.win.claims.holder k with
      | .workshop =>
        t.link.reply = .ready r.tag [15, 0, 0] ∧ noticeSet t .claimChanged = true ∧
        t.win.claims = s.win.claims.give k .free ∧ t.link.request = none ∧
        (k ≠ .outputs ∨ s.out.test = none →
          linkAnswers s t { s with win := { s.win with claims := t.win.claims } } r 15 0 [0] []
            [.claimChanged]) ∧
        (∀ x, k = .outputs → s.out.test = some x → x.side = .workshop →
          t.out.test = none ∧ t.out.lastResult = .aborted .claimReleased)
      | .free => linkAnswers s t s r 15 2 [0] [] []
      | .window => linkAnswers s t s r 15 2 [1] [] [])

/-- A kind or a service code that names nothing gives UNKNOWN_KIND and does nothing else (R154, R169, R170). The
other two checks of R154, for each of the 20 services: with the session CLOSED, NO_SESSION but for OPEN_SESSION
and READ_IDENT; else, with a payload of another length than the service's, BAD_PARAMETER. The instant of a take on
the link is the model's choice among those that R154 allows, log entry 22. -/
def Obligations.UnknownKindAnswers : Prop :=
  ∀ s : State,
    (∀ (i : Nat) (n : Fin 8) (kind : Byte), takeDue s i n kind → kind = 0 ∨ 9 ≤ kind.toNat →
      ∃ t, exec (.unknownKind .window) s = .next t ∧ slotCompletes s t s i n 6 0 [] []) ∧
    (∀ (r : Request) (code : Byte), s.link.request = some r → r.payload[0]? = some code →
      code = 0 ∨ 21 ≤ code.toNat →
      ∃ t, exec (.unknownKind .workshop) s = .next t ∧ linkAnswers s t s r code 6 [] [] []) ∧
    (∀ (c : Instr) (r : Request) (code : Byte) (length : Nat), service c = some (code, length) →
      s.link.request = some r → r.payload[0]? = some code →
      (s.link.session = false → code ≠ 1 → code ≠ 4 →
        ∃ t, exec c s = .next t ∧ linkAnswers s t s r code 7 [] [] []) ∧
      (s.link.session = true ∨ code = 1 ∨ code = 4 → r.payload.length ≠ length →
        ∃ t, exec c s = .next t ∧ linkAnswers s t s r code 4 [] [] []))

/-! ## Requests and operations -/

/-- ADOPT_CONFIG (R171): the checks in their order with their results, and a request that passes. What the blocks make
of the new image: the lines (R11), the sender channels (R69), the doorways with their timers, the flags and the stop
cycle (R88), and the warnings, which all return to INACTIVE and are judged afresh (R109), with the sense, door and
warning list images. It leaves the motion state, the standstill start time and age, the journal and an open record (R17, R36, R81,
R84, R88), also where PARKING_BRAKE returns to UNKNOWN with the source INVALID: log entry 37. What an adoption's own
judging adds to the mask and the flags of an open record is log entry 21, the order of the returns that it hands the
Fault Memory log entry 41. A second line of the role IGNITION, which no valid image has (R13), is left out where it
would act. That the cycle stays ARRIVED is stated under `imageLaw`, which every step keeps (StepKeepsStorageLaw): with a
switch role on two lines, which no valid image has (R14), a doorway could open under the old image. -/
def Obligations.AdoptConfig : Prop :=
  ∀ (s : State) (i : Nat) (n : Fin 8), takeDue s i n 1 →
    ∃ t, exec .adoptConfig s = .next t ∧
      let unset := (lineOfRole s.image .parkingBrake).isNone || roleActive s .parkingBrake
      let image := s.win.ram.slice 0x0400 2048
      if s.win.claims.config ≠ .window then slotCompletes s t s i n 2 0 [] []
      else if ignitionOn s = false ∨ s.pulse.motion ≠ .standstill ∨ unset = false then
        slotCompletes s t s i n 3 0 [] []
      else if s.win.adoption ≠ none then slotCompletes s t s i n 5 0 [] []
      else match firstFailing image with
        | some item => slotCompletes s t s i n 8 (BitVec.ofNat 8 item) [] []
        | none =>
          t.image = image ∧ t.win.source = .adopted ∧
          t.win.adoption = some { side := .window, started := false } ∧
          t.win.ops.adopt = .slot n ∧ t.win.attention[n] = none ∧ t.time.now = i ∧
          (s.win.ops.test ≠ .slot n → t.win.slots[n] = .taken ∧
            (s.win.ram.wf → slotByte t n 3 = 0xFF ∧ slotByte t n 4 = 0)) ∧
          Object.configuration ∈ t.store.queue ∧ noticeSet t .warningsChanged = true ∧
          (∀ l : Fin 32, lineEntry s.image l = lineEntry image l → t.sense.lines[l] = s.sense.lines[l]) ∧
          (∀ l : Fin 32, lineEntry s.image l ≠ lineEntry image l →
            t.sense.lines[l] =
              { debounced := if l = 0 then s.sense.lines[l].debounced else .unknown
                candidate := none, run := 0, lastClass := s.sense.lines[l].lastClass }) ∧
          (∀ m : Fin 16, s.out.test = none → t.out.lamps[m] = s.out.lamps[m]) ∧
          (∀ l : Fin 32, l ≠ 0 → (lineEntry s.image l).role = .parkingBrake →
            lineEntry s.image l ≠ lineEntry image l → lineState s l = .active → s.out.test ≠ none →
            (∀ m : Fin 32, m ≠ 0 → (lineEntry s.image m).role ≠ .ignition) →
            t.out.test = none ∧ t.out.lastResult = .aborted .parkingBrake) ∧
          ((∀ m : Fin 32, m ≠ 0 → (lineEntry s.image m).role ≠ .ignition) →
            t.analog =
              { s.analog with
                channels := Vector.ofFn fun c : Fin 6 =>
                  let x := s.analog.channels[c]
                  if h : c.val < 5 then
                    if senderEntry s.image ⟨c.val, h⟩ = senderEntry image ⟨c.val, h⟩ then x
                    else
                      { sum := x.sum, count := x.count, late := x.late, mean := none, x := none, y := none
                        status := .invalid, fault := false, hold := none, quick := 0 }
                  else x }) ∧
          (∀ k : Fin 4,
            let d := s.door.doorways[k]
            let fresh : Doorway :=
              { state := .unknown, combo := .fault, obstructed := false, emergency := false, travel := none
                conflict := none }
            let combo := comboJudged t k
            let moved := doorwayMoved i (travelLimit image k) combo
            let overlaid : Doorway → Doorway := fun x =>
              { x with obstructed := roleActive t (.edge k), emergency := roleActive t (.emergency k) }
            let changed : Fin 32 → Prop := fun l =>
              l ≠ 0 ∧ lineEntry s.image l ≠ lineEntry image l ∧ s.sense.lines[l].debounced ≠ .unknown
            (doorwayPresent image k = false → t.door.doorways[k] = fresh) ∧
            (doorwayPresent image k = true → doorwayPresent s.image k = false →
              t.door.doorways[k] = overlaid (moved fresh)) ∧
            (doorwayPresent image k = true → doorwayPresent s.image k = true →
              ((∀ l : Fin 32, (lineEntry s.image l).role = .switchClosed k ∨
                  (lineEntry s.image l).role = .openEnd k → ¬ changed l) →
                t.door.doorways[k] = overlaid (if combo = d.combo then d else moved d)) ∧
              (∀ (r : Role) (l : Fin 32), r = .switchClosed k ∨ r = .openEnd k →
                lineOfRole s.image r = some l → changed l →
                t.door.doorways[k] = overlaid
                  (if d.combo ≠ .fault then moved fresh else if combo = .fault then d else moved d)))) ∧
          t.door.kneel = roleActive t .kneel ∧ t.door.ramp = roleActive t .ramp ∧
          ((∃ k : Fin 4, notClosed t k = true) → t.door.cycle = .atStop) ∧
          (s.door.cycle = .atStop ∨ s.door.cycle = .departing →
            (∀ k : Fin 4, doorwayPresent image k = true → t.door.doorways[k].state = .closed) →
            t.door.cycle = .departing) ∧
          (imageLaw s → s.door.cycle = .arrived → (∀ k : Fin 4, notClosed s k = false) →
            (∀ k : Fin 4, notClosed t k = false) → t.door.cycle = .arrived) ∧
          (senseBytes t ≠ senseBytes s → imageWritten senseArea (senseBytes t) s t) ∧
          (doorBytes t ≠ doorBytes s → imageWritten doorArea (doorBytes t) s t) ∧
          warningsJudged t i
            { s.warn with
              list := []
              warnings := Vector.ofFn fun w : Fin 48 =>
                { state := .inactive, timer := none, number := none, age := 0, onsetAt := 0
                  truth := (warningDef image w).enabled && gaugeJudged (warningDef image w) s.warn.handed false } }
            t.warn ∧
          imageWritten listArea (listBytes t) s t ∧
          ((∀ w : Fin 48, t.warn.warnings[w].state ≠ .activeUnack) →
            returnsHanded s t i True (fun w => w ∈ s.warn.list)) ∧
          t.pulse = s.pulse ∧ t.door.age = s.door.age ∧ t.door.dpermit = permitJudged t ∧
          (s.door.nextSequence ≠ 0 → t.door.journal = s.door.journal) ∧
          (s.door.cycle = .atStop ∨ s.door.cycle = .departing →
            t.door.nextSequence = s.door.nextSequence ∧ t.door.journal = s.door.journal ∧
            t.door.latch = s.door.latch ∧
            ∀ o, s.door.stop = some o → ∃ o', t.door.stop = some o' ∧ o'.openedAt = o.openedAt ∧
              o'.record = { o.record with mask := o'.record.mask, flags := o'.record.flags }) ∧
          t.dist.live = s.dist.live ∧ t.dist.retained = s.dist.retained ∧
          t.out.supervision = s.out.supervision ∧ t.win.claims = s.win.claims ∧ t.pending = s.pending ∧
          t.store.array = s.store.array ∧ t.store.job = s.store.job ∧
          t.link.request = s.link.request ∧ t.link.session = s.link.session ∧
          (∀ a : Nat, 0x0300 ≤ a → a < 0x1000 → ramRead t a = ramRead s a)

/-- ACK_WARNINGS (R104) with ALL or a mask: ACTIVE_UNACK becomes ACTIVE_ACK, LATCHED becomes INACTIVE and leaves
the list, the others stay (R102); the repeat ends with the last call of a STOP warning, and a pending burst then
starts (R106), and the record of a warning that becomes INACTIVE becomes PASSIVE (R130); another selector gives
BAD_PARAMETER. The order of the acknowledgements is log entry 40. A record that becomes PASSIVE is counted in the
model's own viewEvents, log entry 42. -/
def Obligations.AckWarningsAcknowledges : Prop :=
  ∀ (s : State) (i : Nat) (n : Fin 8), takeDue s i n 2 →
    ∃ t, exec .ackWarnings s = .next t ∧
      let selector := slotByte s n 6
      let named : Fin 48 → Prop := fun w =>
        selector = 1 ∨ (selector = 0 ∧ (slotByte s n (7 + w.val / 8)).getLsbD (w.val % 8) = true)
      (1 < selector.toNat → slotCompletes s t s i n 4 0 [] []) ∧
      (selector.toNat ≤ 1 →
        (∀ w : Fin 48,
          (named w → s.warn.warnings[w].state = .activeUnack → t.warn.warnings[w].state = .activeAck) ∧
          (named w → s.warn.warnings[w].state = .latched →
            t.warn.warnings[w].state = .inactive ∧ (s.warn.list.Nodup → w ∉ t.warn.list)) ∧
          (¬ named w ∨ (s.warn.warnings[w].state ≠ .activeUnack ∧ s.warn.warnings[w].state ≠ .latched) →
            t.warn.warnings[w] = s.warn.warnings[w] ∧ (w ∈ t.warn.list ↔ w ∈ s.warn.list))) ∧
        t.warn.nextNumber = s.warn.nextNumber ∧ t.faults.overflow = s.faults.overflow ∧
        returnsHanded s t i
          (∃ w : Fin 48, named w ∧
            (s.warn.warnings[w].state = .activeUnack ∨ s.warn.warnings[w].state = .latched))
          (fun w => named w ∧ s.warn.warnings[w].state = .latched) ∧
        slotCompletes s t
          { s with
            warn := { s.warn with warnings := t.warn.warnings, list := t.warn.list }
            out := { s.out with arbiter := t.out.arbiter }
            faults := { s.faults with places := t.faults.places, viewEvents := t.faults.viewEvents }
            store := { s.store with queue := t.store.queue } }
          i n 0 0 [outputArea, listArea, faultArea] [.warningsChanged, .faultMemoryChanged])

/-- TRIP_CONTROL (R42): each trip applies its action, a trip that changed has its job enqueued, the slot gets OK;
an action outside the five makes the request BAD_PARAMETER and neither trip changes. That trip A's job comes before
trip B's is the model's choice, log entry 39. -/
def Obligations.TripControlActs : Prop :=
  ∀ (s : State) (i : Nat) (n : Fin 8), takeDue s i n 3 →
    ∃ t, exec .tripControl s = .next t ∧
      let a := (slotByte s n 6).toNat
      let b := (slotByte s n 7).toNat
      let act : Nat → Trip → Trip := fun c x =>
        if c = 1 then { value := x.value, running := true }
        else if c = 2 then { value := x.value, running := false }
        else if c = 3 then { value := 0, running := x.running }
        else if c = 4 then { value := 0, running := true }
        else x
      let jobs := if act a s.dist.tripA = s.dist.tripA then s.store.queue
        else addJob s.store.queue .tripA
      (4 < a ∨ 4 < b → slotCompletes s t s i n 4 0 [] []) ∧
      (a ≤ 4 → b ≤ 4 →
        slotCompletes s t
          { s with
            dist := { s.dist with tripA := act a s.dist.tripA, tripB := act b s.dist.tripB }
            store := { s.store with
              queue := if act b s.dist.tripB = s.dist.tripB then jobs else addJob jobs .tripB } }
          i n 0 0 [] [])

/-- SET_K_FACTOR and WRITE_K_FACTOR: the checks in their order with their results, and a request that passes (R33,
R53), its slot TAKEN with the result 0xFF (R177). Where the calibration record was valid, or the wire is broken,
nothing else changes; where it was not and the wire is healthy, the speed source returns (R32): the edge
references start afresh at the take, the motion state becomes UNKNOWN with no standstill start time, and the stop
cycle, the permit (R85), the quick adopts (R65), a running test (R119) and the warnings follow. The instant of a
take on the link is the model's choice among those that R154 allows, log entry 22. -/
def Obligations.KFactorIsSet : Prop :=
  ∀ s : State,
    let acc : Nat → Nat := fun k => if s.pulse.calValid = true then s.pulse.acc * k / s.pulse.k else 0
    let taken : Nat → Side → State := fun k side =>
      { s with
        pulse := { s.pulse with k := k, calValid := true, acc := acc k }
        dist := { s.dist with kfactor := some { side := side, started := false } }
        store := { s.store with queue := addJob s.store.queue .calibration } }
    let fresh : Nat → Side → Nat → State → Prop := fun k side now t =>
      let set : PulseUnit := { s.pulse with k := k, calValid := true, acc := 0 }
      (s.pulse.wireBroken = true → t.pulse = set ∧ t.door = s.door ∧ t.warn = s.warn ∧ t.analog = s.analog ∧
        t.out = s.out ∧ t.faults = s.faults) ∧
      (s.pulse.wireBroken = false →
        t.pulse =
          { set with
            reference := none, count := 0, lastEdge := BitVec.ofNat 32 now, motion := .unknown
            standstillAt := none } ∧
        cycleFollows s t (motionMarks s t s.door) ∧ t.door.dpermit = permitJudged t ∧
        (∀ c : Fin 6, t.analog.channels[c] = { s.analog.channels[c] with quick := 0 }) ∧
        (s.out.test ≠ none → t.out.test = none ∧ t.out.lastResult = .aborted .motion) ∧
        warningsJudged t now s.warn t.warn) ∧
      t.time.now = now ∧ t.dist.kfactor = some { side := side, started := false } ∧
      Object.calibration ∈ t.store.queue ∧
      t.dist.live = s.dist.live ∧ t.dist.retained = s.dist.retained ∧ t.dist.tripA = s.dist.tripA ∧
      t.dist.tripB = s.dist.tripB ∧ t.dist.ticks = s.dist.ticks ∧ t.sense = s.sense ∧ t.image = s.image ∧
      t.win.claims = s.win.claims ∧ t.pending = s.pending
    let bad : Nat → Option Byte := fun k =>
      if k < 2000 ∨ 65000 < k then some 4 else none
    let refused : Nat → Holder → Option Byte := fun k h =>
      match bad k with
      | some e => some e
      | none =>
        if s.win.claims.odometer ≠ h then some 2
        else if s.pulse.motion ≠ .standstill then some 3
        else if s.dist.kfactor ≠ none then some 5
        else none
    (∀ (i : Nat) (n : Fin 8), takeDue s i n 6 → ∃ t, exec .setKFactor s = .next t ∧
      let k := (slotByte s n 6).toNat + 256 * (slotByte s n 7).toNat
      (∀ e, refused k .window = some e → slotCompletes s t s i n e 0 [] []) ∧
      (refused k .window = none → s.pulse.calValid = true →
        slotInFlight s t (taken k .window) i n .kfactor [] []) ∧
      (refused k .window = none → s.pulse.calValid = false →
        fresh k .window i t ∧ t.win.ops.kfactor = .slot n ∧
          (s.win.ops.test ≠ .slot n → t.win.slots[n] = .taken ∧
            (s.win.ram.wf → slotByte t n 3 = 0xFF ∧ slotByte t n 4 = 0)))) ∧
    (∀ r : Request, requested s r 18 3 → ∃ t, exec .writeKFactor s = .next t ∧
      let k := 256 * (param r.payload 1).toNat + (param r.payload 2).toNat
      (∀ e, refused k .workshop = some e → linkAnswers s t s r 18 e [] [] []) ∧
      (refused k .workshop = none → s.pulse.calValid = true →
        linkServes s t (taken k .workshop) r (.waiting r.tag (some .kfactor)) [] []) ∧
      (refused k .workshop = none → s.pulse.calValid = false →
        fresh k .workshop (linkTakeInstant r.acceptedAt s.time.now) t ∧
          t.link.reply = .waiting r.tag (some .kfactor) ∧ t.link.request = none))

/-- PRESET_ODOMETER of either side: the checks of R51 in their order with their results, and a request that passes
(R52), its slot TAKEN with the result 0xFF (R177). The instant of a take on the link is the model's choice among
those that R154 allows, log entry 22. -/
def Obligations.PresetOdometerIsTaken : Prop :=
  ∀ s : State,
    let taken : Nat → Side → State := fun v side =>
      { s with
        dist := { s.dist with
          live := v, lost := false, ticks := 0, preset := some { side := side, started := false } }
        store := { s.store with queue := addJob s.store.queue .ring } }
    let refused : Option Nat → Holder → Option Byte := fun v h =>
      match v with
      | none => some 4
      | some v =>
        if v < s.dist.live then some 4
        else if s.win.claims.odometer ≠ h then some 2
        else if s.pulse.motion ≠ .standstill then some 3
        else if s.dist.preset ≠ none then some 5
        else none
    (∀ (i : Nat) (n : Fin 8), takeDue s i n 5 → ∃ t, exec (.presetOdometer .window) s = .next t ∧
      let v := bcdValue (word40 (slotParams s n 5))
      (∀ e, refused v .window = some e → slotCompletes s t s i n e 0 [] []) ∧
      (∀ d, v = some d → refused v .window = none →
        slotInFlight s t (taken d .window) i n .preset [] [])) ∧
    (∀ r : Request, requested s r 17 6 → ∃ t, exec (.presetOdometer .workshop) s = .next t ∧
      let v := bcdValue (word40 (r.payload.drop 1))
      (∀ e, refused v .workshop = some e → linkAnswers s t s r 17 e [] [] []) ∧
      (∀ d, v = some d → refused v .workshop = none →
        linkServes s t (taken d .workshop) r (.waiting r.tag (some .preset)) [] []))

/-- CLEAR_FAULTS of either side: the checks of R133 with their results; a clear that passes and chooses a place
or all of them (R134), in flight with the scope that its re-entry goes by (R136), none for ALL and the code for
CODE, its slot TAKEN with the result 0xFF (R177), and one with CODE that finds none, which completes
at its take with its re-entry (R136). That the jobs of the chosen places enter the queue in ascending order is log
entry 47. The instant of a take on the link is the model's choice among those that R154 allows, log entry 22; that the
view is rewritten where nothing changed is log entry 42; that a re-entry's record enqueues its place before the
header is log entry 29. A re-entry with an overflow count above 255, which no run reaches (overflowLaw), is left
out. -/
def Obligations.ClearFaultsIsTaken : Prop :=
  ∀ s : State,
    let inScope : Byte → Byte → Fin 48 → Prop := fun selector code w => selector = 0 ∨ w.val = code.toNat
    let chosen : Byte → Byte → Fin 40 → Prop := fun selector code j =>
      ∃ q, s.faults.places[j] = .stored q ∧ inScope selector code q.code
    let bad : Byte → Byte → Prop := fun selector code =>
      1 < selector.toNat ∨ (selector = 1 ∧ 48 ≤ code.toNat)
    let cleared : Byte → Byte → Side → State → Prop := fun selector code side t =>
      (∀ j : Fin 40,
        (∀ q, s.faults.places[j] = .stored q → inScope selector code q.code →
          t.faults.places[j] = .erasing q) ∧
        (¬ chosen selector code j → t.faults.places[j] = s.faults.places[j]) ∧
        (chosen selector code j → Object.place j ∈ t.store.queue)) ∧
      Object.header ∈ t.store.queue ∧ (∀ o ∈ s.store.queue, o ∈ t.store.queue) ∧
      t.faults.overflow = (if selector = 0 then 0 else s.faults.overflow) ∧
      (∃ x, t.faults.clear = some x ∧ x.side = side ∧ x.failed = false ∧
        (selector = 0 → x.scope = none) ∧
        (selector = 1 → ∃ w : Fin 48, x.scope = some w ∧ w.val = code.toNat) ∧
        (∀ o, { object := o, started := false } ∈ x.waits ↔
          o = .header ∨ ∃ j, chosen selector code j ∧ o = .place j))
    let empty : Byte → State → Prop := fun code t =>
      t.faults.clear = none ∧ noticeSet t .faultMemoryChanged = true ∧
      ∀ w : Fin 48, w.val = code.toNat → s.faults.overflow ≤ 255 → ∃ u, reentered (some w) s.warn.list s u ∧
        t.faults.places = u.faults.places ∧ t.faults.overflow = u.faults.overflow ∧
        t.store.queue = u.store.queue
    (∀ (i : Nat) (n : Fin 8), takeDue s i n 4 → ∃ t, exec (.clearFaults .window) s = .next t ∧
      let selector := slotByte s n 6
      let code := slotByte s n 7
      let mid : State := { s with faults := t.faults, store := { s.store with queue := t.store.queue } }
      if bad selector code then slotCompletes s t s i n 4 0 [] []
      else if s.win.claims.faults ≠ .window then slotCompletes s t s i n 2 0 [] []
      else if s.faults.clear ≠ none then slotCompletes s t s i n 5 0 [] []
      else
        ((selector = 1 ∧ ∀ j, ¬ chosen selector code j) →
          slotCompletes s t mid i n 0 0 [faultArea] [.faultMemoryChanged] ∧ empty code t) ∧
        (¬ (selector = 1 ∧ ∀ j, ¬ chosen selector code j) →
          cleared selector code .window t ∧
          slotInFlight s t mid i n .clear [faultArea] [.faultMemoryChanged])) ∧
    (∀ r : Request, requested s r 16 3 → ∃ t, exec (.clearFaults .workshop) s = .next t ∧
      let selector := param r.payload 1
      let code := param r.payload 2
      let mid : State := { s with faults := t.faults, store := { s.store with queue := t.store.queue } }
      if bad selector code then linkAnswers s t s r 16 4 [] [] []
      else if s.win.claims.faults ≠ .workshop then linkAnswers s t s r 16 2 [] [] []
      else if s.faults.clear ≠ none then linkAnswers s t s r 16 5 [] [] []
      else
        ((selector = 1 ∧ ∀ j, ¬ chosen selector code j) →
          linkAnswers s t mid r 16 0 [] [faultArea] [.faultMemoryChanged] ∧ empty code t) ∧
        (¬ (selector = 1 ∧ ∀ j, ¬ chosen selector code j) →
          cleared selector code .workshop t ∧
          linkServes s t mid r (.waiting r.tag (some .clear)) [faultArea] [.faultMemoryChanged]))

/-- OUTPUT_TEST of either side: the checks of R117 with their results, and the start of a test that passes (R118),
its slot TAKEN with the result 0xFF (R177). The instant of a take on the link, at which the timers start, is the
model's choice among those that R154 allows, log entry 22. -/
def Obligations.OutputTestStarts : Prop :=
  ∀ s : State,
    let refused : Byte → Byte → Holder → Option Byte := fun pattern seconds h =>
      if 3 < pattern.toNat ∨ seconds = 0 ∨ 60 < seconds.toNat then some 4
      else if s.win.claims.outputs ≠ h then some 2
      else if ignitionOn s = false ∨ s.pulse.motion ≠ .standstill ∨ roleActive s .parkingBrake = false ∨
        (∃ w : Fin 48, s.warn.warnings[w].state = .activeUnack ∧ (warningDef s.image w).cls = .stop) then
        some 3
      else if s.out.test ≠ none then some 5
      else none
    let started : Byte → Byte → Side → Nat → State → Prop := fun pattern seconds side now t =>
      ∃ p : Pattern, p.code = pattern.toNat ∧
        t.out.test = some
          { side := side, pattern := p, duration := { left := 100 * seconds.toNat, since := now }
            startedAt := now, cycles := 0, step := 0, buzzOn := true
            half := if p = .lampWalk ∨ p = .buzzer then some { left := 50, since := now } else none } ∧
        (p = .lampWalk → ∀ m : Fin 16, t.out.lamps[m].owner = .test ∧
          t.out.lamps[m].appearance = if m = 0 then .fast else .off) ∧
        (p = .allLamps → ∀ m : Fin 16, t.out.lamps[m].owner = .test ∧ t.out.lamps[m].appearance = .on) ∧
        noticeSet t .outputTest = true
    (∀ (i : Nat) (n : Fin 8), takeDue s i n 7 → ∃ t, exec (.outputTest .window) s = .next t ∧
      let pattern := slotByte s n 6
      let seconds := slotByte s n 7
      (∀ e, refused pattern seconds .window = some e → slotCompletes s t s i n e 0 [] []) ∧
      (refused pattern seconds .window = none → started pattern seconds .window i t ∧
        slotInFlight s t { s with out := { s.out with test := t.out.test, lamps := t.out.lamps } } i n .test
          [outputArea] [.outputTest])) ∧
    (∀ r : Request, requested s r 19 3 → ∃ t, exec (.outputTest .workshop) s = .next t ∧
      let pattern := param r.payload 1
      let seconds := param r.payload 2
      (∀ e, refused pattern seconds .workshop = some e → linkAnswers s t s r 19 e [] [] []) ∧
      (refused pattern seconds .workshop = none →
        started pattern seconds .workshop (linkTakeInstant r.acceptedAt s.time.now) t ∧
        linkServes s t { s with out := { s.out with test := t.out.test, lamps := t.out.lamps } } r
          (.waiting r.tag (some .test)) [outputArea] [.outputTest]))

/-- OUTPUT_TEST_STOP of either side: the checks of R121 with their results; one that passes aborts the test with
STOPPED and completes with OK, and the window's own test request completes with ABORTED (R120). The instant of a
take on the link is the model's choice among those that R154 allows, log entry 22. -/
def Obligations.OutputTestStops : Prop :=
  ∀ s : State,
    let ended : State → Prop := fun t =>
      t.out.test = none ∧ t.out.lastResult = .aborted .stopped ∧ noticeSet t .outputTest = true ∧
      t.out.arbiter = s.out.arbiter ∧ t.out.supervision = s.out.supervision ∧ t.sense = s.sense ∧
      t.pulse = s.pulse ∧ t.dist = s.dist ∧ t.analog = s.analog ∧ t.door = s.door ∧ t.warn = s.warn ∧
      t.faults = s.faults ∧ t.store = s.store ∧ t.image = s.image ∧ t.pending = s.pending ∧
      t.win.claims = s.win.claims ∧ t.link.session = s.link.session
    (∀ (i : Nat) (n : Fin 8), takeDue s i n 8 → ∃ t, exec (.outputTestStop .window) s = .next t ∧
      if s.win.claims.outputs ≠ .window then slotCompletes s t s i n 2 0 [] []
      else if s.out.test = none then slotCompletes s t s i n 3 0 [] []
      else ended t ∧ t.win.slots[n] = .done ∧ noticeSet t .slotDone = true ∧
        (s.win.ram.wf → (s.win.ops.test ≠ .slot n) → slotByte t n 3 = 0 ∧ slotByte t n 4 = 0) ∧
        (∀ x m, s.out.test = some x → x.side = .window → s.win.ops.test = .slot m → m ≠ n → s.win.ram.wf →
          t.win.slots[m] = .done ∧ slotByte t m 3 = 1 ∧ slotByte t m 4 = 1)) ∧
    (∀ r : Request, requested s r 20 1 → ∃ t, exec (.outputTestStop .workshop) s = .next t ∧
      if s.win.claims.outputs ≠ .workshop then linkAnswers s t s r 20 2 [] [] []
      else if s.out.test = none then linkAnswers s t s r 20 3 [] [] []
      else ended t ∧ t.link.reply = .ready r.tag [20, 0] ∧ t.link.request = none)

/-! ## The shared window -/

/-- What every address of the window reads (R164): the port words (R165, R176), the holders, the slots, the areas of
window RAM, and 0 elsewhere; that an empty capture shows the address 0 is the model's choice, log entry 10. And the
claim bytes (R167): a READ that starts at one takes a FREE claim at its first data byte, and any other
fetch takes nothing, be it a later data byte or the first of a READ that starts elsewhere; a write of 0 to a claim
held by WINDOW releases it; any other write is refused (R166). -/
def Obligations.ClaimBytes : Prop :=
  (∀ (s : State) (a : Nat), a < 0x2000 → readByte s a = windowByte s a) ∧
  ∀ (s : State) (k : Claim),
    let a : BitVec 16 := BitVec.ofNat 16 (0x0020 + claimNumber k)
    (s.win.claims.holder k = .free →
      exec (.claimTakeRead a 0) s = .next
        { s with win := { s.win with claims := s.win.claims.give k .window, sdo := 0 } }) ∧
    (s.win.claims.holder k ≠ .free →
      exec (.claimTakeRead a 0) s = .next { s with win := { s.win with sdo := (s.win.claims.holder k).code } }) ∧
    (∀ (start : BitVec 16) (index : Nat),
      index ≠ 0 ∨ start.toNat % 0x2000 < 0x0020 ∨ 0x0023 < start.toNat % 0x2000 →
      ∃ b, exec (.claimTakeRead start index) s = .next { s with win := { s.win with sdo := b } } ∧
        (start.toNat % 0x2000 + index < 0x2000 → b = readByte s (start.toNat % 0x2000 + index)) ∧
        (0x2000 ≤ start.toNat % 0x2000 + index → b = 0xFF)) ∧
    (s.win.claims.holder k = .window → k ≠ .outputs ∨ s.out.test = none →
      exec (.claimReleaseWrite k 0) s = .next
        { s with win := { s.win with claims := s.win.claims.give k .free } }) ∧
    (∀ x, s.win.claims.holder k = .window → k = .outputs → s.out.test = some x → x.side = .window →
      ∃ t, exec (.claimReleaseWrite k 0) s = .next t ∧ t.win.claims = s.win.claims.give k .free ∧
        t.out.test = none ∧ t.out.lastResult = .aborted .claimReleased ∧
        noticeSet t .claimChanged = noticeSet s .claimChanged) ∧
    (∀ value : Byte, value ≠ 0 ∨ s.win.claims.holder k ≠ .window →
      exec (.claimReleaseWrite k value) s = .next
        { s with win := { s.win with
          capture := some (s.win.capture.getD (BitVec.ofNat 13 (0x0020 + claimNumber k)))
          faultCount := min (s.win.faultCount + 1) 255
          notice := s.win.notice ||| 0x200 } })

/-- A slot's state byte (R168), whatever value is written, and the attention bits (R165, R169). That a slot which is
marked already keeps its earlier instant is log entry 27. -/
def Obligations.SlotStatesAndAttention : Prop :=
  ∀ (s : State) (n : Fin 8),
    let state : SlotState → State := fun x =>
      { s with win := { s.win with slots := s.win.slots.set n.val x n.isLt } }
    let refused : Nat → State → State := fun a t =>
      { t with win := { t.win with
          capture := some (t.win.capture.getD (BitVec.ofNat 13 a))
          faultCount := min (t.win.faultCount + 1) 255
          notice := t.win.notice ||| 0x200 } }
    (s.win.slots[n] = .free →
      exec (.slotPost n) s = .next (state .posted) ∧ exec (.slotFree n) s = .next s) ∧
    (s.win.slots[n] = .posted → exec (.slotPost n) s = .next s ∧
      exec (.slotFree n) s = .next { state .free with win := { (state .free).win with
        attention := s.win.attention.set n.val none n.isLt } }) ∧
    (s.win.slots[n] = .taken → exec (.slotPost n) s = .next (refused (0x0100 + 64 * n.val) s) ∧
      exec (.slotFree n) s = .next (refused (0x0100 + 64 * n.val) s)) ∧
    (s.win.slots[n] = .done → exec (.slotPost n) s = .next (refused (0x0100 + 64 * n.val) s) ∧
      exec (.slotFree n) s = .next (state .free)) ∧
    (∀ (start : BitVec 16) (index : Nat) (value : Byte),
      start.toNat % 0x2000 + index = 0x0100 + 64 * n.val →
      (value = 0 → exec (.windowWrite start index value) s = exec (.slotFree n) s) ∧
      (value = 1 → exec (.windowWrite start index value) s = exec (.slotPost n) s) ∧
      (value ≠ 0 → value ≠ 1 →
        exec (.windowWrite start index value) s = .next (refused (0x0100 + 64 * n.val) s))) ∧
    (∀ mask : Byte,
      let marked : State :=
        { s with
          win := { s.win with
            attention := Vector.ofFn fun m : Fin 8 =>
              if mask.getLsbD m.val = true ∧ s.win.slots[m] = .posted ∧ s.win.attention[m] = none
              then some s.time.now else s.win.attention[m] } }
      ((∀ m : Fin 8, mask.getLsbD m.val = true → s.win.slots[m] = .posted) →
        exec (.attnSet mask) s = .next marked) ∧
      ((∃ m : Fin 8, mask.getLsbD m.val = true ∧ s.win.slots[m] ≠ .posted) →
        exec (.attnSet mask) s = .next (refused 7 marked)) ∧
      exec (.attnClear mask) s = .next
        { s with
          win := { s.win with
            attention := Vector.ofFn fun m : Fin 8 =>
              if mask.getLsbD m.val = true then none else s.win.attention[m] } })

/-- NOTICE_CLEAR clears the named notices, NOTICE_ENABLE stores the named byte of the enables, and NOTEn is low
exactly while some notice is both pending and enabled (R165, R173); and the bytes of SUPV_CONTROL, each value in
each stage (R122). That 0 written in WATCHING stores the period 0 is log entry 32. -/
def Obligations.NoticeAndSupervisionWords : Prop :=
  (∀ (s : State) (high : Bool) (value : Byte),
    (∃ t, exec (.noticeClear high value) s = .next t ∧
      { t with win := { t.win with notice := s.win.notice } } = s ∧
      ∀ b : Nat, t.win.notice.getLsbD b =
        (s.win.notice.getLsbD b && !(decide ((8 ≤ b) = (high = true)) && value.getLsbD (b % 8)))) ∧
    (∃ t, exec (.noticeEnable high value) s = .next t ∧
      { t with win := { t.win with enable := s.win.enable } } = s ∧
      ∀ b : Nat, b < 13 → t.win.enable.getLsbD b =
        if (8 ≤ b) = (high = true) then value.getLsbD (b % 8) else s.win.enable.getLsbD b) ∧
    (noteLow s = true ↔ ∃ n : Notice, noticeSet s n = true ∧ s.win.enable.getLsbD n.bit = true)) ∧
  ∀ (s : State) (value : Byte),
    let v := s.out.supervision
    let held := v.stage = .warned ∨ v.stage = .fallback
    let put : Supervision → State := fun x => { s with out := { s.out with supervision := x } }
    let refused : Nat → State := fun a =>
      { s with win := { s.win with
          capture := some (s.win.capture.getD (BitVec.ofNat 13 a))
          faultCount := min (s.win.faultCount + 1) 255
          notice := s.win.notice ||| 0x200 } }
    (250 < value.toNat ∨ held → exec (.supvControlPeriod value) s = .next (refused 0x0010)) ∧
    (v.stage = .off → value = 0 → exec (.supvControlPeriod value) s = .next s) ∧
    (v.stage = .off → value ≠ 0 → value.toNat ≤ 250 → exec (.supvControlPeriod value) s = .next
      (put { v with period := value.toNat, stage := .watching, expected := 0x5A
                    timer := some { left := value.toNat, since := s.time.now } })) ∧
    (v.stage = .watching → value = 0 → exec (.supvControlPeriod value) s = .next
      (put { v with period := 0, stage := .off, expected := 0x5A, timer := none })) ∧
    (v.stage = .watching → value ≠ 0 → value.toNat ≤ 250 → exec (.supvControlPeriod value) s = .next
      (put { v with period := value.toNat
                    timer := some { left := value.toNat, since := s.time.now } })) ∧
    (1 < value.toNat ∨ held → exec (.supvControlMode value) s = .next (refused 0x0011)) ∧
    (value.toNat ≤ 1 → ¬ held → exec (.supvControlMode value) s = .next
      (put { v with resets := decide (value = 1) }))

/-- One judgement of the stop cycle (R76, R78, R80 to R82) where a sense sample changes one of its inputs: the
ignition, a doorway's state, whose bit an open record takes first (R79), or the motion state, by the parking
brake of an INVALID source (R31) or by the loss or return of the source (R30, R32); with the permit (R85), the
notices (R76, R81), the journal image byte by byte (R87, R176), and the standstill age of a motion change (R84). -/
def Obligations.StopCycleIsJudged : Prop :=
  ∀ (s : State) (ratios : Vector Sample 32) (wire : Bool) (inputs : Vector Sample 6),
    ∃ t, exec (.senseSample ratios wire inputs) s = .next t ∧
      let same : Fin 32 → Prop := fun m => t.sense.lines[m].debounced = s.sense.lines[m].debounced
      let judged := cycleFollows s t
      (∀ n : Fin 32, (∀ m : Fin 32, same m ↔ m ≠ n) → sourceValid t.pulse = sourceValid s.pulse →
        ((lineEntry s.image n).role = .ignition → n = 0 → ignitionOn t ≠ ignitionOn s →
          judged s.door ∧ t.door.dpermit = permitJudged t) ∧
        (∀ k : Fin 4,
          ((lineEntry s.image n).role = .switchClosed k ∨ (lineEntry s.image n).role = .openEnd k) →
          t.door.doorways ≠ s.door.doorways →
          judged { s.door with
            doorways := t.door.doorways
            stop :=
              if t.door.doorways[k].state ≠ s.door.doorways[k].state ∧ notClosed t k = true then
                s.door.stop.map fun o =>
                  { o with record := { o.record with mask := o.record.mask ||| BitVec.twoPow 4 k.val } }
              else s.door.stop } ∧
          t.door.dpermit = s.door.dpermit) ∧
        ((lineEntry s.image n).role = .parkingBrake →
          (t.pulse.motion = s.pulse.motion → t.door = { s.door with dpermit := permitJudged t }) ∧
          (t.pulse.motion ≠ s.pulse.motion →
            judged (motionMarks s t s.door) ∧ t.door.dpermit = permitJudged t))) ∧
      ((∀ m : Fin 32, same m) → sourceValid t.pulse ≠ sourceValid s.pulse →
        (t.pulse.motion = s.pulse.motion → t.door = { s.door with dpermit := permitJudged t }) ∧
        (t.pulse.motion ≠ s.pulse.motion →
          judged (motionMarks s t s.door) ∧ t.door.dpermit = permitJudged t))

/-- A write to SUPV_REFRESH, good or a refresh fault, in each stage (R123, R124); the warnings are judged at the entry
to FALLBACK and at the return from it (R93 to R95). That the return from FALLBACK clears
the progress is log entry 32. -/
def Obligations.SupervisionRefresh : Prop :=
  ∀ (s : State) (value : Byte),
    let v := s.out.supervision
    let other : Byte := if v.expected = 0x5A then 0xA5 else 0x5A
    let started : Option Timer := some { left := v.period, since := s.time.now }
    let put : Supervision → State := fun x => { s with out := { s.out with supervision := x } }
    let good := value = v.expected
    (v.stage = .off → exec (.supvRefresh value) s = .next s) ∧
    (v.stage = .watching → good → exec (.supvRefresh value) s = .next
      (put { v with expected := other, timer := started, occurred := false })) ∧
    (v.stage = .watching → ¬ good → exec (.supvRefresh value) s = .next
      { put { v with stage := .warned, timer := started } with
        win := { s.win with notice := s.win.notice ||| 0x100 } }) ∧
    (v.stage = .warned → good → exec (.supvRefresh value) s = .next
      (put { v with stage := .watching, expected := other, timer := started, occurred := false })) ∧
    (v.stage = .warned → ¬ good → ∃ t, exec (.supvRefresh value) s = .next t ∧ fallbackEntered s t) ∧
    (v.stage = .fallback → v.progress = false → good → exec (.supvRefresh value) s = .next
      (put { v with progress := true, expected := other, timer := started })) ∧
    (v.stage = .fallback → v.progress = false → ¬ good → exec (.supvRefresh value) s = .next
      (put { v with expected := 0x5A })) ∧
    (v.stage = .fallback → v.progress = true → ¬ good → exec (.supvRefresh value) s = .next
      (put { v with progress := false, expected := 0x5A, timer := none })) ∧
    (v.stage = .fallback → v.progress = true → good → ∃ t, exec (.supvRefresh value) s = .next t ∧
      t.out.supervision = { v with stage := .watching, expected := other, timer := started,
                                   progress := false } ∧
      noticeSet t .supervision = true ∧ t.win.claims = s.win.claims ∧
      (s.out.test = none → ∀ m : Fin 16, t.out.lamps[m].owner = .normal ∧
        t.out.lamps[m].appearance = sourceAppearance s m (lampNormal s.image m)) ∧
      warningsJudged t s.time.now s.warn t.warn ∧
      t.pulse = s.pulse ∧ t.door = s.door ∧ t.dist = s.dist ∧ t.sense = s.sense ∧ t.analog = s.analog ∧
      t.pending = s.pending)

/-- A soft restart (R174, R125), which leaves the warnings as they stand (R110) but for the end of
SUPERVISION_FALLBACK (R93), and a refused value of RESTART (R165). -/
def Obligations.SoftRestartResets : Prop :=
  ∀ s : State, (∃ t, exec (.softRestart 0xC3) s = .next t ∧
      (∀ n : Fin 8, t.win.slots[n] = .free ∧ t.win.attention[n] = none) ∧
      (∀ k : Operation, t.win.ops.get k ≠ .idle → s.win.ops.get k ≠ .idle ∧ t.win.ops.get k = .orphan) ∧
      (∀ k : Operation, k ≠ .test → s.win.ops.get k ≠ .idle → t.win.ops.get k = .orphan) ∧
      t.win.enable = 0 ∧ t.win.capture = none ∧ t.win.faultCount = 0 ∧ t.win.softCause = true ∧
      noteLow t = false ∧
      (∀ k : Claim, t.win.claims.holder k =
        if s.win.claims.holder k = .window then .free else s.win.claims.holder k) ∧
      (∀ x, s.out.test = some x → x.side = .window → t.out.test = none) ∧
      t.out.supervision = { s.out.supervision with
        stage := .off, period := 0, timer := none, expected := 0x5A, progress := false } ∧
      (s.out.test = none → s.out.supervision.stage ≠ .fallback →
        t.win.notice = 0 ∧ t.win.ram = s.win.ram ∧ t.out.lamps = s.out.lamps ∧ t.warn = s.warn ∧
        t.faults = s.faults ∧ t.store = s.store ∧ t.link = s.link) ∧
      (s.out.supervision.stage = .fallback → warningsJudged t s.time.now s.warn t.warn) ∧
      (s.out.supervision.stage ≠ .fallback → t.warn = s.warn) ∧
      (∀ a : Nat, a < 0x1000 → ramRead t a = ramRead s a) ∧
      t.link.session = s.link.session ∧ t.link.request = s.link.request ∧
      t.time = s.time ∧ t.sense = s.sense ∧ t.pulse = s.pulse ∧ t.dist = s.dist ∧ t.analog = s.analog ∧
      t.door = s.door ∧ t.store.array = s.store.array ∧ t.store.job = s.store.job ∧ t.image = s.image ∧
      t.win.source = s.win.source ∧ t.win.adoption = s.win.adoption ∧ t.pending = s.pending) ∧
    (∀ value : Byte, value ≠ 0xC3 → exec (.softRestart value) s = .next
      { s with win := { s.win with
          capture := some (s.win.capture.getD 0x0013)
          faultCount := min (s.win.faultCount + 1) 255
          notice := s.win.notice ||| 0x200 } })

/-- A data byte of a WRITE (R163, R164, R166): stored in the areas that are always writable and in a FREE or
POSTED slot, refused in an image, an unused range, a read-only port word and a TAKEN or DONE slot, dropped past
0x1FFF; in a writable port word or a claim byte it is that word's own command (R165, R167), whose effect other
statements give; and a write to the PORT_FAULT word (R165, R166). The state byte of a slot is stated with SLOT_POST
and SLOT_FREE. -/
def Obligations.WindowWrites : Prop :=
  ∀ (s : State) (value : Byte),
    let refused : Nat → State := fun a =>
      { s with win := { s.win with
          capture := some (s.win.capture.getD (BitVec.ofNat 13 a))
          faultCount := min (s.win.faultCount + 1) 255
          notice := s.win.notice ||| 0x200 } }
    let stored : Nat → State := fun a => { s with win := { s.win with ram := s.win.ram.write a value } }
    (∀ (start : BitVec 16) (index : Nat),
      let a := start.toNat % 0x2000 + index
      let run := exec (.windowWrite start index value) s
      (0x2000 ≤ a → run = .next s) ∧
      ((0x0300 ≤ a ∧ a < 0x0310) ∨ (0x0400 ≤ a ∧ a < 0x0C00) → run = .next (stored a) ∧
        (s.win.ram.wf → ramRead (stored a) a = value) ∧ ∀ b, b ≠ a → ramRead (stored a) b = ramRead s b) ∧
      ((0x1000 ≤ a ∧ a < 0x2000) ∨ (0x0C00 ≤ a ∧ a < 0x1000) ∨ (0x0310 ≤ a ∧ a < 0x0400) ∨
        (0x0024 ≤ a ∧ a < 0x0100) ∨ a ≤ 6 ∨ (9 ≤ a ∧ a ≤ 11) ∨ (24 ≤ a ∧ a < 32) →
        run = .next (refused a)) ∧
      (∀ (n : Fin 8) (offset : Nat), 0 < offset → offset < 64 → a = 0x0100 + 64 * n.val + offset →
        (s.win.slots[n] = .free ∨ s.win.slots[n] = .posted → run = .next (stored a)) ∧
        (s.win.slots[n] = .taken ∨ s.win.slots[n] = .done → run = .next (refused a))) ∧
      (a = 7 → run = exec (.attnSet value) s) ∧ (a = 8 → run = exec (.attnClear value) s) ∧
      (∀ high : Bool, (a = (if high = true then 13 else 12) → run = exec (.noticeClear high value) s) ∧
        (a = (if high = true then 15 else 14) → run = exec (.noticeEnable high value) s)) ∧
      (a = 16 → run = exec (.supvControlPeriod value) s) ∧ (a = 17 → run = exec (.supvControlMode value) s) ∧
      (a = 18 → run = exec (.supvRefresh value) s) ∧ (a = 19 → run = exec (.softRestart value) s) ∧
      (∀ offset : Fin 4, a = 20 + offset.val → run = exec (.portFaultClear offset value) s) ∧
      (∀ k : Claim, a = 32 + claimNumber k → run = exec (.claimReleaseWrite k value) s)) ∧
    (∀ offset : Fin 4,
      (value = 0 → exec (.portFaultClear offset value) s = .next
        { s with win := { s.win with capture := none, faultCount := 0 } }) ∧
      (value ≠ 0 → exec (.portFaultClear offset value) s = .next (refused (0x0014 + offset.val))))

/-! ## Laws that every step keeps -/

/-- The state after reset is the one that a full restart leaves of an array that holds nothing valid, and it
keeps every law. That the array is blank is the model's choice: log entry 3. -/
def Obligations.ResetStateKeepsLaws : Prop :=
  State.reset.store.array = NvArray.blank ∧ State.reset.pending = [] ∧
    exec .fullRestart State.reset = .next State.reset ∧
    storageLaw State.reset ∧ odometerLaw State.reset ∧ listLaw State.reset ∧ recordLaw State.reset ∧
    overflowLaw State.reset ∧ claimLaw State.reset ∧ testLaw State.reset ∧ permitLaw State.reset ∧
    imageLaw State.reset

/-- Every step keeps window RAM in its canonical form and at most one job for an object in the queue (R141), and every
step keeps a configuration in force that passes its validation (R147, R171, R179). -/
def Obligations.StepKeepsStorageLaw : Prop :=
  (∀ s t : State, storageLaw s → step s = .next t → storageLaw t) ∧
  ∀ s t : State, imageLaw s → step s = .next t → imageLaw t

/-- Every step keeps the odometer's law (R46): and but for a full restart neither the live nor the retained
value ever decreases. -/
def Obligations.StepKeepsOdometerLaw : Prop :=
  ∀ s t : State, odometerLaw s → step s = .next t →
    odometerLaw t ∧
      (s.pending.head? ≠ some .fullRestart → s.dist.live ≤ t.dist.live ∧ s.dist.retained ≤ t.dist.retained)

/-- Every step keeps the law of the active warning list (R99): its members, and its order by class and onset
number (R97). -/
def Obligations.StepKeepsListLaw : Prop := ∀ s t : State, listLaw s → step s = .next t → listLaw t

/-- Every step keeps at most one STORED record for a code (R128, R129, R139), and every step keeps the overflow
count at most 255, in its copies too (R129). -/
def Obligations.StepKeepsRecordLaw : Prop :=
  (∀ s t : State, recordLaw s → step s = .next t → recordLaw t) ∧
  ∀ s t : State, overflowLaw s → step s = .next t → overflowLaw t

/-- Every step keeps it that a claim is held by WORKSHOP only while the session is OPEN (R157). -/
def Obligations.StepKeepsClaimLaw : Prop := ∀ s t : State, claimLaw s → step s = .next t → claimLaw t

/-- Every step keeps it that an output test runs only with the ignition ON, at STANDSTILL, with PARKING_BRAKE ACTIVE
and no STOP warning in ACTIVE_UNACK, and while its side holds OUTPUTS (R118, R119). -/
def Obligations.StepKeepsTestLaw : Prop := ∀ s t : State, testLaw s → step s = .next t → testLaw t

/-- Every step keeps it that DPERMIT is asserted only with the ignition ON and a mature standstill, or an INVALID
source with PARKING_BRAKE ACTIVE (R85). -/
def Obligations.StepKeepsPermitLaw : Prop := ∀ s t : State, permitLaw s → step s = .next t → permitLaw t

end ObligationStatements
end

