-- ==== Sys2Proof/Laws/State.lean ====
section
/-! SUPPORT. One lemma for each field of the state and each update: what the update writes there, or that it
leaves the field as it was. -/

namespace Sys2Proof.Machine

@[simp] theorem setNow_now (t : Nat) (s : State) : (setNow t s).time.now = t := rfl
@[simp] theorem setNow_time_lastSense (t : Nat) (s : State) :
    (setNow t s).time.lastSense = s.time.lastSense := rfl
@[simp] theorem setNow_time_lastStep (t : Nat) (s : State) :
    (setNow t s).time.lastStep = s.time.lastStep := rfl
@[simp] theorem setNow_time_lastLamp (t : Nat) (s : State) :
    (setNow t s).time.lastLamp = s.time.lastLamp := rfl
@[simp] theorem setNow_time_lastGauge (t : Nat) (s : State) :
    (setNow t s).time.lastGauge = s.time.lastGauge := rfl
@[simp] theorem setNow_time_lastFast (t : Nat) (s : State) :
    (setNow t s).time.lastFast = s.time.lastFast := rfl
@[simp] theorem setNow_time_lastSlow (t : Nat) (s : State) :
    (setNow t s).time.lastSlow = s.time.lastSlow := rfl
@[simp] theorem setNow_sense (t : Nat) (s : State) :
    (setNow t s).sense = s.sense := rfl
@[simp] theorem setNow_pulse (t : Nat) (s : State) :
    (setNow t s).pulse = s.pulse := rfl
@[simp] theorem setNow_dist (t : Nat) (s : State) :
    (setNow t s).dist = s.dist := rfl
@[simp] theorem setNow_analog (t : Nat) (s : State) :
    (setNow t s).analog = s.analog := rfl
@[simp] theorem setNow_door (t : Nat) (s : State) :
    (setNow t s).door = s.door := rfl
@[simp] theorem setNow_warn (t : Nat) (s : State) :
    (setNow t s).warn = s.warn := rfl
@[simp] theorem setNow_out (t : Nat) (s : State) :
    (setNow t s).out = s.out := rfl
@[simp] theorem setNow_faults (t : Nat) (s : State) :
    (setNow t s).faults = s.faults := rfl
@[simp] theorem setNow_store (t : Nat) (s : State) :
    (setNow t s).store = s.store := rfl
@[simp] theorem setNow_link (t : Nat) (s : State) :
    (setNow t s).link = s.link := rfl
@[simp] theorem setNow_win (t : Nat) (s : State) :
    (setNow t s).win = s.win := rfl
@[simp] theorem setNow_image (t : Nat) (s : State) :
    (setNow t s).image = s.image := rfl
@[simp] theorem setNow_pending (t : Nat) (s : State) :
    (setNow t s).pending = s.pending := rfl

@[simp] theorem setNotice_notice (n : Notice) (s : State) : (setNotice n s).win.notice = s.win.notice ||| n.mask := rfl
@[simp] theorem setNotice_time (n : Notice) (s : State) :
    (setNotice n s).time = s.time := rfl
@[simp] theorem setNotice_sense (n : Notice) (s : State) :
    (setNotice n s).sense = s.sense := rfl
@[simp] theorem setNotice_pulse (n : Notice) (s : State) :
    (setNotice n s).pulse = s.pulse := rfl
@[simp] theorem setNotice_dist (n : Notice) (s : State) :
    (setNotice n s).dist = s.dist := rfl
@[simp] theorem setNotice_analog (n : Notice) (s : State) :
    (setNotice n s).analog = s.analog := rfl
@[simp] theorem setNotice_door (n : Notice) (s : State) :
    (setNotice n s).door = s.door := rfl
@[simp] theorem setNotice_warn (n : Notice) (s : State) :
    (setNotice n s).warn = s.warn := rfl
@[simp] theorem setNotice_out (n : Notice) (s : State) :
    (setNotice n s).out = s.out := rfl
@[simp] theorem setNotice_faults (n : Notice) (s : State) :
    (setNotice n s).faults = s.faults := rfl
@[simp] theorem setNotice_store (n : Notice) (s : State) :
    (setNotice n s).store = s.store := rfl
@[simp] theorem setNotice_link (n : Notice) (s : State) :
    (setNotice n s).link = s.link := rfl
@[simp] theorem setNotice_win_ram (n : Notice) (s : State) :
    (setNotice n s).win.ram = s.win.ram := rfl
@[simp] theorem setNotice_win_slots (n : Notice) (s : State) :
    (setNotice n s).win.slots = s.win.slots := rfl
@[simp] theorem setNotice_win_attention (n : Notice) (s : State) :
    (setNotice n s).win.attention = s.win.attention := rfl
@[simp] theorem setNotice_win_claims (n : Notice) (s : State) :
    (setNotice n s).win.claims = s.win.claims := rfl
@[simp] theorem setNotice_win_enable (n : Notice) (s : State) :
    (setNotice n s).win.enable = s.win.enable := rfl
@[simp] theorem setNotice_win_capture (n : Notice) (s : State) :
    (setNotice n s).win.capture = s.win.capture := rfl
@[simp] theorem setNotice_win_faultCount (n : Notice) (s : State) :
    (setNotice n s).win.faultCount = s.win.faultCount := rfl
@[simp] theorem setNotice_win_softCause (n : Notice) (s : State) :
    (setNotice n s).win.softCause = s.win.softCause := rfl
@[simp] theorem setNotice_win_source (n : Notice) (s : State) :
    (setNotice n s).win.source = s.win.source := rfl
@[simp] theorem setNotice_win_ops (n : Notice) (s : State) :
    (setNotice n s).win.ops = s.win.ops := rfl
@[simp] theorem setNotice_win_adoption (n : Notice) (s : State) :
    (setNotice n s).win.adoption = s.win.adoption := rfl
@[simp] theorem setNotice_win_lastTake (n : Notice) (s : State) :
    (setNotice n s).win.lastTake = s.win.lastTake := rfl
@[simp] theorem setNotice_win_sdo (n : Notice) (s : State) :
    (setNotice n s).win.sdo = s.win.sdo := rfl
@[simp] theorem setNotice_image (n : Notice) (s : State) :
    (setNotice n s).image = s.image := rfl
@[simp] theorem setNotice_pending (n : Notice) (s : State) :
    (setNotice n s).pending = s.pending := rfl

@[simp] theorem ramWrite_ram (a : Nat) (v : Byte) (s : State) : (ramWrite a v s).win.ram = s.win.ram.write a v := rfl
@[simp] theorem ramWrite_time (a : Nat) (v : Byte) (s : State) :
    (ramWrite a v s).time = s.time := rfl
@[simp] theorem ramWrite_sense (a : Nat) (v : Byte) (s : State) :
    (ramWrite a v s).sense = s.sense := rfl
@[simp] theorem ramWrite_pulse (a : Nat) (v : Byte) (s : State) :
    (ramWrite a v s).pulse = s.pulse := rfl
@[simp] theorem ramWrite_dist (a : Nat) (v : Byte) (s : State) :
    (ramWrite a v s).dist = s.dist := rfl
@[simp] theorem ramWrite_analog (a : Nat) (v : Byte) (s : State) :
    (ramWrite a v s).analog = s.analog := rfl
@[simp] theorem ramWrite_door (a : Nat) (v : Byte) (s : State) :
    (ramWrite a v s).door = s.door := rfl
@[simp] theorem ramWrite_warn (a : Nat) (v : Byte) (s : State) :
    (ramWrite a v s).warn = s.warn := rfl
@[simp] theorem ramWrite_out (a : Nat) (v : Byte) (s : State) :
    (ramWrite a v s).out = s.out := rfl
@[simp] theorem ramWrite_faults (a : Nat) (v : Byte) (s : State) :
    (ramWrite a v s).faults = s.faults := rfl
@[simp] theorem ramWrite_store (a : Nat) (v : Byte) (s : State) :
    (ramWrite a v s).store = s.store := rfl
@[simp] theorem ramWrite_link (a : Nat) (v : Byte) (s : State) :
    (ramWrite a v s).link = s.link := rfl
@[simp] theorem ramWrite_win_slots (a : Nat) (v : Byte) (s : State) :
    (ramWrite a v s).win.slots = s.win.slots := rfl
@[simp] theorem ramWrite_win_attention (a : Nat) (v : Byte) (s : State) :
    (ramWrite a v s).win.attention = s.win.attention := rfl
@[simp] theorem ramWrite_win_claims (a : Nat) (v : Byte) (s : State) :
    (ramWrite a v s).win.claims = s.win.claims := rfl
@[simp] theorem ramWrite_win_notice (a : Nat) (v : Byte) (s : State) :
    (ramWrite a v s).win.notice = s.win.notice := rfl
@[simp] theorem ramWrite_win_enable (a : Nat) (v : Byte) (s : State) :
    (ramWrite a v s).win.enable = s.win.enable := rfl
@[simp] theorem ramWrite_win_capture (a : Nat) (v : Byte) (s : State) :
    (ramWrite a v s).win.capture = s.win.capture := rfl
@[simp] theorem ramWrite_win_faultCount (a : Nat) (v : Byte) (s : State) :
    (ramWrite a v s).win.faultCount = s.win.faultCount := rfl
@[simp] theorem ramWrite_win_softCause (a : Nat) (v : Byte) (s : State) :
    (ramWrite a v s).win.softCause = s.win.softCause := rfl
@[simp] theorem ramWrite_win_source (a : Nat) (v : Byte) (s : State) :
    (ramWrite a v s).win.source = s.win.source := rfl
@[simp] theorem ramWrite_win_ops (a : Nat) (v : Byte) (s : State) :
    (ramWrite a v s).win.ops = s.win.ops := rfl
@[simp] theorem ramWrite_win_adoption (a : Nat) (v : Byte) (s : State) :
    (ramWrite a v s).win.adoption = s.win.adoption := rfl
@[simp] theorem ramWrite_win_lastTake (a : Nat) (v : Byte) (s : State) :
    (ramWrite a v s).win.lastTake = s.win.lastTake := rfl
@[simp] theorem ramWrite_win_sdo (a : Nat) (v : Byte) (s : State) :
    (ramWrite a v s).win.sdo = s.win.sdo := rfl
@[simp] theorem ramWrite_image (a : Nat) (v : Byte) (s : State) :
    (ramWrite a v s).image = s.image := rfl
@[simp] theorem ramWrite_pending (a : Nat) (v : Byte) (s : State) :
    (ramWrite a v s).pending = s.pending := rfl

@[simp] theorem rewriteImage_time (base size : Nat) (content : List Byte) (s : State) :
    (rewriteImage base size content s).time = s.time := rfl
@[simp] theorem rewriteImage_sense (base size : Nat) (content : List Byte) (s : State) :
    (rewriteImage base size content s).sense = s.sense := rfl
@[simp] theorem rewriteImage_pulse (base size : Nat) (content : List Byte) (s : State) :
    (rewriteImage base size content s).pulse = s.pulse := rfl
@[simp] theorem rewriteImage_dist (base size : Nat) (content : List Byte) (s : State) :
    (rewriteImage base size content s).dist = s.dist := rfl
@[simp] theorem rewriteImage_analog (base size : Nat) (content : List Byte) (s : State) :
    (rewriteImage base size content s).analog = s.analog := rfl
@[simp] theorem rewriteImage_door (base size : Nat) (content : List Byte) (s : State) :
    (rewriteImage base size content s).door = s.door := rfl
@[simp] theorem rewriteImage_warn (base size : Nat) (content : List Byte) (s : State) :
    (rewriteImage base size content s).warn = s.warn := rfl
@[simp] theorem rewriteImage_out (base size : Nat) (content : List Byte) (s : State) :
    (rewriteImage base size content s).out = s.out := rfl
@[simp] theorem rewriteImage_faults (base size : Nat) (content : List Byte) (s : State) :
    (rewriteImage base size content s).faults = s.faults := rfl
@[simp] theorem rewriteImage_store (base size : Nat) (content : List Byte) (s : State) :
    (rewriteImage base size content s).store = s.store := rfl
@[simp] theorem rewriteImage_link (base size : Nat) (content : List Byte) (s : State) :
    (rewriteImage base size content s).link = s.link := rfl
@[simp] theorem rewriteImage_win_slots (base size : Nat) (content : List Byte) (s : State) :
    (rewriteImage base size content s).win.slots = s.win.slots := rfl
@[simp] theorem rewriteImage_win_attention (base size : Nat) (content : List Byte) (s : State) :
    (rewriteImage base size content s).win.attention = s.win.attention := rfl
@[simp] theorem rewriteImage_win_claims (base size : Nat) (content : List Byte) (s : State) :
    (rewriteImage base size content s).win.claims = s.win.claims := rfl
@[simp] theorem rewriteImage_win_notice (base size : Nat) (content : List Byte) (s : State) :
    (rewriteImage base size content s).win.notice = s.win.notice := rfl
@[simp] theorem rewriteImage_win_enable (base size : Nat) (content : List Byte) (s : State) :
    (rewriteImage base size content s).win.enable = s.win.enable := rfl
@[simp] theorem rewriteImage_win_capture (base size : Nat) (content : List Byte) (s : State) :
    (rewriteImage base size content s).win.capture = s.win.capture := rfl
@[simp] theorem rewriteImage_win_faultCount (base size : Nat) (content : List Byte) (s : State) :
    (rewriteImage base size content s).win.faultCount = s.win.faultCount := rfl
@[simp] theorem rewriteImage_win_softCause (base size : Nat) (content : List Byte) (s : State) :
    (rewriteImage base size content s).win.softCause = s.win.softCause := rfl
@[simp] theorem rewriteImage_win_source (base size : Nat) (content : List Byte) (s : State) :
    (rewriteImage base size content s).win.source = s.win.source := rfl
@[simp] theorem rewriteImage_win_ops (base size : Nat) (content : List Byte) (s : State) :
    (rewriteImage base size content s).win.ops = s.win.ops := rfl
@[simp] theorem rewriteImage_win_adoption (base size : Nat) (content : List Byte) (s : State) :
    (rewriteImage base size content s).win.adoption = s.win.adoption := rfl
@[simp] theorem rewriteImage_win_lastTake (base size : Nat) (content : List Byte) (s : State) :
    (rewriteImage base size content s).win.lastTake = s.win.lastTake := rfl
@[simp] theorem rewriteImage_win_sdo (base size : Nat) (content : List Byte) (s : State) :
    (rewriteImage base size content s).win.sdo = s.win.sdo := rfl
@[simp] theorem rewriteImage_image (base size : Nat) (content : List Byte) (s : State) :
    (rewriteImage base size content s).image = s.image := rfl
@[simp] theorem rewriteImage_pending (base size : Nat) (content : List Byte) (s : State) :
    (rewriteImage base size content s).pending = s.pending := rfl

@[simp] theorem setClaim_claims (k : Claim) (h : Holder) (s : State) : (setClaim k h s).win.claims = s.win.claims.give k h := rfl
@[simp] theorem setClaim_time (k : Claim) (h : Holder) (s : State) :
    (setClaim k h s).time = s.time := rfl
@[simp] theorem setClaim_sense (k : Claim) (h : Holder) (s : State) :
    (setClaim k h s).sense = s.sense := rfl
@[simp] theorem setClaim_pulse (k : Claim) (h : Holder) (s : State) :
    (setClaim k h s).pulse = s.pulse := rfl
@[simp] theorem setClaim_dist (k : Claim) (h : Holder) (s : State) :
    (setClaim k h s).dist = s.dist := rfl
@[simp] theorem setClaim_analog (k : Claim) (h : Holder) (s : State) :
    (setClaim k h s).analog = s.analog := rfl
@[simp] theorem setClaim_door (k : Claim) (h : Holder) (s : State) :
    (setClaim k h s).door = s.door := rfl
@[simp] theorem setClaim_warn (k : Claim) (h : Holder) (s : State) :
    (setClaim k h s).warn = s.warn := rfl
@[simp] theorem setClaim_out (k : Claim) (h : Holder) (s : State) :
    (setClaim k h s).out = s.out := rfl
@[simp] theorem setClaim_faults (k : Claim) (h : Holder) (s : State) :
    (setClaim k h s).faults = s.faults := rfl
@[simp] theorem setClaim_store (k : Claim) (h : Holder) (s : State) :
    (setClaim k h s).store = s.store := rfl
@[simp] theorem setClaim_link (k : Claim) (h : Holder) (s : State) :
    (setClaim k h s).link = s.link := rfl
@[simp] theorem setClaim_win_ram (k : Claim) (h : Holder) (s : State) :
    (setClaim k h s).win.ram = s.win.ram := rfl
@[simp] theorem setClaim_win_slots (k : Claim) (h : Holder) (s : State) :
    (setClaim k h s).win.slots = s.win.slots := rfl
@[simp] theorem setClaim_win_attention (k : Claim) (h : Holder) (s : State) :
    (setClaim k h s).win.attention = s.win.attention := rfl
@[simp] theorem setClaim_win_notice (k : Claim) (h : Holder) (s : State) :
    (setClaim k h s).win.notice = s.win.notice := rfl
@[simp] theorem setClaim_win_enable (k : Claim) (h : Holder) (s : State) :
    (setClaim k h s).win.enable = s.win.enable := rfl
@[simp] theorem setClaim_win_capture (k : Claim) (h : Holder) (s : State) :
    (setClaim k h s).win.capture = s.win.capture := rfl
@[simp] theorem setClaim_win_faultCount (k : Claim) (h : Holder) (s : State) :
    (setClaim k h s).win.faultCount = s.win.faultCount := rfl
@[simp] theorem setClaim_win_softCause (k : Claim) (h : Holder) (s : State) :
    (setClaim k h s).win.softCause = s.win.softCause := rfl
@[simp] theorem setClaim_win_source (k : Claim) (h : Holder) (s : State) :
    (setClaim k h s).win.source = s.win.source := rfl
@[simp] theorem setClaim_win_ops (k : Claim) (h : Holder) (s : State) :
    (setClaim k h s).win.ops = s.win.ops := rfl
@[simp] theorem setClaim_win_adoption (k : Claim) (h : Holder) (s : State) :
    (setClaim k h s).win.adoption = s.win.adoption := rfl
@[simp] theorem setClaim_win_lastTake (k : Claim) (h : Holder) (s : State) :
    (setClaim k h s).win.lastTake = s.win.lastTake := rfl
@[simp] theorem setClaim_win_sdo (k : Claim) (h : Holder) (s : State) :
    (setClaim k h s).win.sdo = s.win.sdo := rfl
@[simp] theorem setClaim_image (k : Claim) (h : Holder) (s : State) :
    (setClaim k h s).image = s.image := rfl
@[simp] theorem setClaim_pending (k : Claim) (h : Holder) (s : State) :
    (setClaim k h s).pending = s.pending := rfl

@[simp] theorem dropClaims_time (h : Holder) (s : State) :
    (dropClaims h s).time = s.time := rfl
@[simp] theorem dropClaims_sense (h : Holder) (s : State) :
    (dropClaims h s).sense = s.sense := rfl
@[simp] theorem dropClaims_pulse (h : Holder) (s : State) :
    (dropClaims h s).pulse = s.pulse := rfl
@[simp] theorem dropClaims_dist (h : Holder) (s : State) :
    (dropClaims h s).dist = s.dist := rfl
@[simp] theorem dropClaims_analog (h : Holder) (s : State) :
    (dropClaims h s).analog = s.analog := rfl
@[simp] theorem dropClaims_door (h : Holder) (s : State) :
    (dropClaims h s).door = s.door := rfl
@[simp] theorem dropClaims_warn (h : Holder) (s : State) :
    (dropClaims h s).warn = s.warn := rfl
@[simp] theorem dropClaims_out (h : Holder) (s : State) :
    (dropClaims h s).out = s.out := rfl
@[simp] theorem dropClaims_faults (h : Holder) (s : State) :
    (dropClaims h s).faults = s.faults := rfl
@[simp] theorem dropClaims_store (h : Holder) (s : State) :
    (dropClaims h s).store = s.store := rfl
@[simp] theorem dropClaims_link (h : Holder) (s : State) :
    (dropClaims h s).link = s.link := rfl
@[simp] theorem dropClaims_win_ram (h : Holder) (s : State) :
    (dropClaims h s).win.ram = s.win.ram := rfl
@[simp] theorem dropClaims_win_slots (h : Holder) (s : State) :
    (dropClaims h s).win.slots = s.win.slots := rfl
@[simp] theorem dropClaims_win_attention (h : Holder) (s : State) :
    (dropClaims h s).win.attention = s.win.attention := rfl
@[simp] theorem dropClaims_win_notice (h : Holder) (s : State) :
    (dropClaims h s).win.notice = s.win.notice := rfl
@[simp] theorem dropClaims_win_enable (h : Holder) (s : State) :
    (dropClaims h s).win.enable = s.win.enable := rfl
@[simp] theorem dropClaims_win_capture (h : Holder) (s : State) :
    (dropClaims h s).win.capture = s.win.capture := rfl
@[simp] theorem dropClaims_win_faultCount (h : Holder) (s : State) :
    (dropClaims h s).win.faultCount = s.win.faultCount := rfl
@[simp] theorem dropClaims_win_softCause (h : Holder) (s : State) :
    (dropClaims h s).win.softCause = s.win.softCause := rfl
@[simp] theorem dropClaims_win_source (h : Holder) (s : State) :
    (dropClaims h s).win.source = s.win.source := rfl
@[simp] theorem dropClaims_win_ops (h : Holder) (s : State) :
    (dropClaims h s).win.ops = s.win.ops := rfl
@[simp] theorem dropClaims_win_adoption (h : Holder) (s : State) :
    (dropClaims h s).win.adoption = s.win.adoption := rfl
@[simp] theorem dropClaims_win_lastTake (h : Holder) (s : State) :
    (dropClaims h s).win.lastTake = s.win.lastTake := rfl
@[simp] theorem dropClaims_win_sdo (h : Holder) (s : State) :
    (dropClaims h s).win.sdo = s.win.sdo := rfl
@[simp] theorem dropClaims_image (h : Holder) (s : State) :
    (dropClaims h s).image = s.image := rfl
@[simp] theorem dropClaims_pending (h : Holder) (s : State) :
    (dropClaims h s).pending = s.pending := rfl

@[simp] theorem setSlotState_slots (n : Fin 8) (st : SlotState) (s : State) : (setSlotState n st s).win.slots = s.win.slots.set n.val st n.isLt := rfl
@[simp] theorem setSlotState_time (n : Fin 8) (st : SlotState) (s : State) :
    (setSlotState n st s).time = s.time := rfl
@[simp] theorem setSlotState_sense (n : Fin 8) (st : SlotState) (s : State) :
    (setSlotState n st s).sense = s.sense := rfl
@[simp] theorem setSlotState_pulse (n : Fin 8) (st : SlotState) (s : State) :
    (setSlotState n st s).pulse = s.pulse := rfl
@[simp] theorem setSlotState_dist (n : Fin 8) (st : SlotState) (s : State) :
    (setSlotState n st s).dist = s.dist := rfl
@[simp] theorem setSlotState_analog (n : Fin 8) (st : SlotState) (s : State) :
    (setSlotState n st s).analog = s.analog := rfl
@[simp] theorem setSlotState_door (n : Fin 8) (st : SlotState) (s : State) :
    (setSlotState n st s).door = s.door := rfl
@[simp] theorem setSlotState_warn (n : Fin 8) (st : SlotState) (s : State) :
    (setSlotState n st s).warn = s.warn := rfl
@[simp] theorem setSlotState_out (n : Fin 8) (st : SlotState) (s : State) :
    (setSlotState n st s).out = s.out := rfl
@[simp] theorem setSlotState_faults (n : Fin 8) (st : SlotState) (s : State) :
    (setSlotState n st s).faults = s.faults := rfl
@[simp] theorem setSlotState_store (n : Fin 8) (st : SlotState) (s : State) :
    (setSlotState n st s).store = s.store := rfl
@[simp] theorem setSlotState_link (n : Fin 8) (st : SlotState) (s : State) :
    (setSlotState n st s).link = s.link := rfl
@[simp] theorem setSlotState_win_ram (n : Fin 8) (st : SlotState) (s : State) :
    (setSlotState n st s).win.ram = s.win.ram := rfl
@[simp] theorem setSlotState_win_attention (n : Fin 8) (st : SlotState) (s : State) :
    (setSlotState n st s).win.attention = s.win.attention := rfl
@[simp] theorem setSlotState_win_claims (n : Fin 8) (st : SlotState) (s : State) :
    (setSlotState n st s).win.claims = s.win.claims := rfl
@[simp] theorem setSlotState_win_notice (n : Fin 8) (st : SlotState) (s : State) :
    (setSlotState n st s).win.notice = s.win.notice := rfl
@[simp] theorem setSlotState_win_enable (n : Fin 8) (st : SlotState) (s : State) :
    (setSlotState n st s).win.enable = s.win.enable := rfl
@[simp] theorem setSlotState_win_capture (n : Fin 8) (st : SlotState) (s : State) :
    (setSlotState n st s).win.capture = s.win.capture := rfl
@[simp] theorem setSlotState_win_faultCount (n : Fin 8) (st : SlotState) (s : State) :
    (setSlotState n st s).win.faultCount = s.win.faultCount := rfl
@[simp] theorem setSlotState_win_softCause (n : Fin 8) (st : SlotState) (s : State) :
    (setSlotState n st s).win.softCause = s.win.softCause := rfl
@[simp] theorem setSlotState_win_source (n : Fin 8) (st : SlotState) (s : State) :
    (setSlotState n st s).win.source = s.win.source := rfl
@[simp] theorem setSlotState_win_ops (n : Fin 8) (st : SlotState) (s : State) :
    (setSlotState n st s).win.ops = s.win.ops := rfl
@[simp] theorem setSlotState_win_adoption (n : Fin 8) (st : SlotState) (s : State) :
    (setSlotState n st s).win.adoption = s.win.adoption := rfl
@[simp] theorem setSlotState_win_lastTake (n : Fin 8) (st : SlotState) (s : State) :
    (setSlotState n st s).win.lastTake = s.win.lastTake := rfl
@[simp] theorem setSlotState_win_sdo (n : Fin 8) (st : SlotState) (s : State) :
    (setSlotState n st s).win.sdo = s.win.sdo := rfl
@[simp] theorem setSlotState_image (n : Fin 8) (st : SlotState) (s : State) :
    (setSlotState n st s).image = s.image := rfl
@[simp] theorem setSlotState_pending (n : Fin 8) (st : SlotState) (s : State) :
    (setSlotState n st s).pending = s.pending := rfl

@[simp] theorem setAttention_attention (n : Fin 8) (b : Option Nat) (s : State) : (setAttention n b s).win.attention = s.win.attention.set n.val b n.isLt := rfl
@[simp] theorem setAttention_time (n : Fin 8) (b : Option Nat) (s : State) :
    (setAttention n b s).time = s.time := rfl
@[simp] theorem setAttention_sense (n : Fin 8) (b : Option Nat) (s : State) :
    (setAttention n b s).sense = s.sense := rfl
@[simp] theorem setAttention_pulse (n : Fin 8) (b : Option Nat) (s : State) :
    (setAttention n b s).pulse = s.pulse := rfl
@[simp] theorem setAttention_dist (n : Fin 8) (b : Option Nat) (s : State) :
    (setAttention n b s).dist = s.dist := rfl
@[simp] theorem setAttention_analog (n : Fin 8) (b : Option Nat) (s : State) :
    (setAttention n b s).analog = s.analog := rfl
@[simp] theorem setAttention_door (n : Fin 8) (b : Option Nat) (s : State) :
    (setAttention n b s).door = s.door := rfl
@[simp] theorem setAttention_warn (n : Fin 8) (b : Option Nat) (s : State) :
    (setAttention n b s).warn = s.warn := rfl
@[simp] theorem setAttention_out (n : Fin 8) (b : Option Nat) (s : State) :
    (setAttention n b s).out = s.out := rfl
@[simp] theorem setAttention_faults (n : Fin 8) (b : Option Nat) (s : State) :
    (setAttention n b s).faults = s.faults := rfl
@[simp] theorem setAttention_store (n : Fin 8) (b : Option Nat) (s : State) :
    (setAttention n b s).store = s.store := rfl
@[simp] theorem setAttention_link (n : Fin 8) (b : Option Nat) (s : State) :
    (setAttention n b s).link = s.link := rfl
@[simp] theorem setAttention_win_ram (n : Fin 8) (b : Option Nat) (s : State) :
    (setAttention n b s).win.ram = s.win.ram := rfl
@[simp] theorem setAttention_win_slots (n : Fin 8) (b : Option Nat) (s : State) :
    (setAttention n b s).win.slots = s.win.slots := rfl
@[simp] theorem setAttention_win_claims (n : Fin 8) (b : Option Nat) (s : State) :
    (setAttention n b s).win.claims = s.win.claims := rfl
@[simp] theorem setAttention_win_notice (n : Fin 8) (b : Option Nat) (s : State) :
    (setAttention n b s).win.notice = s.win.notice := rfl
@[simp] theorem setAttention_win_enable (n : Fin 8) (b : Option Nat) (s : State) :
    (setAttention n b s).win.enable = s.win.enable := rfl
@[simp] theorem setAttention_win_capture (n : Fin 8) (b : Option Nat) (s : State) :
    (setAttention n b s).win.capture = s.win.capture := rfl
@[simp] theorem setAttention_win_faultCount (n : Fin 8) (b : Option Nat) (s : State) :
    (setAttention n b s).win.faultCount = s.win.faultCount := rfl
@[simp] theorem setAttention_win_softCause (n : Fin 8) (b : Option Nat) (s : State) :
    (setAttention n b s).win.softCause = s.win.softCause := rfl
@[simp] theorem setAttention_win_source (n : Fin 8) (b : Option Nat) (s : State) :
    (setAttention n b s).win.source = s.win.source := rfl
@[simp] theorem setAttention_win_ops (n : Fin 8) (b : Option Nat) (s : State) :
    (setAttention n b s).win.ops = s.win.ops := rfl
@[simp] theorem setAttention_win_adoption (n : Fin 8) (b : Option Nat) (s : State) :
    (setAttention n b s).win.adoption = s.win.adoption := rfl
@[simp] theorem setAttention_win_lastTake (n : Fin 8) (b : Option Nat) (s : State) :
    (setAttention n b s).win.lastTake = s.win.lastTake := rfl
@[simp] theorem setAttention_win_sdo (n : Fin 8) (b : Option Nat) (s : State) :
    (setAttention n b s).win.sdo = s.win.sdo := rfl
@[simp] theorem setAttention_image (n : Fin 8) (b : Option Nat) (s : State) :
    (setAttention n b s).image = s.image := rfl
@[simp] theorem setAttention_pending (n : Fin 8) (b : Option Nat) (s : State) :
    (setAttention n b s).pending = s.pending := rfl

@[simp] theorem setAttentions_attention (f : Fin 8 → Option Nat) (s : State) : (setAttentions f s).win.attention = Vector.ofFn f := rfl
@[simp] theorem setAttentions_time (f : Fin 8 → Option Nat) (s : State) :
    (setAttentions f s).time = s.time := rfl
@[simp] theorem setAttentions_sense (f : Fin 8 → Option Nat) (s : State) :
    (setAttentions f s).sense = s.sense := rfl
@[simp] theorem setAttentions_pulse (f : Fin 8 → Option Nat) (s : State) :
    (setAttentions f s).pulse = s.pulse := rfl
@[simp] theorem setAttentions_dist (f : Fin 8 → Option Nat) (s : State) :
    (setAttentions f s).dist = s.dist := rfl
@[simp] theorem setAttentions_analog (f : Fin 8 → Option Nat) (s : State) :
    (setAttentions f s).analog = s.analog := rfl
@[simp] theorem setAttentions_door (f : Fin 8 → Option Nat) (s : State) :
    (setAttentions f s).door = s.door := rfl
@[simp] theorem setAttentions_warn (f : Fin 8 → Option Nat) (s : State) :
    (setAttentions f s).warn = s.warn := rfl
@[simp] theorem setAttentions_out (f : Fin 8 → Option Nat) (s : State) :
    (setAttentions f s).out = s.out := rfl
@[simp] theorem setAttentions_faults (f : Fin 8 → Option Nat) (s : State) :
    (setAttentions f s).faults = s.faults := rfl
@[simp] theorem setAttentions_store (f : Fin 8 → Option Nat) (s : State) :
    (setAttentions f s).store = s.store := rfl
@[simp] theorem setAttentions_link (f : Fin 8 → Option Nat) (s : State) :
    (setAttentions f s).link = s.link := rfl
@[simp] theorem setAttentions_win_ram (f : Fin 8 → Option Nat) (s : State) :
    (setAttentions f s).win.ram = s.win.ram := rfl
@[simp] theorem setAttentions_win_slots (f : Fin 8 → Option Nat) (s : State) :
    (setAttentions f s).win.slots = s.win.slots := rfl
@[simp] theorem setAttentions_win_claims (f : Fin 8 → Option Nat) (s : State) :
    (setAttentions f s).win.claims = s.win.claims := rfl
@[simp] theorem setAttentions_win_notice (f : Fin 8 → Option Nat) (s : State) :
    (setAttentions f s).win.notice = s.win.notice := rfl
@[simp] theorem setAttentions_win_enable (f : Fin 8 → Option Nat) (s : State) :
    (setAttentions f s).win.enable = s.win.enable := rfl
@[simp] theorem setAttentions_win_capture (f : Fin 8 → Option Nat) (s : State) :
    (setAttentions f s).win.capture = s.win.capture := rfl
@[simp] theorem setAttentions_win_faultCount (f : Fin 8 → Option Nat) (s : State) :
    (setAttentions f s).win.faultCount = s.win.faultCount := rfl
@[simp] theorem setAttentions_win_softCause (f : Fin 8 → Option Nat) (s : State) :
    (setAttentions f s).win.softCause = s.win.softCause := rfl
@[simp] theorem setAttentions_win_source (f : Fin 8 → Option Nat) (s : State) :
    (setAttentions f s).win.source = s.win.source := rfl
@[simp] theorem setAttentions_win_ops (f : Fin 8 → Option Nat) (s : State) :
    (setAttentions f s).win.ops = s.win.ops := rfl
@[simp] theorem setAttentions_win_adoption (f : Fin 8 → Option Nat) (s : State) :
    (setAttentions f s).win.adoption = s.win.adoption := rfl
@[simp] theorem setAttentions_win_lastTake (f : Fin 8 → Option Nat) (s : State) :
    (setAttentions f s).win.lastTake = s.win.lastTake := rfl
@[simp] theorem setAttentions_win_sdo (f : Fin 8 → Option Nat) (s : State) :
    (setAttentions f s).win.sdo = s.win.sdo := rfl
@[simp] theorem setAttentions_image (f : Fin 8 → Option Nat) (s : State) :
    (setAttentions f s).image = s.image := rfl
@[simp] theorem setAttentions_pending (f : Fin 8 → Option Nat) (s : State) :
    (setAttentions f s).pending = s.pending := rfl

@[simp] theorem setWindowOp_ops (k : Operation) (w : WindowOp) (s : State) : (setWindowOp k w s).win.ops = s.win.ops.put k w := rfl
@[simp] theorem setWindowOp_time (k : Operation) (w : WindowOp) (s : State) :
    (setWindowOp k w s).time = s.time := rfl
@[simp] theorem setWindowOp_sense (k : Operation) (w : WindowOp) (s : State) :
    (setWindowOp k w s).sense = s.sense := rfl
@[simp] theorem setWindowOp_pulse (k : Operation) (w : WindowOp) (s : State) :
    (setWindowOp k w s).pulse = s.pulse := rfl
@[simp] theorem setWindowOp_dist (k : Operation) (w : WindowOp) (s : State) :
    (setWindowOp k w s).dist = s.dist := rfl
@[simp] theorem setWindowOp_analog (k : Operation) (w : WindowOp) (s : State) :
    (setWindowOp k w s).analog = s.analog := rfl
@[simp] theorem setWindowOp_door (k : Operation) (w : WindowOp) (s : State) :
    (setWindowOp k w s).door = s.door := rfl
@[simp] theorem setWindowOp_warn (k : Operation) (w : WindowOp) (s : State) :
    (setWindowOp k w s).warn = s.warn := rfl
@[simp] theorem setWindowOp_out (k : Operation) (w : WindowOp) (s : State) :
    (setWindowOp k w s).out = s.out := rfl
@[simp] theorem setWindowOp_faults (k : Operation) (w : WindowOp) (s : State) :
    (setWindowOp k w s).faults = s.faults := rfl
@[simp] theorem setWindowOp_store (k : Operation) (w : WindowOp) (s : State) :
    (setWindowOp k w s).store = s.store := rfl
@[simp] theorem setWindowOp_link (k : Operation) (w : WindowOp) (s : State) :
    (setWindowOp k w s).link = s.link := rfl
@[simp] theorem setWindowOp_win_ram (k : Operation) (w : WindowOp) (s : State) :
    (setWindowOp k w s).win.ram = s.win.ram := rfl
@[simp] theorem setWindowOp_win_slots (k : Operation) (w : WindowOp) (s : State) :
    (setWindowOp k w s).win.slots = s.win.slots := rfl
@[simp] theorem setWindowOp_win_attention (k : Operation) (w : WindowOp) (s : State) :
    (setWindowOp k w s).win.attention = s.win.attention := rfl
@[simp] theorem setWindowOp_win_claims (k : Operation) (w : WindowOp) (s : State) :
    (setWindowOp k w s).win.claims = s.win.claims := rfl
@[simp] theorem setWindowOp_win_notice (k : Operation) (w : WindowOp) (s : State) :
    (setWindowOp k w s).win.notice = s.win.notice := rfl
@[simp] theorem setWindowOp_win_enable (k : Operation) (w : WindowOp) (s : State) :
    (setWindowOp k w s).win.enable = s.win.enable := rfl
@[simp] theorem setWindowOp_win_capture (k : Operation) (w : WindowOp) (s : State) :
    (setWindowOp k w s).win.capture = s.win.capture := rfl
@[simp] theorem setWindowOp_win_faultCount (k : Operation) (w : WindowOp) (s : State) :
    (setWindowOp k w s).win.faultCount = s.win.faultCount := rfl
@[simp] theorem setWindowOp_win_softCause (k : Operation) (w : WindowOp) (s : State) :
    (setWindowOp k w s).win.softCause = s.win.softCause := rfl
@[simp] theorem setWindowOp_win_source (k : Operation) (w : WindowOp) (s : State) :
    (setWindowOp k w s).win.source = s.win.source := rfl
@[simp] theorem setWindowOp_win_adoption (k : Operation) (w : WindowOp) (s : State) :
    (setWindowOp k w s).win.adoption = s.win.adoption := rfl
@[simp] theorem setWindowOp_win_lastTake (k : Operation) (w : WindowOp) (s : State) :
    (setWindowOp k w s).win.lastTake = s.win.lastTake := rfl
@[simp] theorem setWindowOp_win_sdo (k : Operation) (w : WindowOp) (s : State) :
    (setWindowOp k w s).win.sdo = s.win.sdo := rfl
@[simp] theorem setWindowOp_image (k : Operation) (w : WindowOp) (s : State) :
    (setWindowOp k w s).image = s.image := rfl
@[simp] theorem setWindowOp_pending (k : Operation) (w : WindowOp) (s : State) :
    (setWindowOp k w s).pending = s.pending := rfl

@[simp] theorem shiftOut_sdo (b : Byte) (s : State) : (shiftOut b s).win.sdo = b := rfl
@[simp] theorem shiftOut_time (b : Byte) (s : State) :
    (shiftOut b s).time = s.time := rfl
@[simp] theorem shiftOut_sense (b : Byte) (s : State) :
    (shiftOut b s).sense = s.sense := rfl
@[simp] theorem shiftOut_pulse (b : Byte) (s : State) :
    (shiftOut b s).pulse = s.pulse := rfl
@[simp] theorem shiftOut_dist (b : Byte) (s : State) :
    (shiftOut b s).dist = s.dist := rfl
@[simp] theorem shiftOut_analog (b : Byte) (s : State) :
    (shiftOut b s).analog = s.analog := rfl
@[simp] theorem shiftOut_door (b : Byte) (s : State) :
    (shiftOut b s).door = s.door := rfl
@[simp] theorem shiftOut_warn (b : Byte) (s : State) :
    (shiftOut b s).warn = s.warn := rfl
@[simp] theorem shiftOut_out (b : Byte) (s : State) :
    (shiftOut b s).out = s.out := rfl
@[simp] theorem shiftOut_faults (b : Byte) (s : State) :
    (shiftOut b s).faults = s.faults := rfl
@[simp] theorem shiftOut_store (b : Byte) (s : State) :
    (shiftOut b s).store = s.store := rfl
@[simp] theorem shiftOut_link (b : Byte) (s : State) :
    (shiftOut b s).link = s.link := rfl
@[simp] theorem shiftOut_win_ram (b : Byte) (s : State) :
    (shiftOut b s).win.ram = s.win.ram := rfl
@[simp] theorem shiftOut_win_slots (b : Byte) (s : State) :
    (shiftOut b s).win.slots = s.win.slots := rfl
@[simp] theorem shiftOut_win_attention (b : Byte) (s : State) :
    (shiftOut b s).win.attention = s.win.attention := rfl
@[simp] theorem shiftOut_win_claims (b : Byte) (s : State) :
    (shiftOut b s).win.claims = s.win.claims := rfl
@[simp] theorem shiftOut_win_notice (b : Byte) (s : State) :
    (shiftOut b s).win.notice = s.win.notice := rfl
@[simp] theorem shiftOut_win_enable (b : Byte) (s : State) :
    (shiftOut b s).win.enable = s.win.enable := rfl
@[simp] theorem shiftOut_win_capture (b : Byte) (s : State) :
    (shiftOut b s).win.capture = s.win.capture := rfl
@[simp] theorem shiftOut_win_faultCount (b : Byte) (s : State) :
    (shiftOut b s).win.faultCount = s.win.faultCount := rfl
@[simp] theorem shiftOut_win_softCause (b : Byte) (s : State) :
    (shiftOut b s).win.softCause = s.win.softCause := rfl
@[simp] theorem shiftOut_win_source (b : Byte) (s : State) :
    (shiftOut b s).win.source = s.win.source := rfl
@[simp] theorem shiftOut_win_ops (b : Byte) (s : State) :
    (shiftOut b s).win.ops = s.win.ops := rfl
@[simp] theorem shiftOut_win_adoption (b : Byte) (s : State) :
    (shiftOut b s).win.adoption = s.win.adoption := rfl
@[simp] theorem shiftOut_win_lastTake (b : Byte) (s : State) :
    (shiftOut b s).win.lastTake = s.win.lastTake := rfl
@[simp] theorem shiftOut_image (b : Byte) (s : State) :
    (shiftOut b s).image = s.image := rfl
@[simp] theorem shiftOut_pending (b : Byte) (s : State) :
    (shiftOut b s).pending = s.pending := rfl

@[simp] theorem clearAdoption_adoption (s : State) : (clearAdoption s).win.adoption = none := rfl
@[simp] theorem clearAdoption_time (s : State) :
    (clearAdoption s).time = s.time := rfl
@[simp] theorem clearAdoption_sense (s : State) :
    (clearAdoption s).sense = s.sense := rfl
@[simp] theorem clearAdoption_pulse (s : State) :
    (clearAdoption s).pulse = s.pulse := rfl
@[simp] theorem clearAdoption_dist (s : State) :
    (clearAdoption s).dist = s.dist := rfl
@[simp] theorem clearAdoption_analog (s : State) :
    (clearAdoption s).analog = s.analog := rfl
@[simp] theorem clearAdoption_door (s : State) :
    (clearAdoption s).door = s.door := rfl
@[simp] theorem clearAdoption_warn (s : State) :
    (clearAdoption s).warn = s.warn := rfl
@[simp] theorem clearAdoption_out (s : State) :
    (clearAdoption s).out = s.out := rfl
@[simp] theorem clearAdoption_faults (s : State) :
    (clearAdoption s).faults = s.faults := rfl
@[simp] theorem clearAdoption_store (s : State) :
    (clearAdoption s).store = s.store := rfl
@[simp] theorem clearAdoption_link (s : State) :
    (clearAdoption s).link = s.link := rfl
@[simp] theorem clearAdoption_win_ram (s : State) :
    (clearAdoption s).win.ram = s.win.ram := rfl
@[simp] theorem clearAdoption_win_slots (s : State) :
    (clearAdoption s).win.slots = s.win.slots := rfl
@[simp] theorem clearAdoption_win_attention (s : State) :
    (clearAdoption s).win.attention = s.win.attention := rfl
@[simp] theorem clearAdoption_win_claims (s : State) :
    (clearAdoption s).win.claims = s.win.claims := rfl
@[simp] theorem clearAdoption_win_notice (s : State) :
    (clearAdoption s).win.notice = s.win.notice := rfl
@[simp] theorem clearAdoption_win_enable (s : State) :
    (clearAdoption s).win.enable = s.win.enable := rfl
@[simp] theorem clearAdoption_win_capture (s : State) :
    (clearAdoption s).win.capture = s.win.capture := rfl
@[simp] theorem clearAdoption_win_faultCount (s : State) :
    (clearAdoption s).win.faultCount = s.win.faultCount := rfl
@[simp] theorem clearAdoption_win_softCause (s : State) :
    (clearAdoption s).win.softCause = s.win.softCause := rfl
@[simp] theorem clearAdoption_win_source (s : State) :
    (clearAdoption s).win.source = s.win.source := rfl
@[simp] theorem clearAdoption_win_ops (s : State) :
    (clearAdoption s).win.ops = s.win.ops := rfl
@[simp] theorem clearAdoption_win_lastTake (s : State) :
    (clearAdoption s).win.lastTake = s.win.lastTake := rfl
@[simp] theorem clearAdoption_win_sdo (s : State) :
    (clearAdoption s).win.sdo = s.win.sdo := rfl
@[simp] theorem clearAdoption_image (s : State) :
    (clearAdoption s).image = s.image := rfl
@[simp] theorem clearAdoption_pending (s : State) :
    (clearAdoption s).pending = s.pending := rfl

@[simp] theorem putPlace_places (i : Fin 40) (p : Place) (s : State) : (putPlace i p s).faults.places = s.faults.places.set i.val p i.isLt := rfl
@[simp] theorem putPlace_time (i : Fin 40) (p : Place) (s : State) :
    (putPlace i p s).time = s.time := rfl
@[simp] theorem putPlace_sense (i : Fin 40) (p : Place) (s : State) :
    (putPlace i p s).sense = s.sense := rfl
@[simp] theorem putPlace_pulse (i : Fin 40) (p : Place) (s : State) :
    (putPlace i p s).pulse = s.pulse := rfl
@[simp] theorem putPlace_dist (i : Fin 40) (p : Place) (s : State) :
    (putPlace i p s).dist = s.dist := rfl
@[simp] theorem putPlace_analog (i : Fin 40) (p : Place) (s : State) :
    (putPlace i p s).analog = s.analog := rfl
@[simp] theorem putPlace_door (i : Fin 40) (p : Place) (s : State) :
    (putPlace i p s).door = s.door := rfl
@[simp] theorem putPlace_warn (i : Fin 40) (p : Place) (s : State) :
    (putPlace i p s).warn = s.warn := rfl
@[simp] theorem putPlace_out (i : Fin 40) (p : Place) (s : State) :
    (putPlace i p s).out = s.out := rfl
@[simp] theorem putPlace_faults_overflow (i : Fin 40) (p : Place) (s : State) :
    (putPlace i p s).faults.overflow = s.faults.overflow := rfl
@[simp] theorem putPlace_faults_clear (i : Fin 40) (p : Place) (s : State) :
    (putPlace i p s).faults.clear = s.faults.clear := rfl
@[simp] theorem putPlace_faults_viewEvents (i : Fin 40) (p : Place) (s : State) :
    (putPlace i p s).faults.viewEvents = s.faults.viewEvents := rfl
@[simp] theorem putPlace_store (i : Fin 40) (p : Place) (s : State) :
    (putPlace i p s).store = s.store := rfl
@[simp] theorem putPlace_link (i : Fin 40) (p : Place) (s : State) :
    (putPlace i p s).link = s.link := rfl
@[simp] theorem putPlace_win (i : Fin 40) (p : Place) (s : State) :
    (putPlace i p s).win = s.win := rfl
@[simp] theorem putPlace_image (i : Fin 40) (p : Place) (s : State) :
    (putPlace i p s).image = s.image := rfl
@[simp] theorem putPlace_pending (i : Fin 40) (p : Place) (s : State) :
    (putPlace i p s).pending = s.pending := rfl

@[simp] theorem noteView_viewEvents (s : State) : (noteView s).faults.viewEvents = s.faults.viewEvents + 1 := rfl
@[simp] theorem noteView_time (s : State) :
    (noteView s).time = s.time := rfl
@[simp] theorem noteView_sense (s : State) :
    (noteView s).sense = s.sense := rfl
@[simp] theorem noteView_pulse (s : State) :
    (noteView s).pulse = s.pulse := rfl
@[simp] theorem noteView_dist (s : State) :
    (noteView s).dist = s.dist := rfl
@[simp] theorem noteView_analog (s : State) :
    (noteView s).analog = s.analog := rfl
@[simp] theorem noteView_door (s : State) :
    (noteView s).door = s.door := rfl
@[simp] theorem noteView_warn (s : State) :
    (noteView s).warn = s.warn := rfl
@[simp] theorem noteView_out (s : State) :
    (noteView s).out = s.out := rfl
@[simp] theorem noteView_faults_places (s : State) :
    (noteView s).faults.places = s.faults.places := rfl
@[simp] theorem noteView_faults_overflow (s : State) :
    (noteView s).faults.overflow = s.faults.overflow := rfl
@[simp] theorem noteView_faults_clear (s : State) :
    (noteView s).faults.clear = s.faults.clear := rfl
@[simp] theorem noteView_store (s : State) :
    (noteView s).store = s.store := rfl
@[simp] theorem noteView_link (s : State) :
    (noteView s).link = s.link := rfl
@[simp] theorem noteView_win (s : State) :
    (noteView s).win = s.win := rfl
@[simp] theorem noteView_image (s : State) :
    (noteView s).image = s.image := rfl
@[simp] theorem noteView_pending (s : State) :
    (noteView s).pending = s.pending := rfl

@[simp] theorem setClear_clear (c : Option Clear) (s : State) : (setClear c s).faults.clear = c := rfl
@[simp] theorem setClear_time (c : Option Clear) (s : State) :
    (setClear c s).time = s.time := rfl
@[simp] theorem setClear_sense (c : Option Clear) (s : State) :
    (setClear c s).sense = s.sense := rfl
@[simp] theorem setClear_pulse (c : Option Clear) (s : State) :
    (setClear c s).pulse = s.pulse := rfl
@[simp] theorem setClear_dist (c : Option Clear) (s : State) :
    (setClear c s).dist = s.dist := rfl
@[simp] theorem setClear_analog (c : Option Clear) (s : State) :
    (setClear c s).analog = s.analog := rfl
@[simp] theorem setClear_door (c : Option Clear) (s : State) :
    (setClear c s).door = s.door := rfl
@[simp] theorem setClear_warn (c : Option Clear) (s : State) :
    (setClear c s).warn = s.warn := rfl
@[simp] theorem setClear_out (c : Option Clear) (s : State) :
    (setClear c s).out = s.out := rfl
@[simp] theorem setClear_faults_places (c : Option Clear) (s : State) :
    (setClear c s).faults.places = s.faults.places := rfl
@[simp] theorem setClear_faults_overflow (c : Option Clear) (s : State) :
    (setClear c s).faults.overflow = s.faults.overflow := rfl
@[simp] theorem setClear_faults_viewEvents (c : Option Clear) (s : State) :
    (setClear c s).faults.viewEvents = s.faults.viewEvents := rfl
@[simp] theorem setClear_store (c : Option Clear) (s : State) :
    (setClear c s).store = s.store := rfl
@[simp] theorem setClear_link (c : Option Clear) (s : State) :
    (setClear c s).link = s.link := rfl
@[simp] theorem setClear_win (c : Option Clear) (s : State) :
    (setClear c s).win = s.win := rfl
@[simp] theorem setClear_image (c : Option Clear) (s : State) :
    (setClear c s).image = s.image := rfl
@[simp] theorem setClear_pending (c : Option Clear) (s : State) :
    (setClear c s).pending = s.pending := rfl

@[simp] theorem setArbiter_arbiter (a : Arbiter) (s : State) : (setArbiter a s).out.arbiter = a := rfl
@[simp] theorem setArbiter_time (a : Arbiter) (s : State) :
    (setArbiter a s).time = s.time := rfl
@[simp] theorem setArbiter_sense (a : Arbiter) (s : State) :
    (setArbiter a s).sense = s.sense := rfl
@[simp] theorem setArbiter_pulse (a : Arbiter) (s : State) :
    (setArbiter a s).pulse = s.pulse := rfl
@[simp] theorem setArbiter_dist (a : Arbiter) (s : State) :
    (setArbiter a s).dist = s.dist := rfl
@[simp] theorem setArbiter_analog (a : Arbiter) (s : State) :
    (setArbiter a s).analog = s.analog := rfl
@[simp] theorem setArbiter_door (a : Arbiter) (s : State) :
    (setArbiter a s).door = s.door := rfl
@[simp] theorem setArbiter_warn (a : Arbiter) (s : State) :
    (setArbiter a s).warn = s.warn := rfl
@[simp] theorem setArbiter_out_lamps (a : Arbiter) (s : State) :
    (setArbiter a s).out.lamps = s.out.lamps := rfl
@[simp] theorem setArbiter_out_test (a : Arbiter) (s : State) :
    (setArbiter a s).out.test = s.out.test := rfl
@[simp] theorem setArbiter_out_lastResult (a : Arbiter) (s : State) :
    (setArbiter a s).out.lastResult = s.out.lastResult := rfl
@[simp] theorem setArbiter_out_supervision (a : Arbiter) (s : State) :
    (setArbiter a s).out.supervision = s.out.supervision := rfl
@[simp] theorem setArbiter_faults (a : Arbiter) (s : State) :
    (setArbiter a s).faults = s.faults := rfl
@[simp] theorem setArbiter_store (a : Arbiter) (s : State) :
    (setArbiter a s).store = s.store := rfl
@[simp] theorem setArbiter_link (a : Arbiter) (s : State) :
    (setArbiter a s).link = s.link := rfl
@[simp] theorem setArbiter_win (a : Arbiter) (s : State) :
    (setArbiter a s).win = s.win := rfl
@[simp] theorem setArbiter_image (a : Arbiter) (s : State) :
    (setArbiter a s).image = s.image := rfl
@[simp] theorem setArbiter_pending (a : Arbiter) (s : State) :
    (setArbiter a s).pending = s.pending := rfl

@[simp] theorem setTest_test (t : Option OutputTest) (s : State) : (setTest t s).out.test = t := rfl
@[simp] theorem setTest_time (t : Option OutputTest) (s : State) :
    (setTest t s).time = s.time := rfl
@[simp] theorem setTest_sense (t : Option OutputTest) (s : State) :
    (setTest t s).sense = s.sense := rfl
@[simp] theorem setTest_pulse (t : Option OutputTest) (s : State) :
    (setTest t s).pulse = s.pulse := rfl
@[simp] theorem setTest_dist (t : Option OutputTest) (s : State) :
    (setTest t s).dist = s.dist := rfl
@[simp] theorem setTest_analog (t : Option OutputTest) (s : State) :
    (setTest t s).analog = s.analog := rfl
@[simp] theorem setTest_door (t : Option OutputTest) (s : State) :
    (setTest t s).door = s.door := rfl
@[simp] theorem setTest_warn (t : Option OutputTest) (s : State) :
    (setTest t s).warn = s.warn := rfl
@[simp] theorem setTest_out_lamps (t : Option OutputTest) (s : State) :
    (setTest t s).out.lamps = s.out.lamps := rfl
@[simp] theorem setTest_out_arbiter (t : Option OutputTest) (s : State) :
    (setTest t s).out.arbiter = s.out.arbiter := rfl
@[simp] theorem setTest_out_lastResult (t : Option OutputTest) (s : State) :
    (setTest t s).out.lastResult = s.out.lastResult := rfl
@[simp] theorem setTest_out_supervision (t : Option OutputTest) (s : State) :
    (setTest t s).out.supervision = s.out.supervision := rfl
@[simp] theorem setTest_faults (t : Option OutputTest) (s : State) :
    (setTest t s).faults = s.faults := rfl
@[simp] theorem setTest_store (t : Option OutputTest) (s : State) :
    (setTest t s).store = s.store := rfl
@[simp] theorem setTest_link (t : Option OutputTest) (s : State) :
    (setTest t s).link = s.link := rfl
@[simp] theorem setTest_win (t : Option OutputTest) (s : State) :
    (setTest t s).win = s.win := rfl
@[simp] theorem setTest_image (t : Option OutputTest) (s : State) :
    (setTest t s).image = s.image := rfl
@[simp] theorem setTest_pending (t : Option OutputTest) (s : State) :
    (setTest t s).pending = s.pending := rfl

@[simp] theorem setSupervision_supervision (v : Supervision) (s : State) : (setSupervision v s).out.supervision = v := rfl
@[simp] theorem setSupervision_time (v : Supervision) (s : State) :
    (setSupervision v s).time = s.time := rfl
@[simp] theorem setSupervision_sense (v : Supervision) (s : State) :
    (setSupervision v s).sense = s.sense := rfl
@[simp] theorem setSupervision_pulse (v : Supervision) (s : State) :
    (setSupervision v s).pulse = s.pulse := rfl
@[simp] theorem setSupervision_dist (v : Supervision) (s : State) :
    (setSupervision v s).dist = s.dist := rfl
@[simp] theorem setSupervision_analog (v : Supervision) (s : State) :
    (setSupervision v s).analog = s.analog := rfl
@[simp] theorem setSupervision_door (v : Supervision) (s : State) :
    (setSupervision v s).door = s.door := rfl
@[simp] theorem setSupervision_warn (v : Supervision) (s : State) :
    (setSupervision v s).warn = s.warn := rfl
@[simp] theorem setSupervision_out_lamps (v : Supervision) (s : State) :
    (setSupervision v s).out.lamps = s.out.lamps := rfl
@[simp] theorem setSupervision_out_arbiter (v : Supervision) (s : State) :
    (setSupervision v s).out.arbiter = s.out.arbiter := rfl
@[simp] theorem setSupervision_out_test (v : Supervision) (s : State) :
    (setSupervision v s).out.test = s.out.test := rfl
@[simp] theorem setSupervision_out_lastResult (v : Supervision) (s : State) :
    (setSupervision v s).out.lastResult = s.out.lastResult := rfl
@[simp] theorem setSupervision_faults (v : Supervision) (s : State) :
    (setSupervision v s).faults = s.faults := rfl
@[simp] theorem setSupervision_store (v : Supervision) (s : State) :
    (setSupervision v s).store = s.store := rfl
@[simp] theorem setSupervision_link (v : Supervision) (s : State) :
    (setSupervision v s).link = s.link := rfl
@[simp] theorem setSupervision_win (v : Supervision) (s : State) :
    (setSupervision v s).win = s.win := rfl
@[simp] theorem setSupervision_image (v : Supervision) (s : State) :
    (setSupervision v s).image = s.image := rfl
@[simp] theorem setSupervision_pending (v : Supervision) (s : State) :
    (setSupervision v s).pending = s.pending := rfl

@[simp] theorem setWarning_warnings (w : Fin 48) (x : Warning) (s : State) : (setWarning w x s).warn.warnings = s.warn.warnings.set w.val x w.isLt := rfl
@[simp] theorem setWarning_time (w : Fin 48) (x : Warning) (s : State) :
    (setWarning w x s).time = s.time := rfl
@[simp] theorem setWarning_sense (w : Fin 48) (x : Warning) (s : State) :
    (setWarning w x s).sense = s.sense := rfl
@[simp] theorem setWarning_pulse (w : Fin 48) (x : Warning) (s : State) :
    (setWarning w x s).pulse = s.pulse := rfl
@[simp] theorem setWarning_dist (w : Fin 48) (x : Warning) (s : State) :
    (setWarning w x s).dist = s.dist := rfl
@[simp] theorem setWarning_analog (w : Fin 48) (x : Warning) (s : State) :
    (setWarning w x s).analog = s.analog := rfl
@[simp] theorem setWarning_door (w : Fin 48) (x : Warning) (s : State) :
    (setWarning w x s).door = s.door := rfl
@[simp] theorem setWarning_warn_nextNumber (w : Fin 48) (x : Warning) (s : State) :
    (setWarning w x s).warn.nextNumber = s.warn.nextNumber := rfl
@[simp] theorem setWarning_warn_list (w : Fin 48) (x : Warning) (s : State) :
    (setWarning w x s).warn.list = s.warn.list := rfl
@[simp] theorem setWarning_warn_handed (w : Fin 48) (x : Warning) (s : State) :
    (setWarning w x s).warn.handed = s.warn.handed := rfl
@[simp] theorem setWarning_out (w : Fin 48) (x : Warning) (s : State) :
    (setWarning w x s).out = s.out := rfl
@[simp] theorem setWarning_faults (w : Fin 48) (x : Warning) (s : State) :
    (setWarning w x s).faults = s.faults := rfl
@[simp] theorem setWarning_store (w : Fin 48) (x : Warning) (s : State) :
    (setWarning w x s).store = s.store := rfl
@[simp] theorem setWarning_link (w : Fin 48) (x : Warning) (s : State) :
    (setWarning w x s).link = s.link := rfl
@[simp] theorem setWarning_win (w : Fin 48) (x : Warning) (s : State) :
    (setWarning w x s).win = s.win := rfl
@[simp] theorem setWarning_image (w : Fin 48) (x : Warning) (s : State) :
    (setWarning w x s).image = s.image := rfl
@[simp] theorem setWarning_pending (w : Fin 48) (x : Warning) (s : State) :
    (setWarning w x s).pending = s.pending := rfl

@[simp] theorem setList_list (l : List (Fin 48)) (s : State) : (setList l s).warn.list = l := rfl
@[simp] theorem setList_time (l : List (Fin 48)) (s : State) :
    (setList l s).time = s.time := rfl
@[simp] theorem setList_sense (l : List (Fin 48)) (s : State) :
    (setList l s).sense = s.sense := rfl
@[simp] theorem setList_pulse (l : List (Fin 48)) (s : State) :
    (setList l s).pulse = s.pulse := rfl
@[simp] theorem setList_dist (l : List (Fin 48)) (s : State) :
    (setList l s).dist = s.dist := rfl
@[simp] theorem setList_analog (l : List (Fin 48)) (s : State) :
    (setList l s).analog = s.analog := rfl
@[simp] theorem setList_door (l : List (Fin 48)) (s : State) :
    (setList l s).door = s.door := rfl
@[simp] theorem setList_warn_warnings (l : List (Fin 48)) (s : State) :
    (setList l s).warn.warnings = s.warn.warnings := rfl
@[simp] theorem setList_warn_nextNumber (l : List (Fin 48)) (s : State) :
    (setList l s).warn.nextNumber = s.warn.nextNumber := rfl
@[simp] theorem setList_warn_handed (l : List (Fin 48)) (s : State) :
    (setList l s).warn.handed = s.warn.handed := rfl
@[simp] theorem setList_out (l : List (Fin 48)) (s : State) :
    (setList l s).out = s.out := rfl
@[simp] theorem setList_faults (l : List (Fin 48)) (s : State) :
    (setList l s).faults = s.faults := rfl
@[simp] theorem setList_store (l : List (Fin 48)) (s : State) :
    (setList l s).store = s.store := rfl
@[simp] theorem setList_link (l : List (Fin 48)) (s : State) :
    (setList l s).link = s.link := rfl
@[simp] theorem setList_win (l : List (Fin 48)) (s : State) :
    (setList l s).win = s.win := rfl
@[simp] theorem setList_image (l : List (Fin 48)) (s : State) :
    (setList l s).image = s.image := rfl
@[simp] theorem setList_pending (l : List (Fin 48)) (s : State) :
    (setList l s).pending = s.pending := rfl

@[simp] theorem setDoor_door (d : DoorMonitor) (s : State) : (setDoor d s).door = d := rfl
@[simp] theorem setDoor_time (d : DoorMonitor) (s : State) :
    (setDoor d s).time = s.time := rfl
@[simp] theorem setDoor_sense (d : DoorMonitor) (s : State) :
    (setDoor d s).sense = s.sense := rfl
@[simp] theorem setDoor_pulse (d : DoorMonitor) (s : State) :
    (setDoor d s).pulse = s.pulse := rfl
@[simp] theorem setDoor_dist (d : DoorMonitor) (s : State) :
    (setDoor d s).dist = s.dist := rfl
@[simp] theorem setDoor_analog (d : DoorMonitor) (s : State) :
    (setDoor d s).analog = s.analog := rfl
@[simp] theorem setDoor_warn (d : DoorMonitor) (s : State) :
    (setDoor d s).warn = s.warn := rfl
@[simp] theorem setDoor_out (d : DoorMonitor) (s : State) :
    (setDoor d s).out = s.out := rfl
@[simp] theorem setDoor_faults (d : DoorMonitor) (s : State) :
    (setDoor d s).faults = s.faults := rfl
@[simp] theorem setDoor_store (d : DoorMonitor) (s : State) :
    (setDoor d s).store = s.store := rfl
@[simp] theorem setDoor_link (d : DoorMonitor) (s : State) :
    (setDoor d s).link = s.link := rfl
@[simp] theorem setDoor_win (d : DoorMonitor) (s : State) :
    (setDoor d s).win = s.win := rfl
@[simp] theorem setDoor_image (d : DoorMonitor) (s : State) :
    (setDoor d s).image = s.image := rfl
@[simp] theorem setDoor_pending (d : DoorMonitor) (s : State) :
    (setDoor d s).pending = s.pending := rfl

@[simp] theorem setDoorway_doorways (n : Fin 4) (d : Doorway) (s : State) : (setDoorway n d s).door.doorways = s.door.doorways.set n.val d n.isLt := rfl
@[simp] theorem setDoorway_time (n : Fin 4) (d : Doorway) (s : State) :
    (setDoorway n d s).time = s.time := rfl
@[simp] theorem setDoorway_sense (n : Fin 4) (d : Doorway) (s : State) :
    (setDoorway n d s).sense = s.sense := rfl
@[simp] theorem setDoorway_pulse (n : Fin 4) (d : Doorway) (s : State) :
    (setDoorway n d s).pulse = s.pulse := rfl
@[simp] theorem setDoorway_dist (n : Fin 4) (d : Doorway) (s : State) :
    (setDoorway n d s).dist = s.dist := rfl
@[simp] theorem setDoorway_analog (n : Fin 4) (d : Doorway) (s : State) :
    (setDoorway n d s).analog = s.analog := rfl
@[simp] theorem setDoorway_door_kneel (n : Fin 4) (d : Doorway) (s : State) :
    (setDoorway n d s).door.kneel = s.door.kneel := rfl
@[simp] theorem setDoorway_door_ramp (n : Fin 4) (d : Doorway) (s : State) :
    (setDoorway n d s).door.ramp = s.door.ramp := rfl
@[simp] theorem setDoorway_door_cycle (n : Fin 4) (d : Doorway) (s : State) :
    (setDoorway n d s).door.cycle = s.door.cycle := rfl
@[simp] theorem setDoorway_door_stop (n : Fin 4) (d : Doorway) (s : State) :
    (setDoorway n d s).door.stop = s.door.stop := rfl
@[simp] theorem setDoorway_door_latch (n : Fin 4) (d : Doorway) (s : State) :
    (setDoorway n d s).door.latch = s.door.latch := rfl
@[simp] theorem setDoorway_door_journal (n : Fin 4) (d : Doorway) (s : State) :
    (setDoorway n d s).door.journal = s.door.journal := rfl
@[simp] theorem setDoorway_door_nextSequence (n : Fin 4) (d : Doorway) (s : State) :
    (setDoorway n d s).door.nextSequence = s.door.nextSequence := rfl
@[simp] theorem setDoorway_door_age (n : Fin 4) (d : Doorway) (s : State) :
    (setDoorway n d s).door.age = s.door.age := rfl
@[simp] theorem setDoorway_door_matureDue (n : Fin 4) (d : Doorway) (s : State) :
    (setDoorway n d s).door.matureDue = s.door.matureDue := rfl
@[simp] theorem setDoorway_door_dpermit (n : Fin 4) (d : Doorway) (s : State) :
    (setDoorway n d s).door.dpermit = s.door.dpermit := rfl
@[simp] theorem setDoorway_warn (n : Fin 4) (d : Doorway) (s : State) :
    (setDoorway n d s).warn = s.warn := rfl
@[simp] theorem setDoorway_out (n : Fin 4) (d : Doorway) (s : State) :
    (setDoorway n d s).out = s.out := rfl
@[simp] theorem setDoorway_faults (n : Fin 4) (d : Doorway) (s : State) :
    (setDoorway n d s).faults = s.faults := rfl
@[simp] theorem setDoorway_store (n : Fin 4) (d : Doorway) (s : State) :
    (setDoorway n d s).store = s.store := rfl
@[simp] theorem setDoorway_link (n : Fin 4) (d : Doorway) (s : State) :
    (setDoorway n d s).link = s.link := rfl
@[simp] theorem setDoorway_win (n : Fin 4) (d : Doorway) (s : State) :
    (setDoorway n d s).win = s.win := rfl
@[simp] theorem setDoorway_image (n : Fin 4) (d : Doorway) (s : State) :
    (setDoorway n d s).image = s.image := rfl
@[simp] theorem setDoorway_pending (n : Fin 4) (d : Doorway) (s : State) :
    (setDoorway n d s).pending = s.pending := rfl

@[simp] theorem setPulse_pulse (p : PulseUnit) (s : State) : (setPulse p s).pulse = p := rfl
@[simp] theorem setPulse_time (p : PulseUnit) (s : State) :
    (setPulse p s).time = s.time := rfl
@[simp] theorem setPulse_sense (p : PulseUnit) (s : State) :
    (setPulse p s).sense = s.sense := rfl
@[simp] theorem setPulse_dist (p : PulseUnit) (s : State) :
    (setPulse p s).dist = s.dist := rfl
@[simp] theorem setPulse_analog (p : PulseUnit) (s : State) :
    (setPulse p s).analog = s.analog := rfl
@[simp] theorem setPulse_door (p : PulseUnit) (s : State) :
    (setPulse p s).door = s.door := rfl
@[simp] theorem setPulse_warn (p : PulseUnit) (s : State) :
    (setPulse p s).warn = s.warn := rfl
@[simp] theorem setPulse_out (p : PulseUnit) (s : State) :
    (setPulse p s).out = s.out := rfl
@[simp] theorem setPulse_faults (p : PulseUnit) (s : State) :
    (setPulse p s).faults = s.faults := rfl
@[simp] theorem setPulse_store (p : PulseUnit) (s : State) :
    (setPulse p s).store = s.store := rfl
@[simp] theorem setPulse_link (p : PulseUnit) (s : State) :
    (setPulse p s).link = s.link := rfl
@[simp] theorem setPulse_win (p : PulseUnit) (s : State) :
    (setPulse p s).win = s.win := rfl
@[simp] theorem setPulse_image (p : PulseUnit) (s : State) :
    (setPulse p s).image = s.image := rfl
@[simp] theorem setPulse_pending (p : PulseUnit) (s : State) :
    (setPulse p s).pending = s.pending := rfl

@[simp] theorem setDist_dist (d : Distance) (s : State) : (setDist d s).dist = d := rfl
@[simp] theorem setDist_time (d : Distance) (s : State) :
    (setDist d s).time = s.time := rfl
@[simp] theorem setDist_sense (d : Distance) (s : State) :
    (setDist d s).sense = s.sense := rfl
@[simp] theorem setDist_pulse (d : Distance) (s : State) :
    (setDist d s).pulse = s.pulse := rfl
@[simp] theorem setDist_analog (d : Distance) (s : State) :
    (setDist d s).analog = s.analog := rfl
@[simp] theorem setDist_door (d : Distance) (s : State) :
    (setDist d s).door = s.door := rfl
@[simp] theorem setDist_warn (d : Distance) (s : State) :
    (setDist d s).warn = s.warn := rfl
@[simp] theorem setDist_out (d : Distance) (s : State) :
    (setDist d s).out = s.out := rfl
@[simp] theorem setDist_faults (d : Distance) (s : State) :
    (setDist d s).faults = s.faults := rfl
@[simp] theorem setDist_store (d : Distance) (s : State) :
    (setDist d s).store = s.store := rfl
@[simp] theorem setDist_link (d : Distance) (s : State) :
    (setDist d s).link = s.link := rfl
@[simp] theorem setDist_win (d : Distance) (s : State) :
    (setDist d s).win = s.win := rfl
@[simp] theorem setDist_image (d : Distance) (s : State) :
    (setDist d s).image = s.image := rfl
@[simp] theorem setDist_pending (d : Distance) (s : State) :
    (setDist d s).pending = s.pending := rfl

@[simp] theorem clearPreset_preset (s : State) : (clearPreset s).dist.preset = none := rfl
@[simp] theorem clearPreset_time (s : State) :
    (clearPreset s).time = s.time := rfl
@[simp] theorem clearPreset_sense (s : State) :
    (clearPreset s).sense = s.sense := rfl
@[simp] theorem clearPreset_pulse (s : State) :
    (clearPreset s).pulse = s.pulse := rfl
@[simp] theorem clearPreset_dist_live (s : State) :
    (clearPreset s).dist.live = s.dist.live := rfl
@[simp] theorem clearPreset_dist_lost (s : State) :
    (clearPreset s).dist.lost = s.dist.lost := rfl
@[simp] theorem clearPreset_dist_retained (s : State) :
    (clearPreset s).dist.retained = s.dist.retained := rfl
@[simp] theorem clearPreset_dist_ticks (s : State) :
    (clearPreset s).dist.ticks = s.dist.ticks := rfl
@[simp] theorem clearPreset_dist_nextSlot (s : State) :
    (clearPreset s).dist.nextSlot = s.dist.nextSlot := rfl
@[simp] theorem clearPreset_dist_writeCounts (s : State) :
    (clearPreset s).dist.writeCounts = s.dist.writeCounts := rfl
@[simp] theorem clearPreset_dist_tripA (s : State) :
    (clearPreset s).dist.tripA = s.dist.tripA := rfl
@[simp] theorem clearPreset_dist_tripB (s : State) :
    (clearPreset s).dist.tripB = s.dist.tripB := rfl
@[simp] theorem clearPreset_dist_watch (s : State) :
    (clearPreset s).dist.watch = s.dist.watch := rfl
@[simp] theorem clearPreset_dist_kfactor (s : State) :
    (clearPreset s).dist.kfactor = s.dist.kfactor := rfl
@[simp] theorem clearPreset_analog (s : State) :
    (clearPreset s).analog = s.analog := rfl
@[simp] theorem clearPreset_door (s : State) :
    (clearPreset s).door = s.door := rfl
@[simp] theorem clearPreset_warn (s : State) :
    (clearPreset s).warn = s.warn := rfl
@[simp] theorem clearPreset_out (s : State) :
    (clearPreset s).out = s.out := rfl
@[simp] theorem clearPreset_faults (s : State) :
    (clearPreset s).faults = s.faults := rfl
@[simp] theorem clearPreset_store (s : State) :
    (clearPreset s).store = s.store := rfl
@[simp] theorem clearPreset_link (s : State) :
    (clearPreset s).link = s.link := rfl
@[simp] theorem clearPreset_win (s : State) :
    (clearPreset s).win = s.win := rfl
@[simp] theorem clearPreset_image (s : State) :
    (clearPreset s).image = s.image := rfl
@[simp] theorem clearPreset_pending (s : State) :
    (clearPreset s).pending = s.pending := rfl

@[simp] theorem clearKFactor_kfactor (s : State) : (clearKFactor s).dist.kfactor = none := rfl
@[simp] theorem clearKFactor_time (s : State) :
    (clearKFactor s).time = s.time := rfl
@[simp] theorem clearKFactor_sense (s : State) :
    (clearKFactor s).sense = s.sense := rfl
@[simp] theorem clearKFactor_pulse (s : State) :
    (clearKFactor s).pulse = s.pulse := rfl
@[simp] theorem clearKFactor_dist_live (s : State) :
    (clearKFactor s).dist.live = s.dist.live := rfl
@[simp] theorem clearKFactor_dist_lost (s : State) :
    (clearKFactor s).dist.lost = s.dist.lost := rfl
@[simp] theorem clearKFactor_dist_retained (s : State) :
    (clearKFactor s).dist.retained = s.dist.retained := rfl
@[simp] theorem clearKFactor_dist_ticks (s : State) :
    (clearKFactor s).dist.ticks = s.dist.ticks := rfl
@[simp] theorem clearKFactor_dist_nextSlot (s : State) :
    (clearKFactor s).dist.nextSlot = s.dist.nextSlot := rfl
@[simp] theorem clearKFactor_dist_writeCounts (s : State) :
    (clearKFactor s).dist.writeCounts = s.dist.writeCounts := rfl
@[simp] theorem clearKFactor_dist_tripA (s : State) :
    (clearKFactor s).dist.tripA = s.dist.tripA := rfl
@[simp] theorem clearKFactor_dist_tripB (s : State) :
    (clearKFactor s).dist.tripB = s.dist.tripB := rfl
@[simp] theorem clearKFactor_dist_watch (s : State) :
    (clearKFactor s).dist.watch = s.dist.watch := rfl
@[simp] theorem clearKFactor_dist_preset (s : State) :
    (clearKFactor s).dist.preset = s.dist.preset := rfl
@[simp] theorem clearKFactor_analog (s : State) :
    (clearKFactor s).analog = s.analog := rfl
@[simp] theorem clearKFactor_door (s : State) :
    (clearKFactor s).door = s.door := rfl
@[simp] theorem clearKFactor_warn (s : State) :
    (clearKFactor s).warn = s.warn := rfl
@[simp] theorem clearKFactor_out (s : State) :
    (clearKFactor s).out = s.out := rfl
@[simp] theorem clearKFactor_faults (s : State) :
    (clearKFactor s).faults = s.faults := rfl
@[simp] theorem clearKFactor_store (s : State) :
    (clearKFactor s).store = s.store := rfl
@[simp] theorem clearKFactor_link (s : State) :
    (clearKFactor s).link = s.link := rfl
@[simp] theorem clearKFactor_win (s : State) :
    (clearKFactor s).win = s.win := rfl
@[simp] theorem clearKFactor_image (s : State) :
    (clearKFactor s).image = s.image := rfl
@[simp] theorem clearKFactor_pending (s : State) :
    (clearKFactor s).pending = s.pending := rfl

@[simp] theorem setAnalog_analog (a : AnalogUnit) (s : State) : (setAnalog a s).analog = a := rfl
@[simp] theorem setAnalog_time (a : AnalogUnit) (s : State) :
    (setAnalog a s).time = s.time := rfl
@[simp] theorem setAnalog_sense (a : AnalogUnit) (s : State) :
    (setAnalog a s).sense = s.sense := rfl
@[simp] theorem setAnalog_pulse (a : AnalogUnit) (s : State) :
    (setAnalog a s).pulse = s.pulse := rfl
@[simp] theorem setAnalog_dist (a : AnalogUnit) (s : State) :
    (setAnalog a s).dist = s.dist := rfl
@[simp] theorem setAnalog_door (a : AnalogUnit) (s : State) :
    (setAnalog a s).door = s.door := rfl
@[simp] theorem setAnalog_warn (a : AnalogUnit) (s : State) :
    (setAnalog a s).warn = s.warn := rfl
@[simp] theorem setAnalog_out (a : AnalogUnit) (s : State) :
    (setAnalog a s).out = s.out := rfl
@[simp] theorem setAnalog_faults (a : AnalogUnit) (s : State) :
    (setAnalog a s).faults = s.faults := rfl
@[simp] theorem setAnalog_store (a : AnalogUnit) (s : State) :
    (setAnalog a s).store = s.store := rfl
@[simp] theorem setAnalog_link (a : AnalogUnit) (s : State) :
    (setAnalog a s).link = s.link := rfl
@[simp] theorem setAnalog_win (a : AnalogUnit) (s : State) :
    (setAnalog a s).win = s.win := rfl
@[simp] theorem setAnalog_image (a : AnalogUnit) (s : State) :
    (setAnalog a s).image = s.image := rfl
@[simp] theorem setAnalog_pending (a : AnalogUnit) (s : State) :
    (setAnalog a s).pending = s.pending := rfl

@[simp] theorem setStore_store (t : RetainedStore) (s : State) : (setStore t s).store = t := rfl
@[simp] theorem setStore_time (t : RetainedStore) (s : State) :
    (setStore t s).time = s.time := rfl
@[simp] theorem setStore_sense (t : RetainedStore) (s : State) :
    (setStore t s).sense = s.sense := rfl
@[simp] theorem setStore_pulse (t : RetainedStore) (s : State) :
    (setStore t s).pulse = s.pulse := rfl
@[simp] theorem setStore_dist (t : RetainedStore) (s : State) :
    (setStore t s).dist = s.dist := rfl
@[simp] theorem setStore_analog (t : RetainedStore) (s : State) :
    (setStore t s).analog = s.analog := rfl
@[simp] theorem setStore_door (t : RetainedStore) (s : State) :
    (setStore t s).door = s.door := rfl
@[simp] theorem setStore_warn (t : RetainedStore) (s : State) :
    (setStore t s).warn = s.warn := rfl
@[simp] theorem setStore_out (t : RetainedStore) (s : State) :
    (setStore t s).out = s.out := rfl
@[simp] theorem setStore_faults (t : RetainedStore) (s : State) :
    (setStore t s).faults = s.faults := rfl
@[simp] theorem setStore_link (t : RetainedStore) (s : State) :
    (setStore t s).link = s.link := rfl
@[simp] theorem setStore_win (t : RetainedStore) (s : State) :
    (setStore t s).win = s.win := rfl
@[simp] theorem setStore_image (t : RetainedStore) (s : State) :
    (setStore t s).image = s.image := rfl
@[simp] theorem setStore_pending (t : RetainedStore) (s : State) :
    (setStore t s).pending = s.pending := rfl

@[simp] theorem setLink_link (l : WorkshopLink) (s : State) : (setLink l s).link = l := rfl
@[simp] theorem setLink_time (l : WorkshopLink) (s : State) :
    (setLink l s).time = s.time := rfl
@[simp] theorem setLink_sense (l : WorkshopLink) (s : State) :
    (setLink l s).sense = s.sense := rfl
@[simp] theorem setLink_pulse (l : WorkshopLink) (s : State) :
    (setLink l s).pulse = s.pulse := rfl
@[simp] theorem setLink_dist (l : WorkshopLink) (s : State) :
    (setLink l s).dist = s.dist := rfl
@[simp] theorem setLink_analog (l : WorkshopLink) (s : State) :
    (setLink l s).analog = s.analog := rfl
@[simp] theorem setLink_door (l : WorkshopLink) (s : State) :
    (setLink l s).door = s.door := rfl
@[simp] theorem setLink_warn (l : WorkshopLink) (s : State) :
    (setLink l s).warn = s.warn := rfl
@[simp] theorem setLink_out (l : WorkshopLink) (s : State) :
    (setLink l s).out = s.out := rfl
@[simp] theorem setLink_faults (l : WorkshopLink) (s : State) :
    (setLink l s).faults = s.faults := rfl
@[simp] theorem setLink_store (l : WorkshopLink) (s : State) :
    (setLink l s).store = s.store := rfl
@[simp] theorem setLink_win (l : WorkshopLink) (s : State) :
    (setLink l s).win = s.win := rfl
@[simp] theorem setLink_image (l : WorkshopLink) (s : State) :
    (setLink l s).image = s.image := rfl
@[simp] theorem setLink_pending (l : WorkshopLink) (s : State) :
    (setLink l s).pending = s.pending := rfl

end Sys2Proof.Machine
end

