-- ==== Sys2Proof/Laws/Frames.lean ====
section
/-! SUPPORT. For each shared operation, once, all that it leaves as it was: the frames that a proof about a
command cites in place of unfolding the operations below it. -/

namespace Sys2Proof.Machine

/-- What each step of a fold keeps, the fold keeps. -/
theorem foldl_keeps {α β : Type} (p : State → α) (f : State → β → State)
    (h : ∀ s b, p (f s b) = p s) (l : List β) (s : State) : p (l.foldl f s) = p s := by
  induction l generalizing s with
  | nil => rfl
  | cons b l ih => rw [List.foldl_cons, ih, h]

/-! ## Shared operations -/

@[simp] theorem enqueue_frame (o : Object) (s : State) :
    (enqueue o s).time = s.time ∧ (enqueue o s).sense = s.sense ∧ (enqueue o s).pulse = s.pulse ∧
    (enqueue o s).dist = s.dist ∧ (enqueue o s).analog = s.analog ∧ (enqueue o s).door = s.door ∧
    (enqueue o s).warn = s.warn ∧ (enqueue o s).out = s.out ∧ (enqueue o s).faults = s.faults ∧
    (enqueue o s).store.array = s.store.array ∧ (enqueue o s).store.job = s.store.job ∧
    (enqueue o s).store.notRetained = s.store.notRetained ∧
    (enqueue o s).store.configCount = s.store.configCount ∧ (enqueue o s).link = s.link ∧
    (enqueue o s).win = s.win ∧ (enqueue o s).image = s.image ∧ (enqueue o s).pending = s.pending := by
  unfold enqueue
  (repeat' split) <;> simp

@[simp] theorem setSlotResult_frame (n : Fin 8) (r d : Byte) (s : State) :
    (setSlotResult n r d s).time = s.time ∧ (setSlotResult n r d s).sense = s.sense ∧
    (setSlotResult n r d s).pulse = s.pulse ∧ (setSlotResult n r d s).dist = s.dist ∧
    (setSlotResult n r d s).analog = s.analog ∧ (setSlotResult n r d s).door = s.door ∧
    (setSlotResult n r d s).warn = s.warn ∧ (setSlotResult n r d s).out = s.out ∧
    (setSlotResult n r d s).faults = s.faults ∧ (setSlotResult n r d s).store = s.store ∧
    (setSlotResult n r d s).link = s.link ∧ (setSlotResult n r d s).win.slots = s.win.slots ∧
    (setSlotResult n r d s).win.attention = s.win.attention ∧
    (setSlotResult n r d s).win.claims = s.win.claims ∧ (setSlotResult n r d s).win.notice = s.win.notice ∧
    (setSlotResult n r d s).win.enable = s.win.enable ∧
    (setSlotResult n r d s).win.capture = s.win.capture ∧
    (setSlotResult n r d s).win.faultCount = s.win.faultCount ∧
    (setSlotResult n r d s).win.softCause = s.win.softCause ∧
    (setSlotResult n r d s).win.source = s.win.source ∧ (setSlotResult n r d s).win.ops = s.win.ops ∧
    (setSlotResult n r d s).win.adoption = s.win.adoption ∧
    (setSlotResult n r d s).win.lastTake = s.win.lastTake ∧ (setSlotResult n r d s).win.sdo = s.win.sdo ∧
    (setSlotResult n r d s).image = s.image ∧ (setSlotResult n r d s).pending = s.pending := by
  simp [setSlotResult]

@[simp] theorem finishSlot_frame (n : Fin 8) (r : Result) (d : Byte) (s : State) :
    (finishSlot n r d s).time = s.time ∧ (finishSlot n r d s).sense = s.sense ∧
    (finishSlot n r d s).pulse = s.pulse ∧ (finishSlot n r d s).dist = s.dist ∧
    (finishSlot n r d s).analog = s.analog ∧ (finishSlot n r d s).door = s.door ∧
    (finishSlot n r d s).warn = s.warn ∧ (finishSlot n r d s).out = s.out ∧
    (finishSlot n r d s).faults = s.faults ∧ (finishSlot n r d s).store = s.store ∧
    (finishSlot n r d s).link = s.link ∧ (finishSlot n r d s).win.attention = s.win.attention ∧
    (finishSlot n r d s).win.claims = s.win.claims ∧ (finishSlot n r d s).win.enable = s.win.enable ∧
    (finishSlot n r d s).win.capture = s.win.capture ∧
    (finishSlot n r d s).win.faultCount = s.win.faultCount ∧
    (finishSlot n r d s).win.softCause = s.win.softCause ∧ (finishSlot n r d s).win.source = s.win.source ∧
    (finishSlot n r d s).win.ops = s.win.ops ∧ (finishSlot n r d s).win.adoption = s.win.adoption ∧
    (finishSlot n r d s).win.lastTake = s.win.lastTake ∧ (finishSlot n r d s).win.sdo = s.win.sdo ∧
    (finishSlot n r d s).image = s.image ∧ (finishSlot n r d s).pending = s.pending := by
  simp [finishSlot]

@[simp] theorem setReply_frame (r : Reply) (s : State) :
    (setReply r s).time = s.time ∧ (setReply r s).sense = s.sense ∧ (setReply r s).pulse = s.pulse ∧
    (setReply r s).dist = s.dist ∧ (setReply r s).analog = s.analog ∧ (setReply r s).door = s.door ∧
    (setReply r s).warn = s.warn ∧ (setReply r s).out = s.out ∧ (setReply r s).faults = s.faults ∧
    (setReply r s).store = s.store ∧ (setReply r s).link.inFrame = s.link.inFrame ∧
    (setReply r s).link.counter = s.link.counter ∧ (setReply r s).link.shift = s.link.shift ∧
    (setReply r s).link.kind = s.link.kind ∧ (setReply r s).link.progress = s.link.progress ∧
    (setReply r s).link.answer = s.link.answer ∧ (setReply r s).link.holdNext = s.link.holdNext ∧
    (setReply r s).link.request = s.link.request ∧ (setReply r s).link.session = s.link.session ∧
    (setReply r s).link.sessionTimer = s.link.sessionTimer ∧ (setReply r s).win = s.win ∧
    (setReply r s).image = s.image ∧ (setReply r s).pending = s.pending := by
  simp only [setReply, releaseHold]
  (repeat' split) <;> simp

@[simp] theorem deliverWindow_frame (k : Operation) (r : Result) (d : Byte) (s : State) :
    (deliverWindow k r d s).time = s.time ∧ (deliverWindow k r d s).sense = s.sense ∧
    (deliverWindow k r d s).pulse = s.pulse ∧ (deliverWindow k r d s).dist = s.dist ∧
    (deliverWindow k r d s).analog = s.analog ∧ (deliverWindow k r d s).door = s.door ∧
    (deliverWindow k r d s).warn = s.warn ∧ (deliverWindow k r d s).out = s.out ∧
    (deliverWindow k r d s).faults = s.faults ∧ (deliverWindow k r d s).store = s.store ∧
    (deliverWindow k r d s).link = s.link ∧ (deliverWindow k r d s).win.attention = s.win.attention ∧
    (deliverWindow k r d s).win.claims = s.win.claims ∧ (deliverWindow k r d s).win.enable = s.win.enable ∧
    (deliverWindow k r d s).win.capture = s.win.capture ∧
    (deliverWindow k r d s).win.faultCount = s.win.faultCount ∧
    (deliverWindow k r d s).win.softCause = s.win.softCause ∧
    (deliverWindow k r d s).win.source = s.win.source ∧
    (deliverWindow k r d s).win.adoption = s.win.adoption ∧
    (deliverWindow k r d s).win.lastTake = s.win.lastTake ∧ (deliverWindow k r d s).win.sdo = s.win.sdo ∧
    (deliverWindow k r d s).image = s.image ∧ (deliverWindow k r d s).pending = s.pending := by
  unfold deliverWindow
  (repeat' split) <;> simp

@[simp] theorem deliverLink_frame (k : Operation) (r : Result) (d : List Byte) (s : State) :
    (deliverLink k r d s).time = s.time ∧ (deliverLink k r d s).sense = s.sense ∧
    (deliverLink k r d s).pulse = s.pulse ∧ (deliverLink k r d s).dist = s.dist ∧
    (deliverLink k r d s).analog = s.analog ∧ (deliverLink k r d s).door = s.door ∧
    (deliverLink k r d s).warn = s.warn ∧ (deliverLink k r d s).out = s.out ∧
    (deliverLink k r d s).faults = s.faults ∧ (deliverLink k r d s).store = s.store ∧
    (deliverLink k r d s).link.inFrame = s.link.inFrame ∧
    (deliverLink k r d s).link.counter = s.link.counter ∧ (deliverLink k r d s).link.shift = s.link.shift ∧
    (deliverLink k r d s).link.kind = s.link.kind ∧ (deliverLink k r d s).link.progress = s.link.progress ∧
    (deliverLink k r d s).link.answer = s.link.answer ∧
    (deliverLink k r d s).link.holdNext = s.link.holdNext ∧
    (deliverLink k r d s).link.request = s.link.request ∧
    (deliverLink k r d s).link.session = s.link.session ∧
    (deliverLink k r d s).link.sessionTimer = s.link.sessionTimer ∧ (deliverLink k r d s).win = s.win ∧
    (deliverLink k r d s).image = s.image ∧ (deliverLink k r d s).pending = s.pending := by
  unfold deliverLink
  (repeat' split) <;> simp

@[simp] theorem deliver_frame (k : Operation) (x : Side) (r : Result) (d : Byte) (l : List Byte) (s : State) :
    (deliver k x r d l s).time = s.time ∧ (deliver k x r d l s).sense = s.sense ∧
    (deliver k x r d l s).pulse = s.pulse ∧ (deliver k x r d l s).dist = s.dist ∧
    (deliver k x r d l s).analog = s.analog ∧ (deliver k x r d l s).door = s.door ∧
    (deliver k x r d l s).warn = s.warn ∧ (deliver k x r d l s).out = s.out ∧
    (deliver k x r d l s).faults = s.faults ∧ (deliver k x r d l s).store = s.store ∧
    (deliver k x r d l s).link.inFrame = s.link.inFrame ∧
    (deliver k x r d l s).link.counter = s.link.counter ∧ (deliver k x r d l s).link.shift = s.link.shift ∧
    (deliver k x r d l s).link.kind = s.link.kind ∧ (deliver k x r d l s).link.progress = s.link.progress ∧
    (deliver k x r d l s).link.answer = s.link.answer ∧
    (deliver k x r d l s).link.holdNext = s.link.holdNext ∧
    (deliver k x r d l s).link.request = s.link.request ∧
    (deliver k x r d l s).link.session = s.link.session ∧
    (deliver k x r d l s).link.sessionTimer = s.link.sessionTimer ∧
    (deliver k x r d l s).win.attention = s.win.attention ∧
    (deliver k x r d l s).win.claims = s.win.claims ∧ (deliver k x r d l s).win.enable = s.win.enable ∧
    (deliver k x r d l s).win.capture = s.win.capture ∧
    (deliver k x r d l s).win.faultCount = s.win.faultCount ∧
    (deliver k x r d l s).win.softCause = s.win.softCause ∧
    (deliver k x r d l s).win.source = s.win.source ∧ (deliver k x r d l s).win.adoption = s.win.adoption ∧
    (deliver k x r d l s).win.lastTake = s.win.lastTake ∧ (deliver k x r d l s).win.sdo = s.win.sdo ∧
    (deliver k x r d l s).image = s.image ∧ (deliver k x r d l s).pending = s.pending := by
  cases x <;> simp [deliver]

@[simp] theorem portFault_frame (a : Nat) (s : State) :
    (portFault a s).time = s.time ∧ (portFault a s).sense = s.sense ∧ (portFault a s).pulse = s.pulse ∧
    (portFault a s).dist = s.dist ∧ (portFault a s).analog = s.analog ∧ (portFault a s).door = s.door ∧
    (portFault a s).warn = s.warn ∧ (portFault a s).out = s.out ∧ (portFault a s).faults = s.faults ∧
    (portFault a s).store = s.store ∧ (portFault a s).link = s.link ∧ (portFault a s).win.ram = s.win.ram ∧
    (portFault a s).win.slots = s.win.slots ∧ (portFault a s).win.attention = s.win.attention ∧
    (portFault a s).win.claims = s.win.claims ∧ (portFault a s).win.enable = s.win.enable ∧
    (portFault a s).win.softCause = s.win.softCause ∧ (portFault a s).win.source = s.win.source ∧
    (portFault a s).win.ops = s.win.ops ∧ (portFault a s).win.adoption = s.win.adoption ∧
    (portFault a s).win.lastTake = s.win.lastTake ∧ (portFault a s).win.sdo = s.win.sdo ∧
    (portFault a s).image = s.image ∧ (portFault a s).pending = s.pending := by
  simp [portFault]

/-! ## Images -/

@[simp] theorem publishSense_frame (b : State) (s : State) :
    (publishSense b s).time = s.time ∧ (publishSense b s).sense = s.sense ∧
    (publishSense b s).pulse = s.pulse ∧ (publishSense b s).dist = s.dist ∧
    (publishSense b s).analog = s.analog ∧ (publishSense b s).door = s.door ∧
    (publishSense b s).warn = s.warn ∧ (publishSense b s).out = s.out ∧
    (publishSense b s).faults = s.faults ∧ (publishSense b s).store = s.store ∧
    (publishSense b s).link = s.link ∧ (publishSense b s).win.slots = s.win.slots ∧
    (publishSense b s).win.attention = s.win.attention ∧ (publishSense b s).win.claims = s.win.claims ∧
    (publishSense b s).win.notice = s.win.notice ∧ (publishSense b s).win.enable = s.win.enable ∧
    (publishSense b s).win.capture = s.win.capture ∧ (publishSense b s).win.faultCount = s.win.faultCount ∧
    (publishSense b s).win.softCause = s.win.softCause ∧ (publishSense b s).win.source = s.win.source ∧
    (publishSense b s).win.ops = s.win.ops ∧ (publishSense b s).win.adoption = s.win.adoption ∧
    (publishSense b s).win.lastTake = s.win.lastTake ∧ (publishSense b s).win.sdo = s.win.sdo ∧
    (publishSense b s).image = s.image ∧ (publishSense b s).pending = s.pending := by
  unfold publishSense
  (repeat' split) <;> simp

@[simp] theorem publishOutput_frame (b : State) (s : State) :
    (publishOutput b s).time = s.time ∧ (publishOutput b s).sense = s.sense ∧
    (publishOutput b s).pulse = s.pulse ∧ (publishOutput b s).dist = s.dist ∧
    (publishOutput b s).analog = s.analog ∧ (publishOutput b s).door = s.door ∧
    (publishOutput b s).warn = s.warn ∧ (publishOutput b s).out = s.out ∧
    (publishOutput b s).faults = s.faults ∧ (publishOutput b s).store = s.store ∧
    (publishOutput b s).link = s.link ∧ (publishOutput b s).win.slots = s.win.slots ∧
    (publishOutput b s).win.attention = s.win.attention ∧ (publishOutput b s).win.claims = s.win.claims ∧
    (publishOutput b s).win.notice = s.win.notice ∧ (publishOutput b s).win.enable = s.win.enable ∧
    (publishOutput b s).win.capture = s.win.capture ∧
    (publishOutput b s).win.faultCount = s.win.faultCount ∧
    (publishOutput b s).win.softCause = s.win.softCause ∧ (publishOutput b s).win.source = s.win.source ∧
    (publishOutput b s).win.ops = s.win.ops ∧ (publishOutput b s).win.adoption = s.win.adoption ∧
    (publishOutput b s).win.lastTake = s.win.lastTake ∧ (publishOutput b s).win.sdo = s.win.sdo ∧
    (publishOutput b s).image = s.image ∧ (publishOutput b s).pending = s.pending := by
  unfold publishOutput
  (repeat' split) <;> simp

@[simp] theorem publishJournal_frame (b : State) (s : State) :
    (publishJournal b s).time = s.time ∧ (publishJournal b s).sense = s.sense ∧
    (publishJournal b s).pulse = s.pulse ∧ (publishJournal b s).dist = s.dist ∧
    (publishJournal b s).analog = s.analog ∧ (publishJournal b s).door = s.door ∧
    (publishJournal b s).warn = s.warn ∧ (publishJournal b s).out = s.out ∧
    (publishJournal b s).faults = s.faults ∧ (publishJournal b s).store = s.store ∧
    (publishJournal b s).link = s.link ∧ (publishJournal b s).win.slots = s.win.slots ∧
    (publishJournal b s).win.attention = s.win.attention ∧ (publishJournal b s).win.claims = s.win.claims ∧
    (publishJournal b s).win.notice = s.win.notice ∧ (publishJournal b s).win.enable = s.win.enable ∧
    (publishJournal b s).win.capture = s.win.capture ∧
    (publishJournal b s).win.faultCount = s.win.faultCount ∧
    (publishJournal b s).win.softCause = s.win.softCause ∧ (publishJournal b s).win.source = s.win.source ∧
    (publishJournal b s).win.ops = s.win.ops ∧ (publishJournal b s).win.adoption = s.win.adoption ∧
    (publishJournal b s).win.lastTake = s.win.lastTake ∧ (publishJournal b s).win.sdo = s.win.sdo ∧
    (publishJournal b s).image = s.image ∧ (publishJournal b s).pending = s.pending := by
  unfold publishJournal
  (repeat' split) <;> simp

@[simp] theorem publishDoor_frame (f : Bool) (b : State) (s : State) :
    (publishDoor f b s).time = s.time ∧ (publishDoor f b s).sense = s.sense ∧
    (publishDoor f b s).pulse = s.pulse ∧ (publishDoor f b s).dist = s.dist ∧
    (publishDoor f b s).analog = s.analog ∧ (publishDoor f b s).door = s.door ∧
    (publishDoor f b s).warn = s.warn ∧ (publishDoor f b s).out = s.out ∧
    (publishDoor f b s).faults = s.faults ∧ (publishDoor f b s).store = s.store ∧
    (publishDoor f b s).link = s.link ∧ (publishDoor f b s).win.slots = s.win.slots ∧
    (publishDoor f b s).win.attention = s.win.attention ∧ (publishDoor f b s).win.claims = s.win.claims ∧
    (publishDoor f b s).win.enable = s.win.enable ∧ (publishDoor f b s).win.capture = s.win.capture ∧
    (publishDoor f b s).win.faultCount = s.win.faultCount ∧
    (publishDoor f b s).win.softCause = s.win.softCause ∧ (publishDoor f b s).win.source = s.win.source ∧
    (publishDoor f b s).win.ops = s.win.ops ∧ (publishDoor f b s).win.adoption = s.win.adoption ∧
    (publishDoor f b s).win.lastTake = s.win.lastTake ∧ (publishDoor f b s).win.sdo = s.win.sdo ∧
    (publishDoor f b s).image = s.image ∧ (publishDoor f b s).pending = s.pending := by
  unfold publishDoor
  (repeat' split) <;> simp

@[simp] theorem publishWarnings_frame (f : Bool) (b : State) (s : State) :
    (publishWarnings f b s).time = s.time ∧ (publishWarnings f b s).sense = s.sense ∧
    (publishWarnings f b s).pulse = s.pulse ∧ (publishWarnings f b s).dist = s.dist ∧
    (publishWarnings f b s).analog = s.analog ∧ (publishWarnings f b s).door = s.door ∧
    (publishWarnings f b s).warn = s.warn ∧ (publishWarnings f b s).out = s.out ∧
    (publishWarnings f b s).faults = s.faults ∧ (publishWarnings f b s).store = s.store ∧
    (publishWarnings f b s).link = s.link ∧ (publishWarnings f b s).win.slots = s.win.slots ∧
    (publishWarnings f b s).win.attention = s.win.attention ∧
    (publishWarnings f b s).win.claims = s.win.claims ∧ (publishWarnings f b s).win.enable = s.win.enable ∧
    (publishWarnings f b s).win.capture = s.win.capture ∧
    (publishWarnings f b s).win.faultCount = s.win.faultCount ∧
    (publishWarnings f b s).win.softCause = s.win.softCause ∧
    (publishWarnings f b s).win.source = s.win.source ∧ (publishWarnings f b s).win.ops = s.win.ops ∧
    (publishWarnings f b s).win.adoption = s.win.adoption ∧
    (publishWarnings f b s).win.lastTake = s.win.lastTake ∧ (publishWarnings f b s).win.sdo = s.win.sdo ∧
    (publishWarnings f b s).image = s.image ∧ (publishWarnings f b s).pending = s.pending := by
  unfold publishWarnings
  (repeat' split) <;> simp

@[simp] theorem publishFaults_frame (f : Bool) (b : State) (s : State) :
    (publishFaults f b s).time = s.time ∧ (publishFaults f b s).sense = s.sense ∧
    (publishFaults f b s).pulse = s.pulse ∧ (publishFaults f b s).dist = s.dist ∧
    (publishFaults f b s).analog = s.analog ∧ (publishFaults f b s).door = s.door ∧
    (publishFaults f b s).warn = s.warn ∧ (publishFaults f b s).out = s.out ∧
    (publishFaults f b s).faults = s.faults ∧ (publishFaults f b s).store = s.store ∧
    (publishFaults f b s).link = s.link ∧ (publishFaults f b s).win.slots = s.win.slots ∧
    (publishFaults f b s).win.attention = s.win.attention ∧
    (publishFaults f b s).win.claims = s.win.claims ∧ (publishFaults f b s).win.enable = s.win.enable ∧
    (publishFaults f b s).win.capture = s.win.capture ∧
    (publishFaults f b s).win.faultCount = s.win.faultCount ∧
    (publishFaults f b s).win.softCause = s.win.softCause ∧
    (publishFaults f b s).win.source = s.win.source ∧ (publishFaults f b s).win.ops = s.win.ops ∧
    (publishFaults f b s).win.adoption = s.win.adoption ∧
    (publishFaults f b s).win.lastTake = s.win.lastTake ∧ (publishFaults f b s).win.sdo = s.win.sdo ∧
    (publishFaults f b s).image = s.image ∧ (publishFaults f b s).pending = s.pending := by
  unfold publishFaults
  (repeat' split) <;> simp

@[simp] theorem publishGauge_frame (s : State) :
    (publishGauge s).time = s.time ∧ (publishGauge s).sense = s.sense ∧ (publishGauge s).pulse = s.pulse ∧
    (publishGauge s).dist = s.dist ∧ (publishGauge s).analog = s.analog ∧ (publishGauge s).door = s.door ∧
    (publishGauge s).warn = s.warn ∧ (publishGauge s).out = s.out ∧ (publishGauge s).faults = s.faults ∧
    (publishGauge s).store = s.store ∧ (publishGauge s).link = s.link ∧
    (publishGauge s).win.slots = s.win.slots ∧ (publishGauge s).win.attention = s.win.attention ∧
    (publishGauge s).win.claims = s.win.claims ∧ (publishGauge s).win.enable = s.win.enable ∧
    (publishGauge s).win.capture = s.win.capture ∧ (publishGauge s).win.faultCount = s.win.faultCount ∧
    (publishGauge s).win.softCause = s.win.softCause ∧ (publishGauge s).win.source = s.win.source ∧
    (publishGauge s).win.ops = s.win.ops ∧ (publishGauge s).win.adoption = s.win.adoption ∧
    (publishGauge s).win.lastTake = s.win.lastTake ∧ (publishGauge s).win.sdo = s.win.sdo ∧
    (publishGauge s).image = s.image ∧ (publishGauge s).pending = s.pending := by
  simp [publishGauge]

@[simp] theorem publishAll_frame (f g : Bool) (b : State) (s : State) :
    (publishAll f g b s).time = s.time ∧ (publishAll f g b s).sense = s.sense ∧
    (publishAll f g b s).pulse = s.pulse ∧ (publishAll f g b s).dist = s.dist ∧
    (publishAll f g b s).analog = s.analog ∧ (publishAll f g b s).door = s.door ∧
    (publishAll f g b s).warn = s.warn ∧ (publishAll f g b s).out = s.out ∧
    (publishAll f g b s).faults = s.faults ∧ (publishAll f g b s).store = s.store ∧
    (publishAll f g b s).link = s.link ∧ (publishAll f g b s).win.slots = s.win.slots ∧
    (publishAll f g b s).win.attention = s.win.attention ∧ (publishAll f g b s).win.claims = s.win.claims ∧
    (publishAll f g b s).win.enable = s.win.enable ∧ (publishAll f g b s).win.capture = s.win.capture ∧
    (publishAll f g b s).win.faultCount = s.win.faultCount ∧
    (publishAll f g b s).win.softCause = s.win.softCause ∧ (publishAll f g b s).win.source = s.win.source ∧
    (publishAll f g b s).win.ops = s.win.ops ∧ (publishAll f g b s).win.adoption = s.win.adoption ∧
    (publishAll f g b s).win.lastTake = s.win.lastTake ∧ (publishAll f g b s).win.sdo = s.win.sdo ∧
    (publishAll f g b s).image = s.image ∧ (publishAll f g b s).pending = s.pending := by
  simp [publishAll]

@[simp] theorem publish_frame (b : State) (s : State) :
    (publish b s).time = s.time ∧ (publish b s).sense = s.sense ∧ (publish b s).pulse = s.pulse ∧
    (publish b s).dist = s.dist ∧ (publish b s).analog = s.analog ∧ (publish b s).door = s.door ∧
    (publish b s).warn = s.warn ∧ (publish b s).out = s.out ∧ (publish b s).faults = s.faults ∧
    (publish b s).store = s.store ∧ (publish b s).link = s.link ∧ (publish b s).win.slots = s.win.slots ∧
    (publish b s).win.attention = s.win.attention ∧ (publish b s).win.claims = s.win.claims ∧
    (publish b s).win.enable = s.win.enable ∧ (publish b s).win.capture = s.win.capture ∧
    (publish b s).win.faultCount = s.win.faultCount ∧ (publish b s).win.softCause = s.win.softCause ∧
    (publish b s).win.source = s.win.source ∧ (publish b s).win.ops = s.win.ops ∧
    (publish b s).win.adoption = s.win.adoption ∧ (publish b s).win.lastTake = s.win.lastTake ∧
    (publish b s).win.sdo = s.win.sdo ∧ (publish b s).image = s.image ∧ (publish b s).pending = s.pending := by
  simp [publish]

/-! ## Output Unit -/

@[simp] theorem computeLamps_frame (s : State) :
    (computeLamps s).time = s.time ∧ (computeLamps s).sense = s.sense ∧ (computeLamps s).pulse = s.pulse ∧
    (computeLamps s).dist = s.dist ∧ (computeLamps s).analog = s.analog ∧ (computeLamps s).door = s.door ∧
    (computeLamps s).warn = s.warn ∧ (computeLamps s).out.arbiter = s.out.arbiter ∧
    (computeLamps s).out.test = s.out.test ∧ (computeLamps s).out.lastResult = s.out.lastResult ∧
    (computeLamps s).out.supervision = s.out.supervision ∧ (computeLamps s).faults = s.faults ∧
    (computeLamps s).store = s.store ∧ (computeLamps s).link = s.link ∧ (computeLamps s).win = s.win ∧
    (computeLamps s).image = s.image ∧ (computeLamps s).pending = s.pending := by
  simp [computeLamps]

@[simp] theorem edgeLamps_frame (p : Phase) (s : State) :
    (edgeLamps p s).time = s.time ∧ (edgeLamps p s).sense = s.sense ∧ (edgeLamps p s).pulse = s.pulse ∧
    (edgeLamps p s).dist = s.dist ∧ (edgeLamps p s).analog = s.analog ∧ (edgeLamps p s).door = s.door ∧
    (edgeLamps p s).warn = s.warn ∧ (edgeLamps p s).out.arbiter = s.out.arbiter ∧
    (edgeLamps p s).out.test = s.out.test ∧ (edgeLamps p s).out.lastResult = s.out.lastResult ∧
    (edgeLamps p s).out.supervision = s.out.supervision ∧ (edgeLamps p s).faults = s.faults ∧
    (edgeLamps p s).store = s.store ∧ (edgeLamps p s).link = s.link ∧ (edgeLamps p s).win = s.win ∧
    (edgeLamps p s).image = s.image ∧ (edgeLamps p s).pending = s.pending := by
  simp [edgeLamps]

@[simp] theorem requestBurst_frame (c : BurstClass) (s : State) :
    (requestBurst c s).time = s.time ∧ (requestBurst c s).sense = s.sense ∧
    (requestBurst c s).pulse = s.pulse ∧ (requestBurst c s).dist = s.dist ∧
    (requestBurst c s).analog = s.analog ∧ (requestBurst c s).door = s.door ∧
    (requestBurst c s).warn = s.warn ∧ (requestBurst c s).out.lamps = s.out.lamps ∧
    (requestBurst c s).out.test = s.out.test ∧ (requestBurst c s).out.lastResult = s.out.lastResult ∧
    (requestBurst c s).out.supervision = s.out.supervision ∧ (requestBurst c s).faults = s.faults ∧
    (requestBurst c s).store = s.store ∧ (requestBurst c s).link = s.link ∧
    (requestBurst c s).win = s.win ∧ (requestBurst c s).image = s.image ∧
    (requestBurst c s).pending = s.pending := by
  simp [requestBurst]

@[simp] theorem syncRepeat_frame (s : State) :
    (syncRepeat s).time = s.time ∧ (syncRepeat s).sense = s.sense ∧ (syncRepeat s).pulse = s.pulse ∧
    (syncRepeat s).dist = s.dist ∧ (syncRepeat s).analog = s.analog ∧ (syncRepeat s).door = s.door ∧
    (syncRepeat s).warn = s.warn ∧ (syncRepeat s).out.lamps = s.out.lamps ∧
    (syncRepeat s).out.test = s.out.test ∧ (syncRepeat s).out.lastResult = s.out.lastResult ∧
    (syncRepeat s).out.supervision = s.out.supervision ∧ (syncRepeat s).faults = s.faults ∧
    (syncRepeat s).store = s.store ∧ (syncRepeat s).link = s.link ∧ (syncRepeat s).win = s.win ∧
    (syncRepeat s).image = s.image ∧ (syncRepeat s).pending = s.pending := by
  simp [syncRepeat]

@[simp] theorem startTest_frame (x : Side) (p : Pattern) (n : Nat) (s : State) :
    (startTest x p n s).time = s.time ∧ (startTest x p n s).sense = s.sense ∧
    (startTest x p n s).pulse = s.pulse ∧ (startTest x p n s).dist = s.dist ∧
    (startTest x p n s).analog = s.analog ∧ (startTest x p n s).door = s.door ∧
    (startTest x p n s).warn = s.warn ∧ (startTest x p n s).out.arbiter = s.out.arbiter ∧
    (startTest x p n s).out.lastResult = s.out.lastResult ∧
    (startTest x p n s).out.supervision = s.out.supervision ∧ (startTest x p n s).faults = s.faults ∧
    (startTest x p n s).store = s.store ∧ (startTest x p n s).link = s.link ∧
    (startTest x p n s).win.ram = s.win.ram ∧ (startTest x p n s).win.slots = s.win.slots ∧
    (startTest x p n s).win.attention = s.win.attention ∧ (startTest x p n s).win.claims = s.win.claims ∧
    (startTest x p n s).win.enable = s.win.enable ∧ (startTest x p n s).win.capture = s.win.capture ∧
    (startTest x p n s).win.faultCount = s.win.faultCount ∧
    (startTest x p n s).win.softCause = s.win.softCause ∧ (startTest x p n s).win.source = s.win.source ∧
    (startTest x p n s).win.ops = s.win.ops ∧ (startTest x p n s).win.adoption = s.win.adoption ∧
    (startTest x p n s).win.lastTake = s.win.lastTake ∧ (startTest x p n s).win.sdo = s.win.sdo ∧
    (startTest x p n s).image = s.image ∧ (startTest x p n s).pending = s.pending := by
  simp [startTest]

@[simp] theorem endTest_frame (r : Option AbortReason) (s : State) :
    (endTest r s).time = s.time ∧ (endTest r s).sense = s.sense ∧ (endTest r s).pulse = s.pulse ∧
    (endTest r s).dist = s.dist ∧ (endTest r s).analog = s.analog ∧ (endTest r s).door = s.door ∧
    (endTest r s).warn = s.warn ∧ (endTest r s).out.arbiter = s.out.arbiter ∧
    (endTest r s).out.supervision = s.out.supervision ∧ (endTest r s).faults = s.faults ∧
    (endTest r s).store = s.store ∧ (endTest r s).link.inFrame = s.link.inFrame ∧
    (endTest r s).link.counter = s.link.counter ∧ (endTest r s).link.shift = s.link.shift ∧
    (endTest r s).link.kind = s.link.kind ∧ (endTest r s).link.progress = s.link.progress ∧
    (endTest r s).link.answer = s.link.answer ∧ (endTest r s).link.holdNext = s.link.holdNext ∧
    (endTest r s).link.request = s.link.request ∧ (endTest r s).link.session = s.link.session ∧
    (endTest r s).link.sessionTimer = s.link.sessionTimer ∧ (endTest r s).win.attention = s.win.attention ∧
    (endTest r s).win.claims = s.win.claims ∧ (endTest r s).win.enable = s.win.enable ∧
    (endTest r s).win.capture = s.win.capture ∧ (endTest r s).win.faultCount = s.win.faultCount ∧
    (endTest r s).win.softCause = s.win.softCause ∧ (endTest r s).win.source = s.win.source ∧
    (endTest r s).win.adoption = s.win.adoption ∧ (endTest r s).win.lastTake = s.win.lastTake ∧
    (endTest r s).win.sdo = s.win.sdo ∧ (endTest r s).image = s.image ∧ (endTest r s).pending = s.pending := by
  simp only [endTest]
  (repeat' split) <;> simp

@[simp] theorem abortTest_frame (r : AbortReason) (s : State) :
    (abortTest r s).time = s.time ∧ (abortTest r s).sense = s.sense ∧ (abortTest r s).pulse = s.pulse ∧
    (abortTest r s).dist = s.dist ∧ (abortTest r s).analog = s.analog ∧ (abortTest r s).door = s.door ∧
    (abortTest r s).warn = s.warn ∧ (abortTest r s).out.arbiter = s.out.arbiter ∧
    (abortTest r s).out.supervision = s.out.supervision ∧ (abortTest r s).faults = s.faults ∧
    (abortTest r s).store = s.store ∧ (abortTest r s).link.inFrame = s.link.inFrame ∧
    (abortTest r s).link.counter = s.link.counter ∧ (abortTest r s).link.shift = s.link.shift ∧
    (abortTest r s).link.kind = s.link.kind ∧ (abortTest r s).link.progress = s.link.progress ∧
    (abortTest r s).link.answer = s.link.answer ∧ (abortTest r s).link.holdNext = s.link.holdNext ∧
    (abortTest r s).link.request = s.link.request ∧ (abortTest r s).link.session = s.link.session ∧
    (abortTest r s).link.sessionTimer = s.link.sessionTimer ∧
    (abortTest r s).win.attention = s.win.attention ∧ (abortTest r s).win.claims = s.win.claims ∧
    (abortTest r s).win.enable = s.win.enable ∧ (abortTest r s).win.capture = s.win.capture ∧
    (abortTest r s).win.faultCount = s.win.faultCount ∧ (abortTest r s).win.softCause = s.win.softCause ∧
    (abortTest r s).win.source = s.win.source ∧ (abortTest r s).win.adoption = s.win.adoption ∧
    (abortTest r s).win.lastTake = s.win.lastTake ∧ (abortTest r s).win.sdo = s.win.sdo ∧
    (abortTest r s).image = s.image ∧ (abortTest r s).pending = s.pending := by
  simp [abortTest]

@[simp] theorem abortTestOf_frame (x : Side) (r : AbortReason) (s : State) :
    (abortTestOf x r s).time = s.time ∧ (abortTestOf x r s).sense = s.sense ∧
    (abortTestOf x r s).pulse = s.pulse ∧ (abortTestOf x r s).dist = s.dist ∧
    (abortTestOf x r s).analog = s.analog ∧ (abortTestOf x r s).door = s.door ∧
    (abortTestOf x r s).warn = s.warn ∧ (abortTestOf x r s).out.arbiter = s.out.arbiter ∧
    (abortTestOf x r s).out.supervision = s.out.supervision ∧ (abortTestOf x r s).faults = s.faults ∧
    (abortTestOf x r s).store = s.store ∧ (abortTestOf x r s).link.inFrame = s.link.inFrame ∧
    (abortTestOf x r s).link.counter = s.link.counter ∧ (abortTestOf x r s).link.shift = s.link.shift ∧
    (abortTestOf x r s).link.kind = s.link.kind ∧ (abortTestOf x r s).link.progress = s.link.progress ∧
    (abortTestOf x r s).link.answer = s.link.answer ∧ (abortTestOf x r s).link.holdNext = s.link.holdNext ∧
    (abortTestOf x r s).link.request = s.link.request ∧ (abortTestOf x r s).link.session = s.link.session ∧
    (abortTestOf x r s).link.sessionTimer = s.link.sessionTimer ∧
    (abortTestOf x r s).win.attention = s.win.attention ∧ (abortTestOf x r s).win.claims = s.win.claims ∧
    (abortTestOf x r s).win.enable = s.win.enable ∧ (abortTestOf x r s).win.capture = s.win.capture ∧
    (abortTestOf x r s).win.faultCount = s.win.faultCount ∧
    (abortTestOf x r s).win.softCause = s.win.softCause ∧ (abortTestOf x r s).win.source = s.win.source ∧
    (abortTestOf x r s).win.adoption = s.win.adoption ∧ (abortTestOf x r s).win.lastTake = s.win.lastTake ∧
    (abortTestOf x r s).win.sdo = s.win.sdo ∧ (abortTestOf x r s).image = s.image ∧
    (abortTestOf x r s).pending = s.pending := by
  unfold abortTestOf
  (repeat' split) <;> simp

@[simp] theorem walkStep_frame (s : State) :
    (walkStep s).time = s.time ∧ (walkStep s).sense = s.sense ∧ (walkStep s).pulse = s.pulse ∧
    (walkStep s).dist = s.dist ∧ (walkStep s).analog = s.analog ∧ (walkStep s).door = s.door ∧
    (walkStep s).warn = s.warn ∧ (walkStep s).out.arbiter = s.out.arbiter ∧
    (walkStep s).out.lastResult = s.out.lastResult ∧ (walkStep s).out.supervision = s.out.supervision ∧
    (walkStep s).faults = s.faults ∧ (walkStep s).store = s.store ∧ (walkStep s).link = s.link ∧
    (walkStep s).win = s.win ∧ (walkStep s).image = s.image ∧ (walkStep s).pending = s.pending := by
  unfold walkStep
  (repeat' split) <;> simp

@[simp] theorem buzzerHalf_frame (s : State) :
    (buzzerHalf s).time = s.time ∧ (buzzerHalf s).sense = s.sense ∧ (buzzerHalf s).pulse = s.pulse ∧
    (buzzerHalf s).dist = s.dist ∧ (buzzerHalf s).analog = s.analog ∧ (buzzerHalf s).door = s.door ∧
    (buzzerHalf s).warn = s.warn ∧ (buzzerHalf s).out.lamps = s.out.lamps ∧
    (buzzerHalf s).out.arbiter = s.out.arbiter ∧ (buzzerHalf s).out.lastResult = s.out.lastResult ∧
    (buzzerHalf s).out.supervision = s.out.supervision ∧ (buzzerHalf s).faults = s.faults ∧
    (buzzerHalf s).store = s.store ∧ (buzzerHalf s).link = s.link ∧ (buzzerHalf s).win = s.win ∧
    (buzzerHalf s).image = s.image ∧ (buzzerHalf s).pending = s.pending := by
  unfold buzzerHalf
  (repeat' split) <;> simp

@[simp] theorem loseClaims_frame (h : Holder) (s : State) :
    (loseClaims h s).time = s.time ∧ (loseClaims h s).sense = s.sense ∧ (loseClaims h s).pulse = s.pulse ∧
    (loseClaims h s).dist = s.dist ∧ (loseClaims h s).analog = s.analog ∧ (loseClaims h s).door = s.door ∧
    (loseClaims h s).warn = s.warn ∧ (loseClaims h s).out = s.out ∧ (loseClaims h s).faults = s.faults ∧
    (loseClaims h s).store = s.store ∧ (loseClaims h s).link = s.link ∧
    (loseClaims h s).win.ram = s.win.ram ∧ (loseClaims h s).win.slots = s.win.slots ∧
    (loseClaims h s).win.attention = s.win.attention ∧ (loseClaims h s).win.enable = s.win.enable ∧
    (loseClaims h s).win.capture = s.win.capture ∧ (loseClaims h s).win.faultCount = s.win.faultCount ∧
    (loseClaims h s).win.softCause = s.win.softCause ∧ (loseClaims h s).win.source = s.win.source ∧
    (loseClaims h s).win.ops = s.win.ops ∧ (loseClaims h s).win.adoption = s.win.adoption ∧
    (loseClaims h s).win.lastTake = s.win.lastTake ∧ (loseClaims h s).win.sdo = s.win.sdo ∧
    (loseClaims h s).image = s.image ∧ (loseClaims h s).pending = s.pending := by
  unfold loseClaims
  (repeat' split) <;> simp

@[simp] theorem enterFallback_frame (s : State) :
    (enterFallback s).time = s.time ∧ (enterFallback s).sense = s.sense ∧
    (enterFallback s).pulse = s.pulse ∧ (enterFallback s).dist = s.dist ∧
    (enterFallback s).analog = s.analog ∧ (enterFallback s).door = s.door ∧
    (enterFallback s).warn = s.warn ∧ (enterFallback s).out.arbiter = s.out.arbiter ∧
    (enterFallback s).faults = s.faults ∧ (enterFallback s).store = s.store ∧
    (enterFallback s).link.inFrame = s.link.inFrame ∧ (enterFallback s).link.counter = s.link.counter ∧
    (enterFallback s).link.shift = s.link.shift ∧ (enterFallback s).link.kind = s.link.kind ∧
    (enterFallback s).link.progress = s.link.progress ∧ (enterFallback s).link.answer = s.link.answer ∧
    (enterFallback s).link.holdNext = s.link.holdNext ∧ (enterFallback s).link.request = s.link.request ∧
    (enterFallback s).link.session = s.link.session ∧
    (enterFallback s).link.sessionTimer = s.link.sessionTimer ∧
    (enterFallback s).win.attention = s.win.attention ∧ (enterFallback s).win.enable = s.win.enable ∧
    (enterFallback s).win.capture = s.win.capture ∧ (enterFallback s).win.faultCount = s.win.faultCount ∧
    (enterFallback s).win.softCause = s.win.softCause ∧ (enterFallback s).win.source = s.win.source ∧
    (enterFallback s).win.adoption = s.win.adoption ∧ (enterFallback s).win.lastTake = s.win.lastTake ∧
    (enterFallback s).win.sdo = s.win.sdo ∧ (enterFallback s).image = s.image ∧
    (enterFallback s).pending = s.pending := by
  simp [enterFallback]

@[simp] theorem enterWarned_frame (s : State) :
    (enterWarned s).time = s.time ∧ (enterWarned s).sense = s.sense ∧ (enterWarned s).pulse = s.pulse ∧
    (enterWarned s).dist = s.dist ∧ (enterWarned s).analog = s.analog ∧ (enterWarned s).door = s.door ∧
    (enterWarned s).warn = s.warn ∧ (enterWarned s).out.lamps = s.out.lamps ∧
    (enterWarned s).out.arbiter = s.out.arbiter ∧ (enterWarned s).out.test = s.out.test ∧
    (enterWarned s).out.lastResult = s.out.lastResult ∧ (enterWarned s).faults = s.faults ∧
    (enterWarned s).store = s.store ∧ (enterWarned s).link = s.link ∧ (enterWarned s).win.ram = s.win.ram ∧
    (enterWarned s).win.slots = s.win.slots ∧ (enterWarned s).win.attention = s.win.attention ∧
    (enterWarned s).win.claims = s.win.claims ∧ (enterWarned s).win.enable = s.win.enable ∧
    (enterWarned s).win.capture = s.win.capture ∧ (enterWarned s).win.faultCount = s.win.faultCount ∧
    (enterWarned s).win.softCause = s.win.softCause ∧ (enterWarned s).win.source = s.win.source ∧
    (enterWarned s).win.ops = s.win.ops ∧ (enterWarned s).win.adoption = s.win.adoption ∧
    (enterWarned s).win.lastTake = s.win.lastTake ∧ (enterWarned s).win.sdo = s.win.sdo ∧
    (enterWarned s).image = s.image ∧ (enterWarned s).pending = s.pending := by
  simp [enterWarned]

@[simp] theorem goodRefresh_frame (s : State) :
    (goodRefresh s).time = s.time ∧ (goodRefresh s).sense = s.sense ∧ (goodRefresh s).pulse = s.pulse ∧
    (goodRefresh s).dist = s.dist ∧ (goodRefresh s).analog = s.analog ∧ (goodRefresh s).door = s.door ∧
    (goodRefresh s).warn = s.warn ∧ (goodRefresh s).out.arbiter = s.out.arbiter ∧
    (goodRefresh s).out.test = s.out.test ∧ (goodRefresh s).out.lastResult = s.out.lastResult ∧
    (goodRefresh s).faults = s.faults ∧ (goodRefresh s).store = s.store ∧ (goodRefresh s).link = s.link ∧
    (goodRefresh s).win.ram = s.win.ram ∧ (goodRefresh s).win.slots = s.win.slots ∧
    (goodRefresh s).win.attention = s.win.attention ∧ (goodRefresh s).win.claims = s.win.claims ∧
    (goodRefresh s).win.enable = s.win.enable ∧ (goodRefresh s).win.capture = s.win.capture ∧
    (goodRefresh s).win.faultCount = s.win.faultCount ∧ (goodRefresh s).win.softCause = s.win.softCause ∧
    (goodRefresh s).win.source = s.win.source ∧ (goodRefresh s).win.ops = s.win.ops ∧
    (goodRefresh s).win.adoption = s.win.adoption ∧ (goodRefresh s).win.lastTake = s.win.lastTake ∧
    (goodRefresh s).win.sdo = s.win.sdo ∧ (goodRefresh s).image = s.image ∧
    (goodRefresh s).pending = s.pending := by
  simp only [goodRefresh]
  (repeat' split) <;> simp

@[simp] theorem refreshFault_frame (s : State) :
    (refreshFault s).time = s.time ∧ (refreshFault s).sense = s.sense ∧ (refreshFault s).pulse = s.pulse ∧
    (refreshFault s).dist = s.dist ∧ (refreshFault s).analog = s.analog ∧ (refreshFault s).door = s.door ∧
    (refreshFault s).warn = s.warn ∧ (refreshFault s).out.arbiter = s.out.arbiter ∧
    (refreshFault s).faults = s.faults ∧ (refreshFault s).store = s.store ∧
    (refreshFault s).link.inFrame = s.link.inFrame ∧ (refreshFault s).link.counter = s.link.counter ∧
    (refreshFault s).link.shift = s.link.shift ∧ (refreshFault s).link.kind = s.link.kind ∧
    (refreshFault s).link.progress = s.link.progress ∧ (refreshFault s).link.answer = s.link.answer ∧
    (refreshFault s).link.holdNext = s.link.holdNext ∧ (refreshFault s).link.request = s.link.request ∧
    (refreshFault s).link.session = s.link.session ∧
    (refreshFault s).link.sessionTimer = s.link.sessionTimer ∧
    (refreshFault s).win.attention = s.win.attention ∧ (refreshFault s).win.enable = s.win.enable ∧
    (refreshFault s).win.capture = s.win.capture ∧ (refreshFault s).win.faultCount = s.win.faultCount ∧
    (refreshFault s).win.softCause = s.win.softCause ∧ (refreshFault s).win.source = s.win.source ∧
    (refreshFault s).win.adoption = s.win.adoption ∧ (refreshFault s).win.lastTake = s.win.lastTake ∧
    (refreshFault s).win.sdo = s.win.sdo ∧ (refreshFault s).image = s.image ∧
    (refreshFault s).pending = s.pending := by
  simp only [refreshFault]
  (repeat' split) <;> simp

@[simp] theorem refreshWrite_frame (v : Byte) (s : State) :
    (refreshWrite v s).time = s.time ∧ (refreshWrite v s).sense = s.sense ∧
    (refreshWrite v s).pulse = s.pulse ∧ (refreshWrite v s).dist = s.dist ∧
    (refreshWrite v s).analog = s.analog ∧ (refreshWrite v s).door = s.door ∧
    (refreshWrite v s).warn = s.warn ∧ (refreshWrite v s).out.arbiter = s.out.arbiter ∧
    (refreshWrite v s).faults = s.faults ∧ (refreshWrite v s).store = s.store ∧
    (refreshWrite v s).link.inFrame = s.link.inFrame ∧ (refreshWrite v s).link.counter = s.link.counter ∧
    (refreshWrite v s).link.shift = s.link.shift ∧ (refreshWrite v s).link.kind = s.link.kind ∧
    (refreshWrite v s).link.progress = s.link.progress ∧ (refreshWrite v s).link.answer = s.link.answer ∧
    (refreshWrite v s).link.holdNext = s.link.holdNext ∧ (refreshWrite v s).link.request = s.link.request ∧
    (refreshWrite v s).link.session = s.link.session ∧
    (refreshWrite v s).link.sessionTimer = s.link.sessionTimer ∧
    (refreshWrite v s).win.attention = s.win.attention ∧ (refreshWrite v s).win.enable = s.win.enable ∧
    (refreshWrite v s).win.capture = s.win.capture ∧ (refreshWrite v s).win.faultCount = s.win.faultCount ∧
    (refreshWrite v s).win.softCause = s.win.softCause ∧ (refreshWrite v s).win.source = s.win.source ∧
    (refreshWrite v s).win.adoption = s.win.adoption ∧ (refreshWrite v s).win.lastTake = s.win.lastTake ∧
    (refreshWrite v s).win.sdo = s.win.sdo ∧ (refreshWrite v s).image = s.image ∧
    (refreshWrite v s).pending = s.pending := by
  unfold refreshWrite
  (repeat' split) <;> simp

@[simp] theorem periodExpiry_frame (s : State) :
    (periodExpiry s).time = s.time ∧ (periodExpiry s).sense = s.sense ∧ (periodExpiry s).pulse = s.pulse ∧
    (periodExpiry s).dist = s.dist ∧ (periodExpiry s).analog = s.analog ∧ (periodExpiry s).door = s.door ∧
    (periodExpiry s).warn = s.warn ∧ (periodExpiry s).out.arbiter = s.out.arbiter ∧
    (periodExpiry s).faults = s.faults ∧ (periodExpiry s).store = s.store ∧
    (periodExpiry s).link.inFrame = s.link.inFrame ∧ (periodExpiry s).link.counter = s.link.counter ∧
    (periodExpiry s).link.shift = s.link.shift ∧ (periodExpiry s).link.kind = s.link.kind ∧
    (periodExpiry s).link.progress = s.link.progress ∧ (periodExpiry s).link.answer = s.link.answer ∧
    (periodExpiry s).link.holdNext = s.link.holdNext ∧ (periodExpiry s).link.request = s.link.request ∧
    (periodExpiry s).link.session = s.link.session ∧
    (periodExpiry s).link.sessionTimer = s.link.sessionTimer ∧
    (periodExpiry s).win.attention = s.win.attention ∧ (periodExpiry s).win.enable = s.win.enable ∧
    (periodExpiry s).win.capture = s.win.capture ∧ (periodExpiry s).win.faultCount = s.win.faultCount ∧
    (periodExpiry s).win.softCause = s.win.softCause ∧ (periodExpiry s).win.source = s.win.source ∧
    (periodExpiry s).win.adoption = s.win.adoption ∧ (periodExpiry s).win.lastTake = s.win.lastTake ∧
    (periodExpiry s).win.sdo = s.win.sdo ∧ (periodExpiry s).image = s.image ∧
    (periodExpiry s).pending = s.pending := by
  simp only [periodExpiry]
  (repeat' split) <;> simp

@[simp] theorem periodWrite_frame (v : Byte) (s : State) :
    (periodWrite v s).time = s.time ∧ (periodWrite v s).sense = s.sense ∧
    (periodWrite v s).pulse = s.pulse ∧ (periodWrite v s).dist = s.dist ∧
    (periodWrite v s).analog = s.analog ∧ (periodWrite v s).door = s.door ∧
    (periodWrite v s).warn = s.warn ∧ (periodWrite v s).out.lamps = s.out.lamps ∧
    (periodWrite v s).out.arbiter = s.out.arbiter ∧ (periodWrite v s).out.test = s.out.test ∧
    (periodWrite v s).out.lastResult = s.out.lastResult ∧ (periodWrite v s).faults = s.faults ∧
    (periodWrite v s).store = s.store ∧ (periodWrite v s).link = s.link ∧
    (periodWrite v s).win.ram = s.win.ram ∧ (periodWrite v s).win.slots = s.win.slots ∧
    (periodWrite v s).win.attention = s.win.attention ∧ (periodWrite v s).win.claims = s.win.claims ∧
    (periodWrite v s).win.enable = s.win.enable ∧ (periodWrite v s).win.softCause = s.win.softCause ∧
    (periodWrite v s).win.source = s.win.source ∧ (periodWrite v s).win.ops = s.win.ops ∧
    (periodWrite v s).win.adoption = s.win.adoption ∧ (periodWrite v s).win.lastTake = s.win.lastTake ∧
    (periodWrite v s).win.sdo = s.win.sdo ∧ (periodWrite v s).image = s.image ∧
    (periodWrite v s).pending = s.pending := by
  simp only [periodWrite]
  (repeat' split) <;> simp

@[simp] theorem modeWrite_frame (v : Byte) (s : State) :
    (modeWrite v s).time = s.time ∧ (modeWrite v s).sense = s.sense ∧ (modeWrite v s).pulse = s.pulse ∧
    (modeWrite v s).dist = s.dist ∧ (modeWrite v s).analog = s.analog ∧ (modeWrite v s).door = s.door ∧
    (modeWrite v s).warn = s.warn ∧ (modeWrite v s).out.lamps = s.out.lamps ∧
    (modeWrite v s).out.arbiter = s.out.arbiter ∧ (modeWrite v s).out.test = s.out.test ∧
    (modeWrite v s).out.lastResult = s.out.lastResult ∧ (modeWrite v s).faults = s.faults ∧
    (modeWrite v s).store = s.store ∧ (modeWrite v s).link = s.link ∧ (modeWrite v s).win.ram = s.win.ram ∧
    (modeWrite v s).win.slots = s.win.slots ∧ (modeWrite v s).win.attention = s.win.attention ∧
    (modeWrite v s).win.claims = s.win.claims ∧ (modeWrite v s).win.enable = s.win.enable ∧
    (modeWrite v s).win.softCause = s.win.softCause ∧ (modeWrite v s).win.source = s.win.source ∧
    (modeWrite v s).win.ops = s.win.ops ∧ (modeWrite v s).win.adoption = s.win.adoption ∧
    (modeWrite v s).win.lastTake = s.win.lastTake ∧ (modeWrite v s).win.sdo = s.win.sdo ∧
    (modeWrite v s).image = s.image ∧ (modeWrite v s).pending = s.pending := by
  simp only [modeWrite]
  (repeat' split) <;> simp

@[simp] theorem supervisionOff_frame (s : State) :
    (supervisionOff s).time = s.time ∧ (supervisionOff s).sense = s.sense ∧
    (supervisionOff s).pulse = s.pulse ∧ (supervisionOff s).dist = s.dist ∧
    (supervisionOff s).analog = s.analog ∧ (supervisionOff s).door = s.door ∧
    (supervisionOff s).warn = s.warn ∧ (supervisionOff s).out.arbiter = s.out.arbiter ∧
    (supervisionOff s).out.test = s.out.test ∧ (supervisionOff s).out.lastResult = s.out.lastResult ∧
    (supervisionOff s).faults = s.faults ∧ (supervisionOff s).store = s.store ∧
    (supervisionOff s).link = s.link ∧ (supervisionOff s).win = s.win ∧
    (supervisionOff s).image = s.image ∧ (supervisionOff s).pending = s.pending := by
  simp only [supervisionOff]
  (repeat' split) <;> simp

@[simp] theorem tickPeriod_frame (s : State) :
    (tickPeriod s).time = s.time ∧ (tickPeriod s).sense = s.sense ∧ (tickPeriod s).pulse = s.pulse ∧
    (tickPeriod s).dist = s.dist ∧ (tickPeriod s).analog = s.analog ∧ (tickPeriod s).door = s.door ∧
    (tickPeriod s).warn = s.warn ∧ (tickPeriod s).out.lamps = s.out.lamps ∧
    (tickPeriod s).out.arbiter = s.out.arbiter ∧ (tickPeriod s).out.test = s.out.test ∧
    (tickPeriod s).out.lastResult = s.out.lastResult ∧ (tickPeriod s).faults = s.faults ∧
    (tickPeriod s).store = s.store ∧ (tickPeriod s).link = s.link ∧ (tickPeriod s).win = s.win ∧
    (tickPeriod s).image = s.image ∧ (tickPeriod s).pending = s.pending := by
  simp [tickPeriod]

@[simp] theorem hrstExpiry_frame (s : State) :
    (hrstExpiry s).time = s.time ∧ (hrstExpiry s).sense = s.sense ∧ (hrstExpiry s).pulse = s.pulse ∧
    (hrstExpiry s).dist = s.dist ∧ (hrstExpiry s).analog = s.analog ∧ (hrstExpiry s).door = s.door ∧
    (hrstExpiry s).warn = s.warn ∧ (hrstExpiry s).out.lamps = s.out.lamps ∧
    (hrstExpiry s).out.arbiter = s.out.arbiter ∧ (hrstExpiry s).out.test = s.out.test ∧
    (hrstExpiry s).out.lastResult = s.out.lastResult ∧ (hrstExpiry s).faults = s.faults ∧
    (hrstExpiry s).store = s.store ∧ (hrstExpiry s).link = s.link ∧ (hrstExpiry s).win = s.win ∧
    (hrstExpiry s).image = s.image ∧ (hrstExpiry s).pending = s.pending := by
  unfold hrstExpiry
  (repeat' split) <;> simp

/-! ## Fault Memory -/

@[simp] theorem setPlace_frame (i : Fin 40) (p : Place) (s : State) :
    (setPlace i p s).time = s.time ∧ (setPlace i p s).sense = s.sense ∧ (setPlace i p s).pulse = s.pulse ∧
    (setPlace i p s).dist = s.dist ∧ (setPlace i p s).analog = s.analog ∧ (setPlace i p s).door = s.door ∧
    (setPlace i p s).warn = s.warn ∧ (setPlace i p s).out = s.out ∧
    (setPlace i p s).faults.overflow = s.faults.overflow ∧ (setPlace i p s).faults.clear = s.faults.clear ∧
    (setPlace i p s).faults.viewEvents = s.faults.viewEvents ∧
    (setPlace i p s).store.array = s.store.array ∧ (setPlace i p s).store.job = s.store.job ∧
    (setPlace i p s).store.notRetained = s.store.notRetained ∧
    (setPlace i p s).store.configCount = s.store.configCount ∧ (setPlace i p s).link = s.link ∧
    (setPlace i p s).win = s.win ∧ (setPlace i p s).image = s.image ∧ (setPlace i p s).pending = s.pending := by
  unfold setPlace
  (repeat' split) <;> simp

@[simp] theorem headerJob_frame (b : State) (s : State) :
    (headerJob b s).time = s.time ∧ (headerJob b s).sense = s.sense ∧ (headerJob b s).pulse = s.pulse ∧
    (headerJob b s).dist = s.dist ∧ (headerJob b s).analog = s.analog ∧ (headerJob b s).door = s.door ∧
    (headerJob b s).warn = s.warn ∧ (headerJob b s).out = s.out ∧ (headerJob b s).faults = s.faults ∧
    (headerJob b s).store.array = s.store.array ∧ (headerJob b s).store.job = s.store.job ∧
    (headerJob b s).store.notRetained = s.store.notRetained ∧
    (headerJob b s).store.configCount = s.store.configCount ∧ (headerJob b s).link = s.link ∧
    (headerJob b s).win = s.win ∧ (headerJob b s).image = s.image ∧ (headerJob b s).pending = s.pending := by
  unfold headerJob
  (repeat' split) <;> simp

@[simp] theorem makeRecord_frame (c : Fin 48) (x : Byte) (s : State) :
    (makeRecord c x s).time = s.time ∧ (makeRecord c x s).sense = s.sense ∧
    (makeRecord c x s).pulse = s.pulse ∧ (makeRecord c x s).dist = s.dist ∧
    (makeRecord c x s).analog = s.analog ∧ (makeRecord c x s).door = s.door ∧
    (makeRecord c x s).warn = s.warn ∧ (makeRecord c x s).out = s.out ∧
    (makeRecord c x s).faults.clear = s.faults.clear ∧ (makeRecord c x s).store.array = s.store.array ∧
    (makeRecord c x s).store.job = s.store.job ∧
    (makeRecord c x s).store.notRetained = s.store.notRetained ∧
    (makeRecord c x s).store.configCount = s.store.configCount ∧ (makeRecord c x s).link = s.link ∧
    (makeRecord c x s).win = s.win ∧ (makeRecord c x s).image = s.image ∧
    (makeRecord c x s).pending = s.pending := by
  unfold makeRecord
  (repeat' split) <;> simp

@[simp] theorem takeOccurrence_frame (c : Fin 48) (x : Byte) (s : State) :
    (takeOccurrence c x s).time = s.time ∧ (takeOccurrence c x s).sense = s.sense ∧
    (takeOccurrence c x s).pulse = s.pulse ∧ (takeOccurrence c x s).dist = s.dist ∧
    (takeOccurrence c x s).analog = s.analog ∧ (takeOccurrence c x s).door = s.door ∧
    (takeOccurrence c x s).warn = s.warn ∧ (takeOccurrence c x s).out = s.out ∧
    (takeOccurrence c x s).faults.clear = s.faults.clear ∧
    (takeOccurrence c x s).store.array = s.store.array ∧ (takeOccurrence c x s).store.job = s.store.job ∧
    (takeOccurrence c x s).store.notRetained = s.store.notRetained ∧
    (takeOccurrence c x s).store.configCount = s.store.configCount ∧ (takeOccurrence c x s).link = s.link ∧
    (takeOccurrence c x s).win = s.win ∧ (takeOccurrence c x s).image = s.image ∧
    (takeOccurrence c x s).pending = s.pending := by
  unfold takeOccurrence
  (repeat' split) <;> simp

@[simp] theorem occurrence_frame (c : Fin 48) (x : Byte) (s : State) :
    (occurrence c x s).time = s.time ∧ (occurrence c x s).sense = s.sense ∧
    (occurrence c x s).pulse = s.pulse ∧ (occurrence c x s).dist = s.dist ∧
    (occurrence c x s).analog = s.analog ∧ (occurrence c x s).door = s.door ∧
    (occurrence c x s).warn = s.warn ∧ (occurrence c x s).out = s.out ∧
    (occurrence c x s).faults.clear = s.faults.clear ∧ (occurrence c x s).store.array = s.store.array ∧
    (occurrence c x s).store.job = s.store.job ∧
    (occurrence c x s).store.notRetained = s.store.notRetained ∧
    (occurrence c x s).store.configCount = s.store.configCount ∧ (occurrence c x s).link = s.link ∧
    (occurrence c x s).win = s.win ∧ (occurrence c x s).image = s.image ∧
    (occurrence c x s).pending = s.pending := by
  simp [occurrence]

@[simp] theorem returnInactive_frame (c : Fin 48) (s : State) :
    (returnInactive c s).time = s.time ∧ (returnInactive c s).sense = s.sense ∧
    (returnInactive c s).pulse = s.pulse ∧ (returnInactive c s).dist = s.dist ∧
    (returnInactive c s).analog = s.analog ∧ (returnInactive c s).door = s.door ∧
    (returnInactive c s).warn = s.warn ∧ (returnInactive c s).out = s.out ∧
    (returnInactive c s).faults.overflow = s.faults.overflow ∧
    (returnInactive c s).faults.clear = s.faults.clear ∧ (returnInactive c s).store.array = s.store.array ∧
    (returnInactive c s).store.job = s.store.job ∧
    (returnInactive c s).store.notRetained = s.store.notRetained ∧
    (returnInactive c s).store.configCount = s.store.configCount ∧ (returnInactive c s).link = s.link ∧
    (returnInactive c s).win = s.win ∧ (returnInactive c s).image = s.image ∧
    (returnInactive c s).pending = s.pending := by
  unfold returnInactive
  (repeat' split) <;> simp

@[simp] theorem agePlace_frame (i : Fin 40) (s : State) :
    (agePlace s i).time = s.time ∧ (agePlace s i).sense = s.sense ∧ (agePlace s i).pulse = s.pulse ∧
    (agePlace s i).dist = s.dist ∧ (agePlace s i).analog = s.analog ∧ (agePlace s i).door = s.door ∧
    (agePlace s i).warn = s.warn ∧ (agePlace s i).out = s.out ∧
    (agePlace s i).faults.overflow = s.faults.overflow ∧ (agePlace s i).faults.clear = s.faults.clear ∧
    (agePlace s i).store.array = s.store.array ∧ (agePlace s i).store.job = s.store.job ∧
    (agePlace s i).store.notRetained = s.store.notRetained ∧
    (agePlace s i).store.configCount = s.store.configCount ∧ (agePlace s i).link = s.link ∧
    (agePlace s i).win = s.win ∧ (agePlace s i).image = s.image ∧ (agePlace s i).pending = s.pending := by
  unfold agePlace
  (repeat' split) <;> simp

@[simp] theorem agePlaces_frame (l : List (Fin 40)) (s : State) :
    (l.foldl agePlace s).time = s.time ∧ (l.foldl agePlace s).sense = s.sense ∧
    (l.foldl agePlace s).pulse = s.pulse ∧ (l.foldl agePlace s).dist = s.dist ∧
    (l.foldl agePlace s).analog = s.analog ∧ (l.foldl agePlace s).door = s.door ∧
    (l.foldl agePlace s).warn = s.warn ∧ (l.foldl agePlace s).out = s.out ∧
    (l.foldl agePlace s).faults.overflow = s.faults.overflow ∧
    (l.foldl agePlace s).faults.clear = s.faults.clear ∧ (l.foldl agePlace s).store.array = s.store.array ∧
    (l.foldl agePlace s).store.job = s.store.job ∧
    (l.foldl agePlace s).store.notRetained = s.store.notRetained ∧
    (l.foldl agePlace s).store.configCount = s.store.configCount ∧ (l.foldl agePlace s).link = s.link ∧
    (l.foldl agePlace s).win = s.win ∧ (l.foldl agePlace s).image = s.image ∧
    (l.foldl agePlace s).pending = s.pending := by
  induction l generalizing s with
  | nil => simp
  | cons b l ih => simp [ih]

@[simp] theorem ageRecords_frame (s : State) :
    (ageRecords s).time = s.time ∧ (ageRecords s).sense = s.sense ∧ (ageRecords s).pulse = s.pulse ∧
    (ageRecords s).dist = s.dist ∧ (ageRecords s).analog = s.analog ∧ (ageRecords s).door = s.door ∧
    (ageRecords s).warn = s.warn ∧ (ageRecords s).out = s.out ∧
    (ageRecords s).faults.overflow = s.faults.overflow ∧ (ageRecords s).faults.clear = s.faults.clear ∧
    (ageRecords s).store.array = s.store.array ∧ (ageRecords s).store.job = s.store.job ∧
    (ageRecords s).store.notRetained = s.store.notRetained ∧
    (ageRecords s).store.configCount = s.store.configCount ∧ (ageRecords s).link = s.link ∧
    (ageRecords s).win = s.win ∧ (ageRecords s).image = s.image ∧ (ageRecords s).pending = s.pending := by
  simp [ageRecords]

@[simp] theorem erasePlace_frame (i : Fin 40) (s : State) :
    (erasePlace s i).time = s.time ∧ (erasePlace s i).sense = s.sense ∧ (erasePlace s i).pulse = s.pulse ∧
    (erasePlace s i).dist = s.dist ∧ (erasePlace s i).analog = s.analog ∧ (erasePlace s i).door = s.door ∧
    (erasePlace s i).warn = s.warn ∧ (erasePlace s i).out = s.out ∧
    (erasePlace s i).faults.overflow = s.faults.overflow ∧ (erasePlace s i).faults.clear = s.faults.clear ∧
    (erasePlace s i).faults.viewEvents = s.faults.viewEvents ∧
    (erasePlace s i).store.array = s.store.array ∧ (erasePlace s i).store.job = s.store.job ∧
    (erasePlace s i).store.notRetained = s.store.notRetained ∧
    (erasePlace s i).store.configCount = s.store.configCount ∧ (erasePlace s i).link = s.link ∧
    (erasePlace s i).win = s.win ∧ (erasePlace s i).image = s.image ∧ (erasePlace s i).pending = s.pending := by
  unfold erasePlace
  (repeat' split) <;> simp

@[simp] theorem reenterWarning_frame (x : Option (Fin 48)) (w : Fin 48) (s : State) :
    (reenterWarning x s w).time = s.time ∧ (reenterWarning x s w).sense = s.sense ∧
    (reenterWarning x s w).pulse = s.pulse ∧ (reenterWarning x s w).dist = s.dist ∧
    (reenterWarning x s w).analog = s.analog ∧ (reenterWarning x s w).door = s.door ∧
    (reenterWarning x s w).warn = s.warn ∧ (reenterWarning x s w).out = s.out ∧
    (reenterWarning x s w).faults.clear = s.faults.clear ∧
    (reenterWarning x s w).store.array = s.store.array ∧ (reenterWarning x s w).store.job = s.store.job ∧
    (reenterWarning x s w).store.notRetained = s.store.notRetained ∧
    (reenterWarning x s w).store.configCount = s.store.configCount ∧ (reenterWarning x s w).link = s.link ∧
    (reenterWarning x s w).win = s.win ∧ (reenterWarning x s w).image = s.image ∧
    (reenterWarning x s w).pending = s.pending := by
  simp only [reenterWarning]
  (repeat' split) <;> simp

@[simp] theorem reenterWarnings_frame (x : Option (Fin 48)) (l : List (Fin 48)) (s : State) :
    (l.foldl (reenterWarning x) s).time = s.time ∧ (l.foldl (reenterWarning x) s).sense = s.sense ∧
    (l.foldl (reenterWarning x) s).pulse = s.pulse ∧ (l.foldl (reenterWarning x) s).dist = s.dist ∧
    (l.foldl (reenterWarning x) s).analog = s.analog ∧ (l.foldl (reenterWarning x) s).door = s.door ∧
    (l.foldl (reenterWarning x) s).warn = s.warn ∧ (l.foldl (reenterWarning x) s).out = s.out ∧
    (l.foldl (reenterWarning x) s).faults.clear = s.faults.clear ∧
    (l.foldl (reenterWarning x) s).store.array = s.store.array ∧
    (l.foldl (reenterWarning x) s).store.job = s.store.job ∧
    (l.foldl (reenterWarning x) s).store.notRetained = s.store.notRetained ∧
    (l.foldl (reenterWarning x) s).store.configCount = s.store.configCount ∧
    (l.foldl (reenterWarning x) s).link = s.link ∧ (l.foldl (reenterWarning x) s).win = s.win ∧
    (l.foldl (reenterWarning x) s).image = s.image ∧ (l.foldl (reenterWarning x) s).pending = s.pending := by
  induction l generalizing s with
  | nil => simp
  | cons b l ih => simp [ih]

@[simp] theorem reenter_frame (x : Option (Fin 48)) (s : State) :
    (reenter x s).time = s.time ∧ (reenter x s).sense = s.sense ∧ (reenter x s).pulse = s.pulse ∧
    (reenter x s).dist = s.dist ∧ (reenter x s).analog = s.analog ∧ (reenter x s).door = s.door ∧
    (reenter x s).warn = s.warn ∧ (reenter x s).out = s.out ∧ (reenter x s).faults.clear = s.faults.clear ∧
    (reenter x s).store.array = s.store.array ∧ (reenter x s).store.job = s.store.job ∧
    (reenter x s).store.notRetained = s.store.notRetained ∧
    (reenter x s).store.configCount = s.store.configCount ∧ (reenter x s).link = s.link ∧
    (reenter x s).win = s.win ∧ (reenter x s).image = s.image ∧ (reenter x s).pending = s.pending := by
  simp [reenter]

@[simp] theorem freeErased_frame (o : Object) (s : State) :
    (freeErased o s).time = s.time ∧ (freeErased o s).sense = s.sense ∧ (freeErased o s).pulse = s.pulse ∧
    (freeErased o s).dist = s.dist ∧ (freeErased o s).analog = s.analog ∧ (freeErased o s).door = s.door ∧
    (freeErased o s).warn = s.warn ∧ (freeErased o s).out = s.out ∧
    (freeErased o s).faults.overflow = s.faults.overflow ∧ (freeErased o s).faults.clear = s.faults.clear ∧
    (freeErased o s).store = s.store ∧ (freeErased o s).link = s.link ∧ (freeErased o s).win = s.win ∧
    (freeErased o s).image = s.image ∧ (freeErased o s).pending = s.pending := by
  unfold freeErased
  (repeat' split) <;> simp

@[simp] theorem takeEmptyClear_frame (c : Option (Fin 48)) (s : State) :
    (takeEmptyClear c s).time = s.time ∧ (takeEmptyClear c s).sense = s.sense ∧
    (takeEmptyClear c s).pulse = s.pulse ∧ (takeEmptyClear c s).dist = s.dist ∧
    (takeEmptyClear c s).analog = s.analog ∧ (takeEmptyClear c s).door = s.door ∧
    (takeEmptyClear c s).warn = s.warn ∧ (takeEmptyClear c s).out = s.out ∧
    (takeEmptyClear c s).faults.clear = s.faults.clear ∧ (takeEmptyClear c s).store.array = s.store.array ∧
    (takeEmptyClear c s).store.job = s.store.job ∧
    (takeEmptyClear c s).store.notRetained = s.store.notRetained ∧
    (takeEmptyClear c s).store.configCount = s.store.configCount ∧ (takeEmptyClear c s).link = s.link ∧
    (takeEmptyClear c s).win = s.win ∧ (takeEmptyClear c s).image = s.image ∧
    (takeEmptyClear c s).pending = s.pending := by
  simp [takeEmptyClear]

@[simp] theorem erasePlaces_frame (l : List (Fin 40)) (s : State) :
    (l.foldl erasePlace s).time = s.time ∧ (l.foldl erasePlace s).sense = s.sense ∧
    (l.foldl erasePlace s).pulse = s.pulse ∧ (l.foldl erasePlace s).dist = s.dist ∧
    (l.foldl erasePlace s).analog = s.analog ∧ (l.foldl erasePlace s).door = s.door ∧
    (l.foldl erasePlace s).warn = s.warn ∧ (l.foldl erasePlace s).out = s.out ∧
    (l.foldl erasePlace s).faults.overflow = s.faults.overflow ∧
    (l.foldl erasePlace s).faults.clear = s.faults.clear ∧
    (l.foldl erasePlace s).faults.viewEvents = s.faults.viewEvents ∧
    (l.foldl erasePlace s).store.array = s.store.array ∧ (l.foldl erasePlace s).store.job = s.store.job ∧
    (l.foldl erasePlace s).store.notRetained = s.store.notRetained ∧
    (l.foldl erasePlace s).store.configCount = s.store.configCount ∧ (l.foldl erasePlace s).link = s.link ∧
    (l.foldl erasePlace s).win = s.win ∧ (l.foldl erasePlace s).image = s.image ∧
    (l.foldl erasePlace s).pending = s.pending := by
  induction l generalizing s with
  | nil => simp
  | cons b l ih => simp [ih]

@[simp] theorem takeClear_frame (x : Side) (c : Option (Fin 48)) (s : State) :
    (takeClear x c s).time = s.time ∧ (takeClear x c s).sense = s.sense ∧
    (takeClear x c s).pulse = s.pulse ∧ (takeClear x c s).dist = s.dist ∧
    (takeClear x c s).analog = s.analog ∧ (takeClear x c s).door = s.door ∧
    (takeClear x c s).warn = s.warn ∧ (takeClear x c s).out = s.out ∧
    (takeClear x c s).store.array = s.store.array ∧ (takeClear x c s).store.job = s.store.job ∧
    (takeClear x c s).store.notRetained = s.store.notRetained ∧
    (takeClear x c s).store.configCount = s.store.configCount ∧ (takeClear x c s).link = s.link ∧
    (takeClear x c s).win = s.win ∧ (takeClear x c s).image = s.image ∧
    (takeClear x c s).pending = s.pending := by
  simp only [takeClear]
  (repeat' split) <;> simp

@[simp] theorem clearJobEnd_frame (o : Object) (b : Bool) (s : State) :
    (clearJobEnd o b s).time = s.time ∧ (clearJobEnd o b s).sense = s.sense ∧
    (clearJobEnd o b s).pulse = s.pulse ∧ (clearJobEnd o b s).dist = s.dist ∧
    (clearJobEnd o b s).analog = s.analog ∧ (clearJobEnd o b s).door = s.door ∧
    (clearJobEnd o b s).warn = s.warn ∧ (clearJobEnd o b s).out = s.out ∧
    (clearJobEnd o b s).store.array = s.store.array ∧ (clearJobEnd o b s).store.job = s.store.job ∧
    (clearJobEnd o b s).store.notRetained = s.store.notRetained ∧
    (clearJobEnd o b s).store.configCount = s.store.configCount ∧
    (clearJobEnd o b s).link.inFrame = s.link.inFrame ∧ (clearJobEnd o b s).link.counter = s.link.counter ∧
    (clearJobEnd o b s).link.shift = s.link.shift ∧ (clearJobEnd o b s).link.kind = s.link.kind ∧
    (clearJobEnd o b s).link.progress = s.link.progress ∧ (clearJobEnd o b s).link.answer = s.link.answer ∧
    (clearJobEnd o b s).link.holdNext = s.link.holdNext ∧
    (clearJobEnd o b s).link.request = s.link.request ∧ (clearJobEnd o b s).link.session = s.link.session ∧
    (clearJobEnd o b s).link.sessionTimer = s.link.sessionTimer ∧
    (clearJobEnd o b s).win.attention = s.win.attention ∧ (clearJobEnd o b s).win.claims = s.win.claims ∧
    (clearJobEnd o b s).win.enable = s.win.enable ∧ (clearJobEnd o b s).win.capture = s.win.capture ∧
    (clearJobEnd o b s).win.faultCount = s.win.faultCount ∧
    (clearJobEnd o b s).win.softCause = s.win.softCause ∧ (clearJobEnd o b s).win.source = s.win.source ∧
    (clearJobEnd o b s).win.adoption = s.win.adoption ∧ (clearJobEnd o b s).win.lastTake = s.win.lastTake ∧
    (clearJobEnd o b s).win.sdo = s.win.sdo ∧ (clearJobEnd o b s).image = s.image ∧
    (clearJobEnd o b s).pending = s.pending := by
  simp only [clearJobEnd]
  (repeat' split) <;> simp

/-! ## Warning Unit -/

@[simp] theorem enterList_frame (w : Fin 48) (s : State) :
    (enterList w s).time = s.time ∧ (enterList w s).sense = s.sense ∧ (enterList w s).pulse = s.pulse ∧
    (enterList w s).dist = s.dist ∧ (enterList w s).analog = s.analog ∧ (enterList w s).door = s.door ∧
    (enterList w s).warn.handed = s.warn.handed ∧ (enterList w s).out = s.out ∧
    (enterList w s).faults = s.faults ∧ (enterList w s).store = s.store ∧ (enterList w s).link = s.link ∧
    (enterList w s).win = s.win ∧ (enterList w s).image = s.image ∧ (enterList w s).pending = s.pending := by
  simp [enterList]

@[simp] theorem onsetBuzz_frame (d : WarningDef) (s : State) :
    (onsetBuzz d s).time = s.time ∧ (onsetBuzz d s).sense = s.sense ∧ (onsetBuzz d s).pulse = s.pulse ∧
    (onsetBuzz d s).dist = s.dist ∧ (onsetBuzz d s).analog = s.analog ∧ (onsetBuzz d s).door = s.door ∧
    (onsetBuzz d s).warn = s.warn ∧ (onsetBuzz d s).out.lamps = s.out.lamps ∧
    (onsetBuzz d s).out.test = s.out.test ∧ (onsetBuzz d s).out.lastResult = s.out.lastResult ∧
    (onsetBuzz d s).out.supervision = s.out.supervision ∧ (onsetBuzz d s).faults = s.faults ∧
    (onsetBuzz d s).store = s.store ∧ (onsetBuzz d s).link = s.link ∧ (onsetBuzz d s).win = s.win ∧
    (onsetBuzz d s).image = s.image ∧ (onsetBuzz d s).pending = s.pending := by
  unfold onsetBuzz
  (repeat' split) <;> simp

@[simp] theorem onset_frame (w : Fin 48) (s : State) :
    (onset w s).time = s.time ∧ (onset w s).sense = s.sense ∧ (onset w s).pulse = s.pulse ∧
    (onset w s).dist = s.dist ∧ (onset w s).analog = s.analog ∧ (onset w s).door = s.door ∧
    (onset w s).warn.handed = s.warn.handed ∧ (onset w s).out.supervision = s.out.supervision ∧
    (onset w s).faults.clear = s.faults.clear ∧ (onset w s).store.array = s.store.array ∧
    (onset w s).store.job = s.store.job ∧ (onset w s).store.notRetained = s.store.notRetained ∧
    (onset w s).store.configCount = s.store.configCount ∧ (onset w s).link.inFrame = s.link.inFrame ∧
    (onset w s).link.counter = s.link.counter ∧ (onset w s).link.shift = s.link.shift ∧
    (onset w s).link.kind = s.link.kind ∧ (onset w s).link.progress = s.link.progress ∧
    (onset w s).link.answer = s.link.answer ∧ (onset w s).link.holdNext = s.link.holdNext ∧
    (onset w s).link.request = s.link.request ∧ (onset w s).link.session = s.link.session ∧
    (onset w s).link.sessionTimer = s.link.sessionTimer ∧ (onset w s).win.attention = s.win.attention ∧
    (onset w s).win.claims = s.win.claims ∧ (onset w s).win.enable = s.win.enable ∧
    (onset w s).win.capture = s.win.capture ∧ (onset w s).win.faultCount = s.win.faultCount ∧
    (onset w s).win.softCause = s.win.softCause ∧ (onset w s).win.source = s.win.source ∧
    (onset w s).win.adoption = s.win.adoption ∧ (onset w s).win.lastTake = s.win.lastTake ∧
    (onset w s).win.sdo = s.win.sdo ∧ (onset w s).image = s.image ∧ (onset w s).pending = s.pending := by
  simp only [onset]
  (repeat' split) <;> simp

@[simp] theorem leaveList_frame (w : Fin 48) (s : State) :
    (leaveList w s).time = s.time ∧ (leaveList w s).sense = s.sense ∧ (leaveList w s).pulse = s.pulse ∧
    (leaveList w s).dist = s.dist ∧ (leaveList w s).analog = s.analog ∧ (leaveList w s).door = s.door ∧
    (leaveList w s).warn.nextNumber = s.warn.nextNumber ∧ (leaveList w s).warn.handed = s.warn.handed ∧
    (leaveList w s).out.lamps = s.out.lamps ∧ (leaveList w s).out.test = s.out.test ∧
    (leaveList w s).out.lastResult = s.out.lastResult ∧
    (leaveList w s).out.supervision = s.out.supervision ∧
    (leaveList w s).faults.overflow = s.faults.overflow ∧ (leaveList w s).faults.clear = s.faults.clear ∧
    (leaveList w s).store.array = s.store.array ∧ (leaveList w s).store.job = s.store.job ∧
    (leaveList w s).store.notRetained = s.store.notRetained ∧
    (leaveList w s).store.configCount = s.store.configCount ∧ (leaveList w s).link = s.link ∧
    (leaveList w s).win = s.win ∧ (leaveList w s).image = s.image ∧ (leaveList w s).pending = s.pending := by
  simp only [leaveList]
  (repeat' split) <;> simp

@[simp] theorem restate_frame (w : Fin 48) (x : WarnState) (s : State) :
    (restate w x s).time = s.time ∧ (restate w x s).sense = s.sense ∧ (restate w x s).pulse = s.pulse ∧
    (restate w x s).dist = s.dist ∧ (restate w x s).analog = s.analog ∧ (restate w x s).door = s.door ∧
    (restate w x s).warn.nextNumber = s.warn.nextNumber ∧ (restate w x s).warn.list = s.warn.list ∧
    (restate w x s).warn.handed = s.warn.handed ∧ (restate w x s).out.lamps = s.out.lamps ∧
    (restate w x s).out.test = s.out.test ∧ (restate w x s).out.lastResult = s.out.lastResult ∧
    (restate w x s).out.supervision = s.out.supervision ∧ (restate w x s).faults = s.faults ∧
    (restate w x s).store = s.store ∧ (restate w x s).link = s.link ∧ (restate w x s).win = s.win ∧
    (restate w x s).image = s.image ∧ (restate w x s).pending = s.pending := by
  simp [restate]

@[simp] theorem moveWarning_frame (w : Fin 48) (d : WarningDef) (c : Bool) (s : State) :
    (moveWarning w d c s).time = s.time ∧ (moveWarning w d c s).sense = s.sense ∧
    (moveWarning w d c s).pulse = s.pulse ∧ (moveWarning w d c s).dist = s.dist ∧
    (moveWarning w d c s).analog = s.analog ∧ (moveWarning w d c s).door = s.door ∧
    (moveWarning w d c s).warn.handed = s.warn.handed ∧
    (moveWarning w d c s).out.supervision = s.out.supervision ∧
    (moveWarning w d c s).faults.clear = s.faults.clear ∧
    (moveWarning w d c s).store.array = s.store.array ∧ (moveWarning w d c s).store.job = s.store.job ∧
    (moveWarning w d c s).store.notRetained = s.store.notRetained ∧
    (moveWarning w d c s).store.configCount = s.store.configCount ∧
    (moveWarning w d c s).link.inFrame = s.link.inFrame ∧
    (moveWarning w d c s).link.counter = s.link.counter ∧ (moveWarning w d c s).link.shift = s.link.shift ∧
    (moveWarning w d c s).link.kind = s.link.kind ∧ (moveWarning w d c s).link.progress = s.link.progress ∧
    (moveWarning w d c s).link.answer = s.link.answer ∧
    (moveWarning w d c s).link.holdNext = s.link.holdNext ∧
    (moveWarning w d c s).link.request = s.link.request ∧
    (moveWarning w d c s).link.session = s.link.session ∧
    (moveWarning w d c s).link.sessionTimer = s.link.sessionTimer ∧
    (moveWarning w d c s).win.attention = s.win.attention ∧
    (moveWarning w d c s).win.claims = s.win.claims ∧ (moveWarning w d c s).win.enable = s.win.enable ∧
    (moveWarning w d c s).win.capture = s.win.capture ∧
    (moveWarning w d c s).win.faultCount = s.win.faultCount ∧
    (moveWarning w d c s).win.softCause = s.win.softCause ∧
    (moveWarning w d c s).win.source = s.win.source ∧ (moveWarning w d c s).win.adoption = s.win.adoption ∧
    (moveWarning w d c s).win.lastTake = s.win.lastTake ∧ (moveWarning w d c s).win.sdo = s.win.sdo ∧
    (moveWarning w d c s).image = s.image ∧ (moveWarning w d c s).pending = s.pending := by
  simp only [moveWarning]
  (repeat' split) <;> simp

@[simp] theorem judgeWarning_frame (w : Fin 48) (s : State) :
    (judgeWarning s w).time = s.time ∧ (judgeWarning s w).sense = s.sense ∧
    (judgeWarning s w).pulse = s.pulse ∧ (judgeWarning s w).dist = s.dist ∧
    (judgeWarning s w).analog = s.analog ∧ (judgeWarning s w).door = s.door ∧
    (judgeWarning s w).warn.handed = s.warn.handed ∧
    (judgeWarning s w).out.supervision = s.out.supervision ∧
    (judgeWarning s w).faults.clear = s.faults.clear ∧ (judgeWarning s w).store.array = s.store.array ∧
    (judgeWarning s w).store.job = s.store.job ∧
    (judgeWarning s w).store.notRetained = s.store.notRetained ∧
    (judgeWarning s w).store.configCount = s.store.configCount ∧
    (judgeWarning s w).link.inFrame = s.link.inFrame ∧ (judgeWarning s w).link.counter = s.link.counter ∧
    (judgeWarning s w).link.shift = s.link.shift ∧ (judgeWarning s w).link.kind = s.link.kind ∧
    (judgeWarning s w).link.progress = s.link.progress ∧ (judgeWarning s w).link.answer = s.link.answer ∧
    (judgeWarning s w).link.holdNext = s.link.holdNext ∧ (judgeWarning s w).link.request = s.link.request ∧
    (judgeWarning s w).link.session = s.link.session ∧
    (judgeWarning s w).link.sessionTimer = s.link.sessionTimer ∧
    (judgeWarning s w).win.attention = s.win.attention ∧ (judgeWarning s w).win.claims = s.win.claims ∧
    (judgeWarning s w).win.enable = s.win.enable ∧ (judgeWarning s w).win.capture = s.win.capture ∧
    (judgeWarning s w).win.faultCount = s.win.faultCount ∧
    (judgeWarning s w).win.softCause = s.win.softCause ∧ (judgeWarning s w).win.source = s.win.source ∧
    (judgeWarning s w).win.adoption = s.win.adoption ∧ (judgeWarning s w).win.lastTake = s.win.lastTake ∧
    (judgeWarning s w).win.sdo = s.win.sdo ∧ (judgeWarning s w).image = s.image ∧
    (judgeWarning s w).pending = s.pending := by
  simp only [judgeWarning]
  (repeat' split) <;> simp

@[simp] theorem judgeWarnings_frame (l : List (Fin 48)) (s : State) :
    (l.foldl judgeWarning s).time = s.time ∧ (l.foldl judgeWarning s).sense = s.sense ∧
    (l.foldl judgeWarning s).pulse = s.pulse ∧ (l.foldl judgeWarning s).dist = s.dist ∧
    (l.foldl judgeWarning s).analog = s.analog ∧ (l.foldl judgeWarning s).door = s.door ∧
    (l.foldl judgeWarning s).warn.handed = s.warn.handed ∧
    (l.foldl judgeWarning s).out.supervision = s.out.supervision ∧
    (l.foldl judgeWarning s).faults.clear = s.faults.clear ∧
    (l.foldl judgeWarning s).store.array = s.store.array ∧
    (l.foldl judgeWarning s).store.job = s.store.job ∧
    (l.foldl judgeWarning s).store.notRetained = s.store.notRetained ∧
    (l.foldl judgeWarning s).store.configCount = s.store.configCount ∧
    (l.foldl judgeWarning s).link.inFrame = s.link.inFrame ∧
    (l.foldl judgeWarning s).link.counter = s.link.counter ∧
    (l.foldl judgeWarning s).link.shift = s.link.shift ∧ (l.foldl judgeWarning s).link.kind = s.link.kind ∧
    (l.foldl judgeWarning s).link.progress = s.link.progress ∧
    (l.foldl judgeWarning s).link.answer = s.link.answer ∧
    (l.foldl judgeWarning s).link.holdNext = s.link.holdNext ∧
    (l.foldl judgeWarning s).link.request = s.link.request ∧
    (l.foldl judgeWarning s).link.session = s.link.session ∧
    (l.foldl judgeWarning s).link.sessionTimer = s.link.sessionTimer ∧
    (l.foldl judgeWarning s).win.attention = s.win.attention ∧
    (l.foldl judgeWarning s).win.claims = s.win.claims ∧
    (l.foldl judgeWarning s).win.enable = s.win.enable ∧
    (l.foldl judgeWarning s).win.capture = s.win.capture ∧
    (l.foldl judgeWarning s).win.faultCount = s.win.faultCount ∧
    (l.foldl judgeWarning s).win.softCause = s.win.softCause ∧
    (l.foldl judgeWarning s).win.source = s.win.source ∧
    (l.foldl judgeWarning s).win.adoption = s.win.adoption ∧
    (l.foldl judgeWarning s).win.lastTake = s.win.lastTake ∧ (l.foldl judgeWarning s).win.sdo = s.win.sdo ∧
    (l.foldl judgeWarning s).image = s.image ∧ (l.foldl judgeWarning s).pending = s.pending := by
  induction l generalizing s with
  | nil => simp
  | cons b l ih => simp [ih]

@[simp] theorem judgeAll_frame (s : State) :
    (judgeAll s).time = s.time ∧ (judgeAll s).sense = s.sense ∧ (judgeAll s).pulse = s.pulse ∧
    (judgeAll s).dist = s.dist ∧ (judgeAll s).analog = s.analog ∧ (judgeAll s).door = s.door ∧
    (judgeAll s).warn.handed = s.warn.handed ∧ (judgeAll s).out.supervision = s.out.supervision ∧
    (judgeAll s).faults.clear = s.faults.clear ∧ (judgeAll s).store.array = s.store.array ∧
    (judgeAll s).store.job = s.store.job ∧ (judgeAll s).store.notRetained = s.store.notRetained ∧
    (judgeAll s).store.configCount = s.store.configCount ∧ (judgeAll s).link.inFrame = s.link.inFrame ∧
    (judgeAll s).link.counter = s.link.counter ∧ (judgeAll s).link.shift = s.link.shift ∧
    (judgeAll s).link.kind = s.link.kind ∧ (judgeAll s).link.progress = s.link.progress ∧
    (judgeAll s).link.answer = s.link.answer ∧ (judgeAll s).link.holdNext = s.link.holdNext ∧
    (judgeAll s).link.request = s.link.request ∧ (judgeAll s).link.session = s.link.session ∧
    (judgeAll s).link.sessionTimer = s.link.sessionTimer ∧ (judgeAll s).win.attention = s.win.attention ∧
    (judgeAll s).win.claims = s.win.claims ∧ (judgeAll s).win.enable = s.win.enable ∧
    (judgeAll s).win.capture = s.win.capture ∧ (judgeAll s).win.faultCount = s.win.faultCount ∧
    (judgeAll s).win.softCause = s.win.softCause ∧ (judgeAll s).win.source = s.win.source ∧
    (judgeAll s).win.adoption = s.win.adoption ∧ (judgeAll s).win.lastTake = s.win.lastTake ∧
    (judgeAll s).win.sdo = s.win.sdo ∧ (judgeAll s).image = s.image ∧ (judgeAll s).pending = s.pending := by
  simp [judgeAll]

@[simp] theorem finish_frame (b : State) (s : State) :
    (finish b s).time = s.time ∧ (finish b s).sense = s.sense ∧ (finish b s).pulse = s.pulse ∧
    (finish b s).dist = s.dist ∧ (finish b s).analog = s.analog ∧ (finish b s).door = s.door ∧
    (finish b s).warn.handed = s.warn.handed ∧ (finish b s).out.supervision = s.out.supervision ∧
    (finish b s).faults.clear = s.faults.clear ∧ (finish b s).store.array = s.store.array ∧
    (finish b s).store.job = s.store.job ∧ (finish b s).store.notRetained = s.store.notRetained ∧
    (finish b s).store.configCount = s.store.configCount ∧ (finish b s).link.inFrame = s.link.inFrame ∧
    (finish b s).link.counter = s.link.counter ∧ (finish b s).link.shift = s.link.shift ∧
    (finish b s).link.kind = s.link.kind ∧ (finish b s).link.progress = s.link.progress ∧
    (finish b s).link.answer = s.link.answer ∧ (finish b s).link.holdNext = s.link.holdNext ∧
    (finish b s).link.request = s.link.request ∧ (finish b s).link.session = s.link.session ∧
    (finish b s).link.sessionTimer = s.link.sessionTimer ∧ (finish b s).win.attention = s.win.attention ∧
    (finish b s).win.claims = s.win.claims ∧ (finish b s).win.enable = s.win.enable ∧
    (finish b s).win.capture = s.win.capture ∧ (finish b s).win.faultCount = s.win.faultCount ∧
    (finish b s).win.softCause = s.win.softCause ∧ (finish b s).win.source = s.win.source ∧
    (finish b s).win.adoption = s.win.adoption ∧ (finish b s).win.lastTake = s.win.lastTake ∧
    (finish b s).win.sdo = s.win.sdo ∧ (finish b s).image = s.image ∧ (finish b s).pending = s.pending := by
  simp [finish]

@[simp] theorem settle_frame (c : Bool) (b : State) (s : State) :
    (settle c b s).time = s.time ∧ (settle c b s).sense = s.sense ∧ (settle c b s).pulse = s.pulse ∧
    (settle c b s).dist = s.dist ∧ (settle c b s).analog = s.analog ∧ (settle c b s).door = s.door ∧
    (settle c b s).warn.handed = s.warn.handed ∧ (settle c b s).out.supervision = s.out.supervision ∧
    (settle c b s).faults.clear = s.faults.clear ∧ (settle c b s).store.array = s.store.array ∧
    (settle c b s).store.job = s.store.job ∧ (settle c b s).store.notRetained = s.store.notRetained ∧
    (settle c b s).store.configCount = s.store.configCount ∧ (settle c b s).link.inFrame = s.link.inFrame ∧
    (settle c b s).link.counter = s.link.counter ∧ (settle c b s).link.shift = s.link.shift ∧
    (settle c b s).link.kind = s.link.kind ∧ (settle c b s).link.progress = s.link.progress ∧
    (settle c b s).link.answer = s.link.answer ∧ (settle c b s).link.holdNext = s.link.holdNext ∧
    (settle c b s).link.request = s.link.request ∧ (settle c b s).link.session = s.link.session ∧
    (settle c b s).link.sessionTimer = s.link.sessionTimer ∧
    (settle c b s).win.attention = s.win.attention ∧ (settle c b s).win.claims = s.win.claims ∧
    (settle c b s).win.enable = s.win.enable ∧ (settle c b s).win.capture = s.win.capture ∧
    (settle c b s).win.faultCount = s.win.faultCount ∧ (settle c b s).win.softCause = s.win.softCause ∧
    (settle c b s).win.source = s.win.source ∧ (settle c b s).win.adoption = s.win.adoption ∧
    (settle c b s).win.lastTake = s.win.lastTake ∧ (settle c b s).win.sdo = s.win.sdo ∧
    (settle c b s).image = s.image ∧ (settle c b s).pending = s.pending := by
  unfold settle
  (repeat' split) <;> simp

@[simp] theorem judgeGauges_frame (s : State) :
    (judgeGauges s).time = s.time ∧ (judgeGauges s).sense = s.sense ∧ (judgeGauges s).pulse = s.pulse ∧
    (judgeGauges s).dist = s.dist ∧ (judgeGauges s).analog = s.analog ∧ (judgeGauges s).door = s.door ∧
    (judgeGauges s).warn.nextNumber = s.warn.nextNumber ∧ (judgeGauges s).warn.list = s.warn.list ∧
    (judgeGauges s).warn.handed = s.warn.handed ∧ (judgeGauges s).out = s.out ∧
    (judgeGauges s).faults = s.faults ∧ (judgeGauges s).store = s.store ∧ (judgeGauges s).link = s.link ∧
    (judgeGauges s).win = s.win ∧ (judgeGauges s).image = s.image ∧ (judgeGauges s).pending = s.pending := by
  simp [judgeGauges]

@[simp] theorem onsetExpiry_frame (w : Fin 48) (s : State) :
    (onsetExpiry w s).time = s.time ∧ (onsetExpiry w s).sense = s.sense ∧
    (onsetExpiry w s).pulse = s.pulse ∧ (onsetExpiry w s).dist = s.dist ∧
    (onsetExpiry w s).analog = s.analog ∧ (onsetExpiry w s).door = s.door ∧
    (onsetExpiry w s).warn.handed = s.warn.handed ∧ (onsetExpiry w s).out.supervision = s.out.supervision ∧
    (onsetExpiry w s).faults.clear = s.faults.clear ∧ (onsetExpiry w s).store.array = s.store.array ∧
    (onsetExpiry w s).store.job = s.store.job ∧ (onsetExpiry w s).store.notRetained = s.store.notRetained ∧
    (onsetExpiry w s).store.configCount = s.store.configCount ∧
    (onsetExpiry w s).link.inFrame = s.link.inFrame ∧ (onsetExpiry w s).link.counter = s.link.counter ∧
    (onsetExpiry w s).link.shift = s.link.shift ∧ (onsetExpiry w s).link.kind = s.link.kind ∧
    (onsetExpiry w s).link.progress = s.link.progress ∧ (onsetExpiry w s).link.answer = s.link.answer ∧
    (onsetExpiry w s).link.holdNext = s.link.holdNext ∧ (onsetExpiry w s).link.request = s.link.request ∧
    (onsetExpiry w s).link.session = s.link.session ∧
    (onsetExpiry w s).link.sessionTimer = s.link.sessionTimer ∧
    (onsetExpiry w s).win.attention = s.win.attention ∧ (onsetExpiry w s).win.claims = s.win.claims ∧
    (onsetExpiry w s).win.enable = s.win.enable ∧ (onsetExpiry w s).win.capture = s.win.capture ∧
    (onsetExpiry w s).win.faultCount = s.win.faultCount ∧
    (onsetExpiry w s).win.softCause = s.win.softCause ∧ (onsetExpiry w s).win.source = s.win.source ∧
    (onsetExpiry w s).win.adoption = s.win.adoption ∧ (onsetExpiry w s).win.lastTake = s.win.lastTake ∧
    (onsetExpiry w s).win.sdo = s.win.sdo ∧ (onsetExpiry w s).image = s.image ∧
    (onsetExpiry w s).pending = s.pending := by
  simp only [onsetExpiry]
  (repeat' split) <;> simp

@[simp] theorem acknowledge_frame (w : Fin 48) (s : State) :
    (acknowledge s w).time = s.time ∧ (acknowledge s w).sense = s.sense ∧
    (acknowledge s w).pulse = s.pulse ∧ (acknowledge s w).dist = s.dist ∧
    (acknowledge s w).analog = s.analog ∧ (acknowledge s w).door = s.door ∧
    (acknowledge s w).warn.nextNumber = s.warn.nextNumber ∧ (acknowledge s w).warn.handed = s.warn.handed ∧
    (acknowledge s w).out.lamps = s.out.lamps ∧ (acknowledge s w).out.test = s.out.test ∧
    (acknowledge s w).out.lastResult = s.out.lastResult ∧
    (acknowledge s w).out.supervision = s.out.supervision ∧
    (acknowledge s w).faults.overflow = s.faults.overflow ∧
    (acknowledge s w).faults.clear = s.faults.clear ∧ (acknowledge s w).store.array = s.store.array ∧
    (acknowledge s w).store.job = s.store.job ∧ (acknowledge s w).store.notRetained = s.store.notRetained ∧
    (acknowledge s w).store.configCount = s.store.configCount ∧ (acknowledge s w).link = s.link ∧
    (acknowledge s w).win = s.win ∧ (acknowledge s w).image = s.image ∧
    (acknowledge s w).pending = s.pending := by
  unfold acknowledge
  (repeat' split) <;> simp

@[simp] theorem acknowledges_frame (l : List (Fin 48)) (s : State) :
    (l.foldl acknowledge s).time = s.time ∧ (l.foldl acknowledge s).sense = s.sense ∧
    (l.foldl acknowledge s).pulse = s.pulse ∧ (l.foldl acknowledge s).dist = s.dist ∧
    (l.foldl acknowledge s).analog = s.analog ∧ (l.foldl acknowledge s).door = s.door ∧
    (l.foldl acknowledge s).warn.nextNumber = s.warn.nextNumber ∧
    (l.foldl acknowledge s).warn.handed = s.warn.handed ∧ (l.foldl acknowledge s).out.lamps = s.out.lamps ∧
    (l.foldl acknowledge s).out.test = s.out.test ∧
    (l.foldl acknowledge s).out.lastResult = s.out.lastResult ∧
    (l.foldl acknowledge s).out.supervision = s.out.supervision ∧
    (l.foldl acknowledge s).faults.overflow = s.faults.overflow ∧
    (l.foldl acknowledge s).faults.clear = s.faults.clear ∧
    (l.foldl acknowledge s).store.array = s.store.array ∧ (l.foldl acknowledge s).store.job = s.store.job ∧
    (l.foldl acknowledge s).store.notRetained = s.store.notRetained ∧
    (l.foldl acknowledge s).store.configCount = s.store.configCount ∧
    (l.foldl acknowledge s).link = s.link ∧ (l.foldl acknowledge s).win = s.win ∧
    (l.foldl acknowledge s).image = s.image ∧ (l.foldl acknowledge s).pending = s.pending := by
  induction l generalizing s with
  | nil => simp
  | cons b l ih => simp [ih]

@[simp] theorem pressAck_frame (s : State) :
    (pressAck s).time = s.time ∧ (pressAck s).sense = s.sense ∧ (pressAck s).pulse = s.pulse ∧
    (pressAck s).dist = s.dist ∧ (pressAck s).analog = s.analog ∧ (pressAck s).door = s.door ∧
    (pressAck s).warn.nextNumber = s.warn.nextNumber ∧ (pressAck s).warn.handed = s.warn.handed ∧
    (pressAck s).out.lamps = s.out.lamps ∧ (pressAck s).out.test = s.out.test ∧
    (pressAck s).out.lastResult = s.out.lastResult ∧ (pressAck s).out.supervision = s.out.supervision ∧
    (pressAck s).faults.overflow = s.faults.overflow ∧ (pressAck s).faults.clear = s.faults.clear ∧
    (pressAck s).store.array = s.store.array ∧ (pressAck s).store.job = s.store.job ∧
    (pressAck s).store.notRetained = s.store.notRetained ∧
    (pressAck s).store.configCount = s.store.configCount ∧ (pressAck s).link = s.link ∧
    (pressAck s).win = s.win ∧ (pressAck s).image = s.image ∧ (pressAck s).pending = s.pending := by
  unfold pressAck
  (repeat' split) <;> simp

@[simp] theorem returnsInactive_frame (m : Mem) (l : List (Fin 48)) (s : State) :
    (l.foldl (fun s w => if (warningDef m w).record then returnInactive w s else s) s).time = s.time ∧
    (l.foldl (fun s w => if (warningDef m w).record then returnInactive w s else s) s).sense = s.sense ∧
    (l.foldl (fun s w => if (warningDef m w).record then returnInactive w s else s) s).pulse = s.pulse ∧
    (l.foldl (fun s w => if (warningDef m w).record then returnInactive w s else s) s).dist = s.dist ∧
    (l.foldl (fun s w => if (warningDef m w).record then returnInactive w s else s) s).analog = s.analog ∧
    (l.foldl (fun s w => if (warningDef m w).record then returnInactive w s else s) s).door = s.door ∧
    (l.foldl (fun s w => if (warningDef m w).record then returnInactive w s else s) s).warn = s.warn ∧
    (l.foldl (fun s w => if (warningDef m w).record then returnInactive w s else s) s).out = s.out ∧
    (l.foldl (fun s w => if (warningDef m w).record then returnInactive w s else s) s).faults.overflow = s.faults.overflow ∧
    (l.foldl (fun s w => if (warningDef m w).record then returnInactive w s else s) s).faults.clear = s.faults.clear ∧
    (l.foldl (fun s w => if (warningDef m w).record then returnInactive w s else s) s).store.array = s.store.array ∧
    (l.foldl (fun s w => if (warningDef m w).record then returnInactive w s else s) s).store.job = s.store.job ∧
    (l.foldl (fun s w => if (warningDef m w).record then returnInactive w s else s) s).store.notRetained = s.store.notRetained ∧
    (l.foldl (fun s w => if (warningDef m w).record then returnInactive w s else s) s).store.configCount = s.store.configCount ∧
    (l.foldl (fun s w => if (warningDef m w).record then returnInactive w s else s) s).link = s.link ∧
    (l.foldl (fun s w => if (warningDef m w).record then returnInactive w s else s) s).win = s.win ∧
    (l.foldl (fun s w => if (warningDef m w).record then returnInactive w s else s) s).image = s.image ∧
    (l.foldl (fun s w => if (warningDef m w).record then returnInactive w s else s) s).pending = s.pending := by
  induction l generalizing s with
  | nil => simp
  | cons b l ih => rw [List.foldl_cons]; split <;> simp [ih]

@[simp] theorem clearWarnings_frame (m : Mem) (s : State) :
    (clearWarnings m s).time = s.time ∧ (clearWarnings m s).sense = s.sense ∧
    (clearWarnings m s).pulse = s.pulse ∧ (clearWarnings m s).dist = s.dist ∧
    (clearWarnings m s).analog = s.analog ∧ (clearWarnings m s).door = s.door ∧
    (clearWarnings m s).warn.nextNumber = s.warn.nextNumber ∧
    (clearWarnings m s).warn.handed = s.warn.handed ∧ (clearWarnings m s).out.lamps = s.out.lamps ∧
    (clearWarnings m s).out.test = s.out.test ∧ (clearWarnings m s).out.lastResult = s.out.lastResult ∧
    (clearWarnings m s).out.supervision = s.out.supervision ∧
    (clearWarnings m s).faults.overflow = s.faults.overflow ∧
    (clearWarnings m s).faults.clear = s.faults.clear ∧ (clearWarnings m s).store.array = s.store.array ∧
    (clearWarnings m s).store.job = s.store.job ∧
    (clearWarnings m s).store.notRetained = s.store.notRetained ∧
    (clearWarnings m s).store.configCount = s.store.configCount ∧ (clearWarnings m s).link = s.link ∧
    (clearWarnings m s).win = s.win ∧ (clearWarnings m s).image = s.image ∧
    (clearWarnings m s).pending = s.pending := by
  simp [clearWarnings]

@[simp] theorem tickWarnings_frame (s : State) :
    (tickWarnings s).time = s.time ∧ (tickWarnings s).sense = s.sense ∧ (tickWarnings s).pulse = s.pulse ∧
    (tickWarnings s).dist = s.dist ∧ (tickWarnings s).analog = s.analog ∧ (tickWarnings s).door = s.door ∧
    (tickWarnings s).warn.nextNumber = s.warn.nextNumber ∧ (tickWarnings s).warn.list = s.warn.list ∧
    (tickWarnings s).warn.handed = s.warn.handed ∧ (tickWarnings s).out = s.out ∧
    (tickWarnings s).faults = s.faults ∧ (tickWarnings s).store = s.store ∧
    (tickWarnings s).link = s.link ∧ (tickWarnings s).win = s.win ∧ (tickWarnings s).image = s.image ∧
    (tickWarnings s).pending = s.pending := by
  simp [tickWarnings]

/-! ## Doorway Monitor -/

@[simp] theorem onRecord_frame (f : StopRecord → StopRecord) (s : State) :
    (onRecord f s).time = s.time ∧ (onRecord f s).sense = s.sense ∧ (onRecord f s).pulse = s.pulse ∧
    (onRecord f s).dist = s.dist ∧ (onRecord f s).analog = s.analog ∧
    (onRecord f s).door.doorways = s.door.doorways ∧ (onRecord f s).door.kneel = s.door.kneel ∧
    (onRecord f s).door.ramp = s.door.ramp ∧ (onRecord f s).door.cycle = s.door.cycle ∧
    (onRecord f s).door.latch = s.door.latch ∧ (onRecord f s).door.journal = s.door.journal ∧
    (onRecord f s).door.nextSequence = s.door.nextSequence ∧ (onRecord f s).door.age = s.door.age ∧
    (onRecord f s).door.matureDue = s.door.matureDue ∧ (onRecord f s).door.dpermit = s.door.dpermit ∧
    (onRecord f s).warn = s.warn ∧ (onRecord f s).out = s.out ∧ (onRecord f s).faults = s.faults ∧
    (onRecord f s).store = s.store ∧ (onRecord f s).link = s.link ∧ (onRecord f s).win = s.win ∧
    (onRecord f s).image = s.image ∧ (onRecord f s).pending = s.pending := by
  unfold onRecord
  (repeat' split) <;> simp

@[simp] theorem recordFlag_frame (b : BitVec 8) (s : State) :
    (recordFlag b s).time = s.time ∧ (recordFlag b s).sense = s.sense ∧ (recordFlag b s).pulse = s.pulse ∧
    (recordFlag b s).dist = s.dist ∧ (recordFlag b s).analog = s.analog ∧
    (recordFlag b s).door.doorways = s.door.doorways ∧ (recordFlag b s).door.kneel = s.door.kneel ∧
    (recordFlag b s).door.ramp = s.door.ramp ∧ (recordFlag b s).door.cycle = s.door.cycle ∧
    (recordFlag b s).door.latch = s.door.latch ∧ (recordFlag b s).door.journal = s.door.journal ∧
    (recordFlag b s).door.nextSequence = s.door.nextSequence ∧ (recordFlag b s).door.age = s.door.age ∧
    (recordFlag b s).door.matureDue = s.door.matureDue ∧ (recordFlag b s).door.dpermit = s.door.dpermit ∧
    (recordFlag b s).warn = s.warn ∧ (recordFlag b s).out = s.out ∧ (recordFlag b s).faults = s.faults ∧
    (recordFlag b s).store = s.store ∧ (recordFlag b s).link = s.link ∧ (recordFlag b s).win = s.win ∧
    (recordFlag b s).image = s.image ∧ (recordFlag b s).pending = s.pending := by
  simp [recordFlag]

@[simp] theorem recordDoorway_frame (n : Fin 4) (s : State) :
    (recordDoorway n s).time = s.time ∧ (recordDoorway n s).sense = s.sense ∧
    (recordDoorway n s).pulse = s.pulse ∧ (recordDoorway n s).dist = s.dist ∧
    (recordDoorway n s).analog = s.analog ∧ (recordDoorway n s).door.doorways = s.door.doorways ∧
    (recordDoorway n s).door.kneel = s.door.kneel ∧ (recordDoorway n s).door.ramp = s.door.ramp ∧
    (recordDoorway n s).door.cycle = s.door.cycle ∧ (recordDoorway n s).door.latch = s.door.latch ∧
    (recordDoorway n s).door.journal = s.door.journal ∧
    (recordDoorway n s).door.nextSequence = s.door.nextSequence ∧
    (recordDoorway n s).door.age = s.door.age ∧ (recordDoorway n s).door.matureDue = s.door.matureDue ∧
    (recordDoorway n s).door.dpermit = s.door.dpermit ∧ (recordDoorway n s).warn = s.warn ∧
    (recordDoorway n s).out = s.out ∧ (recordDoorway n s).faults = s.faults ∧
    (recordDoorway n s).store = s.store ∧ (recordDoorway n s).link = s.link ∧
    (recordDoorway n s).win = s.win ∧ (recordDoorway n s).image = s.image ∧
    (recordDoorway n s).pending = s.pending := by
  simp [recordDoorway]

@[simp] theorem recordObstruction_frame (s : State) :
    (recordObstruction s).time = s.time ∧ (recordObstruction s).sense = s.sense ∧
    (recordObstruction s).pulse = s.pulse ∧ (recordObstruction s).dist = s.dist ∧
    (recordObstruction s).analog = s.analog ∧ (recordObstruction s).door.doorways = s.door.doorways ∧
    (recordObstruction s).door.kneel = s.door.kneel ∧ (recordObstruction s).door.ramp = s.door.ramp ∧
    (recordObstruction s).door.cycle = s.door.cycle ∧ (recordObstruction s).door.latch = s.door.latch ∧
    (recordObstruction s).door.journal = s.door.journal ∧
    (recordObstruction s).door.nextSequence = s.door.nextSequence ∧
    (recordObstruction s).door.age = s.door.age ∧ (recordObstruction s).door.matureDue = s.door.matureDue ∧
    (recordObstruction s).door.dpermit = s.door.dpermit ∧ (recordObstruction s).warn = s.warn ∧
    (recordObstruction s).out = s.out ∧ (recordObstruction s).faults = s.faults ∧
    (recordObstruction s).store = s.store ∧ (recordObstruction s).link = s.link ∧
    (recordObstruction s).win = s.win ∧ (recordObstruction s).image = s.image ∧
    (recordObstruction s).pending = s.pending := by
  simp [recordObstruction]

@[simp] theorem openStop_frame (s : State) :
    (openStop s).time = s.time ∧ (openStop s).sense = s.sense ∧ (openStop s).pulse = s.pulse ∧
    (openStop s).dist = s.dist ∧ (openStop s).analog = s.analog ∧
    (openStop s).door.doorways = s.door.doorways ∧ (openStop s).door.kneel = s.door.kneel ∧
    (openStop s).door.ramp = s.door.ramp ∧ (openStop s).door.age = s.door.age ∧
    (openStop s).door.matureDue = s.door.matureDue ∧ (openStop s).door.dpermit = s.door.dpermit ∧
    (openStop s).warn = s.warn ∧ (openStop s).out = s.out ∧ (openStop s).faults = s.faults ∧
    (openStop s).store = s.store ∧ (openStop s).link = s.link ∧ (openStop s).win = s.win ∧
    (openStop s).image = s.image ∧ (openStop s).pending = s.pending := by
  simp [openStop]

@[simp] theorem closeStop_frame (f : OpenStop → Nat) (b : BitVec 8) (s : State) :
    (closeStop f b s).time = s.time ∧ (closeStop f b s).sense = s.sense ∧
    (closeStop f b s).pulse = s.pulse ∧ (closeStop f b s).dist = s.dist ∧
    (closeStop f b s).analog = s.analog ∧ (closeStop f b s).door.doorways = s.door.doorways ∧
    (closeStop f b s).door.kneel = s.door.kneel ∧ (closeStop f b s).door.ramp = s.door.ramp ∧
    (closeStop f b s).door.cycle = s.door.cycle ∧ (closeStop f b s).door.latch = s.door.latch ∧
    (closeStop f b s).door.nextSequence = s.door.nextSequence ∧ (closeStop f b s).door.age = s.door.age ∧
    (closeStop f b s).door.matureDue = s.door.matureDue ∧ (closeStop f b s).door.dpermit = s.door.dpermit ∧
    (closeStop f b s).warn = s.warn ∧ (closeStop f b s).out = s.out ∧ (closeStop f b s).faults = s.faults ∧
    (closeStop f b s).store = s.store ∧ (closeStop f b s).link = s.link ∧
    (closeStop f b s).win.ram = s.win.ram ∧ (closeStop f b s).win.slots = s.win.slots ∧
    (closeStop f b s).win.attention = s.win.attention ∧ (closeStop f b s).win.claims = s.win.claims ∧
    (closeStop f b s).win.enable = s.win.enable ∧ (closeStop f b s).win.capture = s.win.capture ∧
    (closeStop f b s).win.faultCount = s.win.faultCount ∧
    (closeStop f b s).win.softCause = s.win.softCause ∧ (closeStop f b s).win.source = s.win.source ∧
    (closeStop f b s).win.ops = s.win.ops ∧ (closeStop f b s).win.adoption = s.win.adoption ∧
    (closeStop f b s).win.lastTake = s.win.lastTake ∧ (closeStop f b s).win.sdo = s.win.sdo ∧
    (closeStop f b s).image = s.image ∧ (closeStop f b s).pending = s.pending := by
  unfold closeStop
  (repeat' split) <;> simp

@[simp] theorem setCycle_frame (c : Cycle) (s : State) :
    (setCycle c s).time = s.time ∧ (setCycle c s).sense = s.sense ∧ (setCycle c s).pulse = s.pulse ∧
    (setCycle c s).dist = s.dist ∧ (setCycle c s).analog = s.analog ∧
    (setCycle c s).door.doorways = s.door.doorways ∧ (setCycle c s).door.kneel = s.door.kneel ∧
    (setCycle c s).door.ramp = s.door.ramp ∧ (setCycle c s).door.stop = s.door.stop ∧
    (setCycle c s).door.latch = s.door.latch ∧ (setCycle c s).door.journal = s.door.journal ∧
    (setCycle c s).door.nextSequence = s.door.nextSequence ∧ (setCycle c s).door.age = s.door.age ∧
    (setCycle c s).door.matureDue = s.door.matureDue ∧ (setCycle c s).door.dpermit = s.door.dpermit ∧
    (setCycle c s).warn = s.warn ∧ (setCycle c s).out = s.out ∧ (setCycle c s).faults = s.faults ∧
    (setCycle c s).store = s.store ∧ (setCycle c s).link = s.link ∧ (setCycle c s).win = s.win ∧
    (setCycle c s).image = s.image ∧ (setCycle c s).pending = s.pending := by
  simp [setCycle]

@[simp] theorem outOfService_frame (s : State) :
    (outOfService s).time = s.time ∧ (outOfService s).sense = s.sense ∧ (outOfService s).pulse = s.pulse ∧
    (outOfService s).dist = s.dist ∧ (outOfService s).analog = s.analog ∧
    (outOfService s).door.doorways = s.door.doorways ∧ (outOfService s).door.kneel = s.door.kneel ∧
    (outOfService s).door.ramp = s.door.ramp ∧ (outOfService s).door.stop = s.door.stop ∧
    (outOfService s).door.journal = s.door.journal ∧
    (outOfService s).door.nextSequence = s.door.nextSequence ∧ (outOfService s).door.age = s.door.age ∧
    (outOfService s).door.matureDue = s.door.matureDue ∧ (outOfService s).door.dpermit = s.door.dpermit ∧
    (outOfService s).warn = s.warn ∧ (outOfService s).out = s.out ∧ (outOfService s).faults = s.faults ∧
    (outOfService s).store = s.store ∧ (outOfService s).link = s.link ∧ (outOfService s).win = s.win ∧
    (outOfService s).image = s.image ∧ (outOfService s).pending = s.pending := by
  simp [outOfService]

@[simp] theorem captureDwell_frame (s : State) :
    (captureDwell s).time = s.time ∧ (captureDwell s).sense = s.sense ∧ (captureDwell s).pulse = s.pulse ∧
    (captureDwell s).dist = s.dist ∧ (captureDwell s).analog = s.analog ∧
    (captureDwell s).door.doorways = s.door.doorways ∧ (captureDwell s).door.kneel = s.door.kneel ∧
    (captureDwell s).door.ramp = s.door.ramp ∧ (captureDwell s).door.cycle = s.door.cycle ∧
    (captureDwell s).door.latch = s.door.latch ∧ (captureDwell s).door.journal = s.door.journal ∧
    (captureDwell s).door.nextSequence = s.door.nextSequence ∧ (captureDwell s).door.age = s.door.age ∧
    (captureDwell s).door.matureDue = s.door.matureDue ∧ (captureDwell s).door.dpermit = s.door.dpermit ∧
    (captureDwell s).warn = s.warn ∧ (captureDwell s).out = s.out ∧ (captureDwell s).faults = s.faults ∧
    (captureDwell s).store = s.store ∧ (captureDwell s).link = s.link ∧ (captureDwell s).win = s.win ∧
    (captureDwell s).image = s.image ∧ (captureDwell s).pending = s.pending := by
  unfold captureDwell
  (repeat' split) <;> simp

/-- What a transition of the stop cycle leaves as it was. -/
theorem cycleStep_frame (s t : State) (h : cycleStep s = some t) :
    t.time = s.time ∧ t.sense = s.sense ∧ t.pulse = s.pulse ∧ t.dist = s.dist ∧ t.analog = s.analog ∧
    t.door.doorways = s.door.doorways ∧ t.door.kneel = s.door.kneel ∧ t.door.ramp = s.door.ramp ∧
    t.door.age = s.door.age ∧ t.door.matureDue = s.door.matureDue ∧ t.door.dpermit = s.door.dpermit ∧
    t.warn = s.warn ∧ t.out = s.out ∧ t.faults = s.faults ∧ t.store = s.store ∧ t.link = s.link ∧
    t.win.ram = s.win.ram ∧ t.win.slots = s.win.slots ∧ t.win.attention = s.win.attention ∧
    t.win.claims = s.win.claims ∧ t.win.enable = s.win.enable ∧ t.win.capture = s.win.capture ∧
    t.win.faultCount = s.win.faultCount ∧ t.win.softCause = s.win.softCause ∧ t.win.source = s.win.source ∧
    t.win.ops = s.win.ops ∧ t.win.adoption = s.win.adoption ∧ t.win.lastTake = s.win.lastTake ∧
    t.win.sdo = s.win.sdo ∧ t.image = s.image ∧ t.pending = s.pending := by
  simp only [cycleStep] at h
  split at h <;> (repeat' split at h) <;> simp only [Option.some.injEq, reduceCtorEq] at h <;> subst h <;> simp

@[simp] theorem cycleSteps_frame (k : Nat) (s : State) :
    (cycleSteps k s).time = s.time ∧ (cycleSteps k s).sense = s.sense ∧ (cycleSteps k s).pulse = s.pulse ∧
    (cycleSteps k s).dist = s.dist ∧ (cycleSteps k s).analog = s.analog ∧
    (cycleSteps k s).door.doorways = s.door.doorways ∧ (cycleSteps k s).door.kneel = s.door.kneel ∧
    (cycleSteps k s).door.ramp = s.door.ramp ∧ (cycleSteps k s).door.age = s.door.age ∧
    (cycleSteps k s).door.matureDue = s.door.matureDue ∧ (cycleSteps k s).door.dpermit = s.door.dpermit ∧
    (cycleSteps k s).warn = s.warn ∧ (cycleSteps k s).out = s.out ∧ (cycleSteps k s).faults = s.faults ∧
    (cycleSteps k s).store = s.store ∧ (cycleSteps k s).link = s.link ∧
    (cycleSteps k s).win.ram = s.win.ram ∧ (cycleSteps k s).win.slots = s.win.slots ∧
    (cycleSteps k s).win.attention = s.win.attention ∧ (cycleSteps k s).win.claims = s.win.claims ∧
    (cycleSteps k s).win.enable = s.win.enable ∧ (cycleSteps k s).win.capture = s.win.capture ∧
    (cycleSteps k s).win.faultCount = s.win.faultCount ∧ (cycleSteps k s).win.softCause = s.win.softCause ∧
    (cycleSteps k s).win.source = s.win.source ∧ (cycleSteps k s).win.ops = s.win.ops ∧
    (cycleSteps k s).win.adoption = s.win.adoption ∧ (cycleSteps k s).win.lastTake = s.win.lastTake ∧
    (cycleSteps k s).win.sdo = s.win.sdo ∧ (cycleSteps k s).image = s.image ∧
    (cycleSteps k s).pending = s.pending := by
  induction k generalizing s with
  | zero => simp [cycleSteps]
  | succ k ih =>
    unfold cycleSteps
    split
    · simp
    · rename_i t h
      have hc := cycleStep_frame s t h
      simp [ih t, hc]

@[simp] theorem judgeCycle_frame (s : State) :
    (judgeCycle s).time = s.time ∧ (judgeCycle s).sense = s.sense ∧ (judgeCycle s).pulse = s.pulse ∧
    (judgeCycle s).dist = s.dist ∧ (judgeCycle s).analog = s.analog ∧
    (judgeCycle s).door.doorways = s.door.doorways ∧ (judgeCycle s).door.kneel = s.door.kneel ∧
    (judgeCycle s).door.ramp = s.door.ramp ∧ (judgeCycle s).door.age = s.door.age ∧
    (judgeCycle s).door.matureDue = s.door.matureDue ∧ (judgeCycle s).door.dpermit = s.door.dpermit ∧
    (judgeCycle s).warn = s.warn ∧ (judgeCycle s).out = s.out ∧ (judgeCycle s).faults = s.faults ∧
    (judgeCycle s).store = s.store ∧ (judgeCycle s).link = s.link ∧ (judgeCycle s).win.ram = s.win.ram ∧
    (judgeCycle s).win.slots = s.win.slots ∧ (judgeCycle s).win.attention = s.win.attention ∧
    (judgeCycle s).win.claims = s.win.claims ∧ (judgeCycle s).win.enable = s.win.enable ∧
    (judgeCycle s).win.capture = s.win.capture ∧ (judgeCycle s).win.faultCount = s.win.faultCount ∧
    (judgeCycle s).win.softCause = s.win.softCause ∧ (judgeCycle s).win.source = s.win.source ∧
    (judgeCycle s).win.ops = s.win.ops ∧ (judgeCycle s).win.adoption = s.win.adoption ∧
    (judgeCycle s).win.lastTake = s.win.lastTake ∧ (judgeCycle s).win.sdo = s.win.sdo ∧
    (judgeCycle s).image = s.image ∧ (judgeCycle s).pending = s.pending := by
  simp [judgeCycle]

@[simp] theorem judgePermit_frame (s : State) :
    (judgePermit s).time = s.time ∧ (judgePermit s).sense = s.sense ∧ (judgePermit s).pulse = s.pulse ∧
    (judgePermit s).dist = s.dist ∧ (judgePermit s).analog = s.analog ∧
    (judgePermit s).door.doorways = s.door.doorways ∧ (judgePermit s).door.kneel = s.door.kneel ∧
    (judgePermit s).door.ramp = s.door.ramp ∧ (judgePermit s).door.cycle = s.door.cycle ∧
    (judgePermit s).door.stop = s.door.stop ∧ (judgePermit s).door.latch = s.door.latch ∧
    (judgePermit s).door.journal = s.door.journal ∧
    (judgePermit s).door.nextSequence = s.door.nextSequence ∧ (judgePermit s).door.age = s.door.age ∧
    (judgePermit s).door.matureDue = s.door.matureDue ∧ (judgePermit s).warn = s.warn ∧
    (judgePermit s).out = s.out ∧ (judgePermit s).faults = s.faults ∧ (judgePermit s).store = s.store ∧
    (judgePermit s).link = s.link ∧ (judgePermit s).win = s.win ∧ (judgePermit s).image = s.image ∧
    (judgePermit s).pending = s.pending := by
  simp [judgePermit]

@[simp] theorem doorIgnition_frame (s : State) :
    (doorIgnition s).time = s.time ∧ (doorIgnition s).sense = s.sense ∧ (doorIgnition s).pulse = s.pulse ∧
    (doorIgnition s).dist = s.dist ∧ (doorIgnition s).analog = s.analog ∧
    (doorIgnition s).door.doorways = s.door.doorways ∧ (doorIgnition s).door.kneel = s.door.kneel ∧
    (doorIgnition s).door.ramp = s.door.ramp ∧ (doorIgnition s).door.age = s.door.age ∧
    (doorIgnition s).door.matureDue = s.door.matureDue ∧ (doorIgnition s).warn = s.warn ∧
    (doorIgnition s).out = s.out ∧ (doorIgnition s).faults = s.faults ∧ (doorIgnition s).store = s.store ∧
    (doorIgnition s).link = s.link ∧ (doorIgnition s).win.ram = s.win.ram ∧
    (doorIgnition s).win.slots = s.win.slots ∧ (doorIgnition s).win.attention = s.win.attention ∧
    (doorIgnition s).win.claims = s.win.claims ∧ (doorIgnition s).win.enable = s.win.enable ∧
    (doorIgnition s).win.capture = s.win.capture ∧ (doorIgnition s).win.faultCount = s.win.faultCount ∧
    (doorIgnition s).win.softCause = s.win.softCause ∧ (doorIgnition s).win.source = s.win.source ∧
    (doorIgnition s).win.ops = s.win.ops ∧ (doorIgnition s).win.adoption = s.win.adoption ∧
    (doorIgnition s).win.lastTake = s.win.lastTake ∧ (doorIgnition s).win.sdo = s.win.sdo ∧
    (doorIgnition s).image = s.image ∧ (doorIgnition s).pending = s.pending := by
  simp [doorIgnition]

@[simp] theorem doorMotion_frame (s : State) :
    (doorMotion s).time = s.time ∧ (doorMotion s).sense = s.sense ∧ (doorMotion s).pulse = s.pulse ∧
    (doorMotion s).dist = s.dist ∧ (doorMotion s).analog = s.analog ∧
    (doorMotion s).door.doorways = s.door.doorways ∧ (doorMotion s).door.kneel = s.door.kneel ∧
    (doorMotion s).door.ramp = s.door.ramp ∧ (doorMotion s).warn = s.warn ∧ (doorMotion s).out = s.out ∧
    (doorMotion s).faults = s.faults ∧ (doorMotion s).store = s.store ∧ (doorMotion s).link = s.link ∧
    (doorMotion s).win.ram = s.win.ram ∧ (doorMotion s).win.slots = s.win.slots ∧
    (doorMotion s).win.attention = s.win.attention ∧ (doorMotion s).win.claims = s.win.claims ∧
    (doorMotion s).win.enable = s.win.enable ∧ (doorMotion s).win.capture = s.win.capture ∧
    (doorMotion s).win.faultCount = s.win.faultCount ∧ (doorMotion s).win.softCause = s.win.softCause ∧
    (doorMotion s).win.source = s.win.source ∧ (doorMotion s).win.ops = s.win.ops ∧
    (doorMotion s).win.adoption = s.win.adoption ∧ (doorMotion s).win.lastTake = s.win.lastTake ∧
    (doorMotion s).win.sdo = s.win.sdo ∧ (doorMotion s).image = s.image ∧ (doorMotion s).pending = s.pending := by
  simp [doorMotion]

@[simp] theorem tickAge_frame (s : State) :
    (tickAge s).time = s.time ∧ (tickAge s).sense = s.sense ∧ (tickAge s).pulse = s.pulse ∧
    (tickAge s).dist = s.dist ∧ (tickAge s).analog = s.analog ∧
    (tickAge s).door.doorways = s.door.doorways ∧ (tickAge s).door.kneel = s.door.kneel ∧
    (tickAge s).door.ramp = s.door.ramp ∧ (tickAge s).door.cycle = s.door.cycle ∧
    (tickAge s).door.stop = s.door.stop ∧ (tickAge s).door.latch = s.door.latch ∧
    (tickAge s).door.journal = s.door.journal ∧ (tickAge s).door.nextSequence = s.door.nextSequence ∧
    (tickAge s).door.dpermit = s.door.dpermit ∧ (tickAge s).warn = s.warn ∧ (tickAge s).out = s.out ∧
    (tickAge s).faults = s.faults ∧ (tickAge s).store = s.store ∧ (tickAge s).link = s.link ∧
    (tickAge s).win = s.win ∧ (tickAge s).image = s.image ∧ (tickAge s).pending = s.pending := by
  unfold tickAge
  (repeat' split) <;> simp

@[simp] theorem takeMaturity_frame (s : State) :
    (takeMaturity s).time = s.time ∧ (takeMaturity s).sense = s.sense ∧ (takeMaturity s).pulse = s.pulse ∧
    (takeMaturity s).dist = s.dist ∧ (takeMaturity s).analog = s.analog ∧
    (takeMaturity s).door.doorways = s.door.doorways ∧ (takeMaturity s).door.kneel = s.door.kneel ∧
    (takeMaturity s).door.ramp = s.door.ramp ∧ (takeMaturity s).door.cycle = s.door.cycle ∧
    (takeMaturity s).door.stop = s.door.stop ∧ (takeMaturity s).door.latch = s.door.latch ∧
    (takeMaturity s).door.journal = s.door.journal ∧
    (takeMaturity s).door.nextSequence = s.door.nextSequence ∧ (takeMaturity s).door.age = s.door.age ∧
    (takeMaturity s).warn = s.warn ∧ (takeMaturity s).out = s.out ∧ (takeMaturity s).faults = s.faults ∧
    (takeMaturity s).store = s.store ∧ (takeMaturity s).link = s.link ∧ (takeMaturity s).win = s.win ∧
    (takeMaturity s).image = s.image ∧ (takeMaturity s).pending = s.pending := by
  unfold takeMaturity
  (repeat' split) <;> simp

@[simp] theorem moveDoorway_frame (n : Fin 4) (d : Doorway) (s : State) :
    (moveDoorway n d s).time = s.time ∧ (moveDoorway n d s).sense = s.sense ∧
    (moveDoorway n d s).pulse = s.pulse ∧ (moveDoorway n d s).dist = s.dist ∧
    (moveDoorway n d s).analog = s.analog ∧ (moveDoorway n d s).door.kneel = s.door.kneel ∧
    (moveDoorway n d s).door.ramp = s.door.ramp ∧ (moveDoorway n d s).door.cycle = s.door.cycle ∧
    (moveDoorway n d s).door.latch = s.door.latch ∧ (moveDoorway n d s).door.journal = s.door.journal ∧
    (moveDoorway n d s).door.nextSequence = s.door.nextSequence ∧
    (moveDoorway n d s).door.age = s.door.age ∧ (moveDoorway n d s).door.matureDue = s.door.matureDue ∧
    (moveDoorway n d s).door.dpermit = s.door.dpermit ∧ (moveDoorway n d s).warn = s.warn ∧
    (moveDoorway n d s).out = s.out ∧ (moveDoorway n d s).faults = s.faults ∧
    (moveDoorway n d s).store = s.store ∧ (moveDoorway n d s).link = s.link ∧
    (moveDoorway n d s).win = s.win ∧ (moveDoorway n d s).image = s.image ∧
    (moveDoorway n d s).pending = s.pending := by
  simp only [moveDoorway]
  (repeat' split) <;> simp

@[simp] theorem judgeDoorway_frame (n : Fin 4) (s : State) :
    (judgeDoorway n s).time = s.time ∧ (judgeDoorway n s).sense = s.sense ∧
    (judgeDoorway n s).pulse = s.pulse ∧ (judgeDoorway n s).dist = s.dist ∧
    (judgeDoorway n s).analog = s.analog ∧ (judgeDoorway n s).door.kneel = s.door.kneel ∧
    (judgeDoorway n s).door.ramp = s.door.ramp ∧ (judgeDoorway n s).door.age = s.door.age ∧
    (judgeDoorway n s).door.matureDue = s.door.matureDue ∧
    (judgeDoorway n s).door.dpermit = s.door.dpermit ∧ (judgeDoorway n s).warn = s.warn ∧
    (judgeDoorway n s).out = s.out ∧ (judgeDoorway n s).faults = s.faults ∧
    (judgeDoorway n s).store = s.store ∧ (judgeDoorway n s).link = s.link ∧
    (judgeDoorway n s).win.ram = s.win.ram ∧ (judgeDoorway n s).win.slots = s.win.slots ∧
    (judgeDoorway n s).win.attention = s.win.attention ∧ (judgeDoorway n s).win.claims = s.win.claims ∧
    (judgeDoorway n s).win.enable = s.win.enable ∧ (judgeDoorway n s).win.capture = s.win.capture ∧
    (judgeDoorway n s).win.faultCount = s.win.faultCount ∧
    (judgeDoorway n s).win.softCause = s.win.softCause ∧ (judgeDoorway n s).win.source = s.win.source ∧
    (judgeDoorway n s).win.ops = s.win.ops ∧ (judgeDoorway n s).win.adoption = s.win.adoption ∧
    (judgeDoorway n s).win.lastTake = s.win.lastTake ∧ (judgeDoorway n s).win.sdo = s.win.sdo ∧
    (judgeDoorway n s).image = s.image ∧ (judgeDoorway n s).pending = s.pending := by
  simp only [judgeDoorway]
  (repeat' split) <;> simp

@[simp] theorem travelExpiry_frame (n : Fin 4) (s : State) :
    (travelExpiry n s).time = s.time ∧ (travelExpiry n s).sense = s.sense ∧
    (travelExpiry n s).pulse = s.pulse ∧ (travelExpiry n s).dist = s.dist ∧
    (travelExpiry n s).analog = s.analog ∧ (travelExpiry n s).door.kneel = s.door.kneel ∧
    (travelExpiry n s).door.ramp = s.door.ramp ∧ (travelExpiry n s).door.age = s.door.age ∧
    (travelExpiry n s).door.matureDue = s.door.matureDue ∧
    (travelExpiry n s).door.dpermit = s.door.dpermit ∧ (travelExpiry n s).warn = s.warn ∧
    (travelExpiry n s).out = s.out ∧ (travelExpiry n s).faults = s.faults ∧
    (travelExpiry n s).store = s.store ∧ (travelExpiry n s).link = s.link ∧
    (travelExpiry n s).win.ram = s.win.ram ∧ (travelExpiry n s).win.slots = s.win.slots ∧
    (travelExpiry n s).win.attention = s.win.attention ∧ (travelExpiry n s).win.claims = s.win.claims ∧
    (travelExpiry n s).win.enable = s.win.enable ∧ (travelExpiry n s).win.capture = s.win.capture ∧
    (travelExpiry n s).win.faultCount = s.win.faultCount ∧
    (travelExpiry n s).win.softCause = s.win.softCause ∧ (travelExpiry n s).win.source = s.win.source ∧
    (travelExpiry n s).win.ops = s.win.ops ∧ (travelExpiry n s).win.adoption = s.win.adoption ∧
    (travelExpiry n s).win.lastTake = s.win.lastTake ∧ (travelExpiry n s).win.sdo = s.win.sdo ∧
    (travelExpiry n s).image = s.image ∧ (travelExpiry n s).pending = s.pending := by
  simp only [travelExpiry]
  (repeat' split) <;> simp

@[simp] theorem conflictExpiry_frame (n : Fin 4) (s : State) :
    (conflictExpiry n s).time = s.time ∧ (conflictExpiry n s).sense = s.sense ∧
    (conflictExpiry n s).pulse = s.pulse ∧ (conflictExpiry n s).dist = s.dist ∧
    (conflictExpiry n s).analog = s.analog ∧ (conflictExpiry n s).door.kneel = s.door.kneel ∧
    (conflictExpiry n s).door.ramp = s.door.ramp ∧ (conflictExpiry n s).door.age = s.door.age ∧
    (conflictExpiry n s).door.matureDue = s.door.matureDue ∧
    (conflictExpiry n s).door.dpermit = s.door.dpermit ∧ (conflictExpiry n s).warn = s.warn ∧
    (conflictExpiry n s).out = s.out ∧ (conflictExpiry n s).faults = s.faults ∧
    (conflictExpiry n s).store = s.store ∧ (conflictExpiry n s).link = s.link ∧
    (conflictExpiry n s).win.ram = s.win.ram ∧ (conflictExpiry n s).win.slots = s.win.slots ∧
    (conflictExpiry n s).win.attention = s.win.attention ∧ (conflictExpiry n s).win.claims = s.win.claims ∧
    (conflictExpiry n s).win.enable = s.win.enable ∧ (conflictExpiry n s).win.capture = s.win.capture ∧
    (conflictExpiry n s).win.faultCount = s.win.faultCount ∧
    (conflictExpiry n s).win.softCause = s.win.softCause ∧ (conflictExpiry n s).win.source = s.win.source ∧
    (conflictExpiry n s).win.ops = s.win.ops ∧ (conflictExpiry n s).win.adoption = s.win.adoption ∧
    (conflictExpiry n s).win.lastTake = s.win.lastTake ∧ (conflictExpiry n s).win.sdo = s.win.sdo ∧
    (conflictExpiry n s).image = s.image ∧ (conflictExpiry n s).pending = s.pending := by
  simp only [conflictExpiry]
  (repeat' split) <;> simp

@[simp] theorem judgeObstructed_frame (n : Fin 4) (s : State) :
    (judgeObstructed n s).time = s.time ∧ (judgeObstructed n s).sense = s.sense ∧
    (judgeObstructed n s).pulse = s.pulse ∧ (judgeObstructed n s).dist = s.dist ∧
    (judgeObstructed n s).analog = s.analog ∧ (judgeObstructed n s).door.kneel = s.door.kneel ∧
    (judgeObstructed n s).door.ramp = s.door.ramp ∧ (judgeObstructed n s).door.cycle = s.door.cycle ∧
    (judgeObstructed n s).door.stop = s.door.stop ∧ (judgeObstructed n s).door.latch = s.door.latch ∧
    (judgeObstructed n s).door.journal = s.door.journal ∧
    (judgeObstructed n s).door.nextSequence = s.door.nextSequence ∧
    (judgeObstructed n s).door.age = s.door.age ∧ (judgeObstructed n s).door.matureDue = s.door.matureDue ∧
    (judgeObstructed n s).door.dpermit = s.door.dpermit ∧ (judgeObstructed n s).warn = s.warn ∧
    (judgeObstructed n s).out = s.out ∧ (judgeObstructed n s).faults = s.faults ∧
    (judgeObstructed n s).store = s.store ∧ (judgeObstructed n s).link = s.link ∧
    (judgeObstructed n s).win = s.win ∧ (judgeObstructed n s).image = s.image ∧
    (judgeObstructed n s).pending = s.pending := by
  unfold judgeObstructed
  (repeat' split) <;> simp

@[simp] theorem judgeEmergency_frame (n : Fin 4) (s : State) :
    (judgeEmergency n s).time = s.time ∧ (judgeEmergency n s).sense = s.sense ∧
    (judgeEmergency n s).pulse = s.pulse ∧ (judgeEmergency n s).dist = s.dist ∧
    (judgeEmergency n s).analog = s.analog ∧ (judgeEmergency n s).door.kneel = s.door.kneel ∧
    (judgeEmergency n s).door.ramp = s.door.ramp ∧ (judgeEmergency n s).door.cycle = s.door.cycle ∧
    (judgeEmergency n s).door.latch = s.door.latch ∧ (judgeEmergency n s).door.journal = s.door.journal ∧
    (judgeEmergency n s).door.nextSequence = s.door.nextSequence ∧
    (judgeEmergency n s).door.age = s.door.age ∧ (judgeEmergency n s).door.matureDue = s.door.matureDue ∧
    (judgeEmergency n s).door.dpermit = s.door.dpermit ∧ (judgeEmergency n s).warn = s.warn ∧
    (judgeEmergency n s).out = s.out ∧ (judgeEmergency n s).faults = s.faults ∧
    (judgeEmergency n s).store = s.store ∧ (judgeEmergency n s).link = s.link ∧
    (judgeEmergency n s).win = s.win ∧ (judgeEmergency n s).image = s.image ∧
    (judgeEmergency n s).pending = s.pending := by
  simp only [judgeEmergency]
  (repeat' split) <;> simp

@[simp] theorem judgeKneel_frame (s : State) :
    (judgeKneel s).time = s.time ∧ (judgeKneel s).sense = s.sense ∧ (judgeKneel s).pulse = s.pulse ∧
    (judgeKneel s).dist = s.dist ∧ (judgeKneel s).analog = s.analog ∧
    (judgeKneel s).door.doorways = s.door.doorways ∧ (judgeKneel s).door.ramp = s.door.ramp ∧
    (judgeKneel s).door.cycle = s.door.cycle ∧ (judgeKneel s).door.latch = s.door.latch ∧
    (judgeKneel s).door.journal = s.door.journal ∧ (judgeKneel s).door.nextSequence = s.door.nextSequence ∧
    (judgeKneel s).door.age = s.door.age ∧ (judgeKneel s).door.matureDue = s.door.matureDue ∧
    (judgeKneel s).door.dpermit = s.door.dpermit ∧ (judgeKneel s).warn = s.warn ∧
    (judgeKneel s).out = s.out ∧ (judgeKneel s).faults = s.faults ∧ (judgeKneel s).store = s.store ∧
    (judgeKneel s).link = s.link ∧ (judgeKneel s).win = s.win ∧ (judgeKneel s).image = s.image ∧
    (judgeKneel s).pending = s.pending := by
  simp only [judgeKneel]
  (repeat' split) <;> simp

@[simp] theorem judgeRamp_frame (s : State) :
    (judgeRamp s).time = s.time ∧ (judgeRamp s).sense = s.sense ∧ (judgeRamp s).pulse = s.pulse ∧
    (judgeRamp s).dist = s.dist ∧ (judgeRamp s).analog = s.analog ∧
    (judgeRamp s).door.doorways = s.door.doorways ∧ (judgeRamp s).door.kneel = s.door.kneel ∧
    (judgeRamp s).door.cycle = s.door.cycle ∧ (judgeRamp s).door.latch = s.door.latch ∧
    (judgeRamp s).door.journal = s.door.journal ∧ (judgeRamp s).door.nextSequence = s.door.nextSequence ∧
    (judgeRamp s).door.age = s.door.age ∧ (judgeRamp s).door.matureDue = s.door.matureDue ∧
    (judgeRamp s).door.dpermit = s.door.dpermit ∧ (judgeRamp s).warn = s.warn ∧ (judgeRamp s).out = s.out ∧
    (judgeRamp s).faults = s.faults ∧ (judgeRamp s).store = s.store ∧ (judgeRamp s).link = s.link ∧
    (judgeRamp s).win = s.win ∧ (judgeRamp s).image = s.image ∧ (judgeRamp s).pending = s.pending := by
  simp only [judgeRamp]
  (repeat' split) <;> simp

@[simp] theorem takeEdge_frame (n : Fin 4) (x : LineState) (s : State) :
    (takeEdge n x s).time = s.time ∧ (takeEdge n x s).sense = s.sense ∧ (takeEdge n x s).pulse = s.pulse ∧
    (takeEdge n x s).dist = s.dist ∧ (takeEdge n x s).analog = s.analog ∧
    (takeEdge n x s).door.kneel = s.door.kneel ∧ (takeEdge n x s).door.ramp = s.door.ramp ∧
    (takeEdge n x s).door.cycle = s.door.cycle ∧ (takeEdge n x s).door.latch = s.door.latch ∧
    (takeEdge n x s).door.journal = s.door.journal ∧
    (takeEdge n x s).door.nextSequence = s.door.nextSequence ∧ (takeEdge n x s).door.age = s.door.age ∧
    (takeEdge n x s).door.matureDue = s.door.matureDue ∧ (takeEdge n x s).door.dpermit = s.door.dpermit ∧
    (takeEdge n x s).warn = s.warn ∧ (takeEdge n x s).out = s.out ∧ (takeEdge n x s).faults = s.faults ∧
    (takeEdge n x s).store = s.store ∧ (takeEdge n x s).link = s.link ∧ (takeEdge n x s).win = s.win ∧
    (takeEdge n x s).image = s.image ∧ (takeEdge n x s).pending = s.pending := by
  simp only [takeEdge]
  (repeat' split) <;> simp

@[simp] theorem pressStop_frame (s : State) :
    (pressStop s).time = s.time ∧ (pressStop s).sense = s.sense ∧ (pressStop s).pulse = s.pulse ∧
    (pressStop s).dist = s.dist ∧ (pressStop s).analog = s.analog ∧
    (pressStop s).door.doorways = s.door.doorways ∧ (pressStop s).door.kneel = s.door.kneel ∧
    (pressStop s).door.ramp = s.door.ramp ∧ (pressStop s).door.cycle = s.door.cycle ∧
    (pressStop s).door.stop = s.door.stop ∧ (pressStop s).door.journal = s.door.journal ∧
    (pressStop s).door.nextSequence = s.door.nextSequence ∧ (pressStop s).door.age = s.door.age ∧
    (pressStop s).door.matureDue = s.door.matureDue ∧ (pressStop s).door.dpermit = s.door.dpermit ∧
    (pressStop s).warn = s.warn ∧ (pressStop s).out.lamps = s.out.lamps ∧
    (pressStop s).out.test = s.out.test ∧ (pressStop s).out.lastResult = s.out.lastResult ∧
    (pressStop s).out.supervision = s.out.supervision ∧ (pressStop s).faults = s.faults ∧
    (pressStop s).store = s.store ∧ (pressStop s).link = s.link ∧ (pressStop s).win = s.win ∧
    (pressStop s).image = s.image ∧ (pressStop s).pending = s.pending := by
  unfold pressStop
  (repeat' split) <;> simp

@[simp] theorem countDwell_frame (s : State) :
    (countDwell s).time = s.time ∧ (countDwell s).sense = s.sense ∧ (countDwell s).pulse = s.pulse ∧
    (countDwell s).dist = s.dist ∧ (countDwell s).analog = s.analog ∧
    (countDwell s).door.doorways = s.door.doorways ∧ (countDwell s).door.kneel = s.door.kneel ∧
    (countDwell s).door.ramp = s.door.ramp ∧ (countDwell s).door.cycle = s.door.cycle ∧
    (countDwell s).door.latch = s.door.latch ∧ (countDwell s).door.journal = s.door.journal ∧
    (countDwell s).door.nextSequence = s.door.nextSequence ∧ (countDwell s).door.age = s.door.age ∧
    (countDwell s).door.matureDue = s.door.matureDue ∧ (countDwell s).door.dpermit = s.door.dpermit ∧
    (countDwell s).warn = s.warn ∧ (countDwell s).out = s.out ∧ (countDwell s).faults = s.faults ∧
    (countDwell s).store = s.store ∧ (countDwell s).link = s.link ∧ (countDwell s).win = s.win ∧
    (countDwell s).image = s.image ∧ (countDwell s).pending = s.pending := by
  unfold countDwell
  (repeat' split) <;> simp

@[simp] theorem tickDoors_frame (s : State) :
    (tickDoors s).time = s.time ∧ (tickDoors s).sense = s.sense ∧ (tickDoors s).pulse = s.pulse ∧
    (tickDoors s).dist = s.dist ∧ (tickDoors s).analog = s.analog ∧
    (tickDoors s).door.kneel = s.door.kneel ∧ (tickDoors s).door.ramp = s.door.ramp ∧
    (tickDoors s).door.cycle = s.door.cycle ∧ (tickDoors s).door.stop = s.door.stop ∧
    (tickDoors s).door.latch = s.door.latch ∧ (tickDoors s).door.journal = s.door.journal ∧
    (tickDoors s).door.nextSequence = s.door.nextSequence ∧ (tickDoors s).door.age = s.door.age ∧
    (tickDoors s).door.matureDue = s.door.matureDue ∧ (tickDoors s).door.dpermit = s.door.dpermit ∧
    (tickDoors s).warn = s.warn ∧ (tickDoors s).out = s.out ∧ (tickDoors s).faults = s.faults ∧
    (tickDoors s).store = s.store ∧ (tickDoors s).link = s.link ∧ (tickDoors s).win = s.win ∧
    (tickDoors s).image = s.image ∧ (tickDoors s).pending = s.pending := by
  simp [tickDoors]

@[simp] theorem adoptDoorway_frame (m : Mem) (n : Fin 4) (s : State) :
    (adoptDoorway m s n).time = s.time ∧ (adoptDoorway m s n).sense = s.sense ∧
    (adoptDoorway m s n).pulse = s.pulse ∧ (adoptDoorway m s n).dist = s.dist ∧
    (adoptDoorway m s n).analog = s.analog ∧ (adoptDoorway m s n).door.kneel = s.door.kneel ∧
    (adoptDoorway m s n).door.ramp = s.door.ramp ∧ (adoptDoorway m s n).door.cycle = s.door.cycle ∧
    (adoptDoorway m s n).door.latch = s.door.latch ∧ (adoptDoorway m s n).door.journal = s.door.journal ∧
    (adoptDoorway m s n).door.nextSequence = s.door.nextSequence ∧
    (adoptDoorway m s n).door.age = s.door.age ∧ (adoptDoorway m s n).door.matureDue = s.door.matureDue ∧
    (adoptDoorway m s n).door.dpermit = s.door.dpermit ∧ (adoptDoorway m s n).warn = s.warn ∧
    (adoptDoorway m s n).out = s.out ∧ (adoptDoorway m s n).faults = s.faults ∧
    (adoptDoorway m s n).store = s.store ∧ (adoptDoorway m s n).link = s.link ∧
    (adoptDoorway m s n).win = s.win ∧ (adoptDoorway m s n).image = s.image ∧
    (adoptDoorway m s n).pending = s.pending := by
  simp only [adoptDoorway]
  (repeat' split) <;> simp

@[simp] theorem adoptDoorways_frame (m : Mem) (l : List (Fin 4)) (s : State) :
    (l.foldl (adoptDoorway m) s).time = s.time ∧ (l.foldl (adoptDoorway m) s).sense = s.sense ∧
    (l.foldl (adoptDoorway m) s).pulse = s.pulse ∧ (l.foldl (adoptDoorway m) s).dist = s.dist ∧
    (l.foldl (adoptDoorway m) s).analog = s.analog ∧
    (l.foldl (adoptDoorway m) s).door.kneel = s.door.kneel ∧
    (l.foldl (adoptDoorway m) s).door.ramp = s.door.ramp ∧
    (l.foldl (adoptDoorway m) s).door.cycle = s.door.cycle ∧
    (l.foldl (adoptDoorway m) s).door.latch = s.door.latch ∧
    (l.foldl (adoptDoorway m) s).door.journal = s.door.journal ∧
    (l.foldl (adoptDoorway m) s).door.nextSequence = s.door.nextSequence ∧
    (l.foldl (adoptDoorway m) s).door.age = s.door.age ∧
    (l.foldl (adoptDoorway m) s).door.matureDue = s.door.matureDue ∧
    (l.foldl (adoptDoorway m) s).door.dpermit = s.door.dpermit ∧
    (l.foldl (adoptDoorway m) s).warn = s.warn ∧ (l.foldl (adoptDoorway m) s).out = s.out ∧
    (l.foldl (adoptDoorway m) s).faults = s.faults ∧ (l.foldl (adoptDoorway m) s).store = s.store ∧
    (l.foldl (adoptDoorway m) s).link = s.link ∧ (l.foldl (adoptDoorway m) s).win = s.win ∧
    (l.foldl (adoptDoorway m) s).image = s.image ∧ (l.foldl (adoptDoorway m) s).pending = s.pending := by
  induction l generalizing s with
  | nil => simp
  | cons b l ih => simp [ih]

@[simp] theorem adoptDoors_frame (m : Mem) (s : State) :
    (adoptDoors m s).time = s.time ∧ (adoptDoors m s).sense = s.sense ∧ (adoptDoors m s).pulse = s.pulse ∧
    (adoptDoors m s).dist = s.dist ∧ (adoptDoors m s).analog = s.analog ∧
    (adoptDoors m s).door.age = s.door.age ∧ (adoptDoors m s).door.matureDue = s.door.matureDue ∧
    (adoptDoors m s).warn = s.warn ∧ (adoptDoors m s).out = s.out ∧ (adoptDoors m s).faults = s.faults ∧
    (adoptDoors m s).store = s.store ∧ (adoptDoors m s).link = s.link ∧
    (adoptDoors m s).win.ram = s.win.ram ∧ (adoptDoors m s).win.slots = s.win.slots ∧
    (adoptDoors m s).win.attention = s.win.attention ∧ (adoptDoors m s).win.claims = s.win.claims ∧
    (adoptDoors m s).win.enable = s.win.enable ∧ (adoptDoors m s).win.capture = s.win.capture ∧
    (adoptDoors m s).win.faultCount = s.win.faultCount ∧ (adoptDoors m s).win.softCause = s.win.softCause ∧
    (adoptDoors m s).win.source = s.win.source ∧ (adoptDoors m s).win.ops = s.win.ops ∧
    (adoptDoors m s).win.adoption = s.win.adoption ∧ (adoptDoors m s).win.lastTake = s.win.lastTake ∧
    (adoptDoors m s).win.sdo = s.win.sdo ∧ (adoptDoors m s).image = s.image ∧
    (adoptDoors m s).pending = s.pending := by
  simp [adoptDoors]

/-! ## Pulse Channel Unit -/

@[simp] theorem resetQuick_frame (s : State) :
    (resetQuick s).time = s.time ∧ (resetQuick s).sense = s.sense ∧ (resetQuick s).pulse = s.pulse ∧
    (resetQuick s).dist = s.dist ∧ (resetQuick s).analog.lateAt = s.analog.lateAt ∧
    (resetQuick s).analog.crankHold = s.analog.crankHold ∧
    (resetQuick s).analog.supplyLow = s.analog.supplyLow ∧ (resetQuick s).door = s.door ∧
    (resetQuick s).warn = s.warn ∧ (resetQuick s).out = s.out ∧ (resetQuick s).faults = s.faults ∧
    (resetQuick s).store = s.store ∧ (resetQuick s).link = s.link ∧ (resetQuick s).win = s.win ∧
    (resetQuick s).image = s.image ∧ (resetQuick s).pending = s.pending := by
  simp [resetQuick]

@[simp] theorem handMotion_frame (m : Motion) (s : State) :
    (handMotion m s).time = s.time ∧ (handMotion m s).sense = s.sense ∧ (handMotion m s).pulse = s.pulse ∧
    (handMotion m s).dist = s.dist ∧ (handMotion m s).analog.lateAt = s.analog.lateAt ∧
    (handMotion m s).analog.crankHold = s.analog.crankHold ∧
    (handMotion m s).analog.supplyLow = s.analog.supplyLow ∧
    (handMotion m s).door.doorways = s.door.doorways ∧ (handMotion m s).door.kneel = s.door.kneel ∧
    (handMotion m s).door.ramp = s.door.ramp ∧ (handMotion m s).warn = s.warn ∧
    (handMotion m s).out.arbiter = s.out.arbiter ∧ (handMotion m s).out.supervision = s.out.supervision ∧
    (handMotion m s).faults = s.faults ∧ (handMotion m s).store = s.store ∧
    (handMotion m s).link.inFrame = s.link.inFrame ∧ (handMotion m s).link.counter = s.link.counter ∧
    (handMotion m s).link.shift = s.link.shift ∧ (handMotion m s).link.kind = s.link.kind ∧
    (handMotion m s).link.progress = s.link.progress ∧ (handMotion m s).link.answer = s.link.answer ∧
    (handMotion m s).link.holdNext = s.link.holdNext ∧ (handMotion m s).link.request = s.link.request ∧
    (handMotion m s).link.session = s.link.session ∧
    (handMotion m s).link.sessionTimer = s.link.sessionTimer ∧
    (handMotion m s).win.attention = s.win.attention ∧ (handMotion m s).win.claims = s.win.claims ∧
    (handMotion m s).win.enable = s.win.enable ∧ (handMotion m s).win.capture = s.win.capture ∧
    (handMotion m s).win.faultCount = s.win.faultCount ∧ (handMotion m s).win.softCause = s.win.softCause ∧
    (handMotion m s).win.source = s.win.source ∧ (handMotion m s).win.adoption = s.win.adoption ∧
    (handMotion m s).win.lastTake = s.win.lastTake ∧ (handMotion m s).win.sdo = s.win.sdo ∧
    (handMotion m s).image = s.image ∧ (handMotion m s).pending = s.pending := by
  simp only [handMotion]
  (repeat' split) <;> simp

@[simp] theorem setMotion_frame (m : Motion) (s : State) :
    (setMotion m s).time = s.time ∧ (setMotion m s).sense = s.sense ∧
    (setMotion m s).pulse.lastEdge = s.pulse.lastEdge ∧ (setMotion m s).pulse.count = s.pulse.count ∧
    (setMotion m s).pulse.reference = s.pulse.reference ∧ (setMotion m s).pulse.raw = s.pulse.raw ∧
    (setMotion m s).pulse.displayed = s.pulse.displayed ∧ (setMotion m s).pulse.status = s.pulse.status ∧
    (setMotion m s).pulse.wireBroken = s.pulse.wireBroken ∧
    (setMotion m s).pulse.wireRun = s.pulse.wireRun ∧ (setMotion m s).pulse.acc = s.pulse.acc ∧
    (setMotion m s).pulse.k = s.pulse.k ∧ (setMotion m s).pulse.calValid = s.pulse.calValid ∧
    (setMotion m s).pulse.engineEdge = s.pulse.engineEdge ∧
    (setMotion m s).pulse.engineCount = s.pulse.engineCount ∧
    (setMotion m s).pulse.engineRef = s.pulse.engineRef ∧ (setMotion m s).pulse.rpm = s.pulse.rpm ∧
    (setMotion m s).pulse.running = s.pulse.running ∧ (setMotion m s).dist = s.dist ∧
    (setMotion m s).analog.lateAt = s.analog.lateAt ∧
    (setMotion m s).analog.crankHold = s.analog.crankHold ∧
    (setMotion m s).analog.supplyLow = s.analog.supplyLow ∧
    (setMotion m s).door.doorways = s.door.doorways ∧ (setMotion m s).door.kneel = s.door.kneel ∧
    (setMotion m s).door.ramp = s.door.ramp ∧ (setMotion m s).warn = s.warn ∧
    (setMotion m s).out.arbiter = s.out.arbiter ∧ (setMotion m s).out.supervision = s.out.supervision ∧
    (setMotion m s).faults = s.faults ∧ (setMotion m s).store = s.store ∧
    (setMotion m s).link.inFrame = s.link.inFrame ∧ (setMotion m s).link.counter = s.link.counter ∧
    (setMotion m s).link.shift = s.link.shift ∧ (setMotion m s).link.kind = s.link.kind ∧
    (setMotion m s).link.progress = s.link.progress ∧ (setMotion m s).link.answer = s.link.answer ∧
    (setMotion m s).link.holdNext = s.link.holdNext ∧ (setMotion m s).link.request = s.link.request ∧
    (setMotion m s).link.session = s.link.session ∧
    (setMotion m s).link.sessionTimer = s.link.sessionTimer ∧
    (setMotion m s).win.attention = s.win.attention ∧ (setMotion m s).win.claims = s.win.claims ∧
    (setMotion m s).win.enable = s.win.enable ∧ (setMotion m s).win.capture = s.win.capture ∧
    (setMotion m s).win.faultCount = s.win.faultCount ∧ (setMotion m s).win.softCause = s.win.softCause ∧
    (setMotion m s).win.source = s.win.source ∧ (setMotion m s).win.adoption = s.win.adoption ∧
    (setMotion m s).win.lastTake = s.win.lastTake ∧ (setMotion m s).win.sdo = s.win.sdo ∧
    (setMotion m s).image = s.image ∧ (setMotion m s).pending = s.pending := by
  unfold setMotion
  (repeat' split) <;> simp

@[simp] theorem sourceLost_frame (s : State) :
    (sourceLost s).time = s.time ∧ (sourceLost s).sense = s.sense ∧
    (sourceLost s).pulse.lastEdge = s.pulse.lastEdge ∧
    (sourceLost s).pulse.wireBroken = s.pulse.wireBroken ∧ (sourceLost s).pulse.wireRun = s.pulse.wireRun ∧
    (sourceLost s).pulse.acc = s.pulse.acc ∧ (sourceLost s).pulse.k = s.pulse.k ∧
    (sourceLost s).pulse.calValid = s.pulse.calValid ∧
    (sourceLost s).pulse.engineEdge = s.pulse.engineEdge ∧
    (sourceLost s).pulse.engineCount = s.pulse.engineCount ∧
    (sourceLost s).pulse.engineRef = s.pulse.engineRef ∧ (sourceLost s).pulse.rpm = s.pulse.rpm ∧
    (sourceLost s).pulse.running = s.pulse.running ∧ (sourceLost s).dist = s.dist ∧
    (sourceLost s).analog.lateAt = s.analog.lateAt ∧ (sourceLost s).analog.crankHold = s.analog.crankHold ∧
    (sourceLost s).analog.supplyLow = s.analog.supplyLow ∧ (sourceLost s).door.doorways = s.door.doorways ∧
    (sourceLost s).door.kneel = s.door.kneel ∧ (sourceLost s).door.ramp = s.door.ramp ∧
    (sourceLost s).warn = s.warn ∧ (sourceLost s).out.arbiter = s.out.arbiter ∧
    (sourceLost s).out.supervision = s.out.supervision ∧ (sourceLost s).faults = s.faults ∧
    (sourceLost s).store = s.store ∧ (sourceLost s).link.inFrame = s.link.inFrame ∧
    (sourceLost s).link.counter = s.link.counter ∧ (sourceLost s).link.shift = s.link.shift ∧
    (sourceLost s).link.kind = s.link.kind ∧ (sourceLost s).link.progress = s.link.progress ∧
    (sourceLost s).link.answer = s.link.answer ∧ (sourceLost s).link.holdNext = s.link.holdNext ∧
    (sourceLost s).link.request = s.link.request ∧ (sourceLost s).link.session = s.link.session ∧
    (sourceLost s).link.sessionTimer = s.link.sessionTimer ∧
    (sourceLost s).win.attention = s.win.attention ∧ (sourceLost s).win.claims = s.win.claims ∧
    (sourceLost s).win.enable = s.win.enable ∧ (sourceLost s).win.capture = s.win.capture ∧
    (sourceLost s).win.faultCount = s.win.faultCount ∧ (sourceLost s).win.softCause = s.win.softCause ∧
    (sourceLost s).win.source = s.win.source ∧ (sourceLost s).win.adoption = s.win.adoption ∧
    (sourceLost s).win.lastTake = s.win.lastTake ∧ (sourceLost s).win.sdo = s.win.sdo ∧
    (sourceLost s).image = s.image ∧ (sourceLost s).pending = s.pending := by
  simp [sourceLost, PulseUnit.noSpeed]

@[simp] theorem sourceReturn_frame (s : State) :
    (sourceReturn s).time = s.time ∧ (sourceReturn s).sense = s.sense ∧
    (sourceReturn s).pulse.raw = s.pulse.raw ∧ (sourceReturn s).pulse.displayed = s.pulse.displayed ∧
    (sourceReturn s).pulse.status = s.pulse.status ∧
    (sourceReturn s).pulse.wireBroken = s.pulse.wireBroken ∧
    (sourceReturn s).pulse.wireRun = s.pulse.wireRun ∧ (sourceReturn s).pulse.acc = s.pulse.acc ∧
    (sourceReturn s).pulse.k = s.pulse.k ∧ (sourceReturn s).pulse.calValid = s.pulse.calValid ∧
    (sourceReturn s).pulse.engineEdge = s.pulse.engineEdge ∧
    (sourceReturn s).pulse.engineCount = s.pulse.engineCount ∧
    (sourceReturn s).pulse.engineRef = s.pulse.engineRef ∧ (sourceReturn s).pulse.rpm = s.pulse.rpm ∧
    (sourceReturn s).pulse.running = s.pulse.running ∧ (sourceReturn s).dist = s.dist ∧
    (sourceReturn s).analog.lateAt = s.analog.lateAt ∧
    (sourceReturn s).analog.crankHold = s.analog.crankHold ∧
    (sourceReturn s).analog.supplyLow = s.analog.supplyLow ∧
    (sourceReturn s).door.doorways = s.door.doorways ∧ (sourceReturn s).door.kneel = s.door.kneel ∧
    (sourceReturn s).door.ramp = s.door.ramp ∧ (sourceReturn s).warn = s.warn ∧
    (sourceReturn s).out.arbiter = s.out.arbiter ∧ (sourceReturn s).out.supervision = s.out.supervision ∧
    (sourceReturn s).faults = s.faults ∧ (sourceReturn s).store = s.store ∧
    (sourceReturn s).link.inFrame = s.link.inFrame ∧ (sourceReturn s).link.counter = s.link.counter ∧
    (sourceReturn s).link.shift = s.link.shift ∧ (sourceReturn s).link.kind = s.link.kind ∧
    (sourceReturn s).link.progress = s.link.progress ∧ (sourceReturn s).link.answer = s.link.answer ∧
    (sourceReturn s).link.holdNext = s.link.holdNext ∧ (sourceReturn s).link.request = s.link.request ∧
    (sourceReturn s).link.session = s.link.session ∧
    (sourceReturn s).link.sessionTimer = s.link.sessionTimer ∧
    (sourceReturn s).win.attention = s.win.attention ∧ (sourceReturn s).win.claims = s.win.claims ∧
    (sourceReturn s).win.enable = s.win.enable ∧ (sourceReturn s).win.capture = s.win.capture ∧
    (sourceReturn s).win.faultCount = s.win.faultCount ∧ (sourceReturn s).win.softCause = s.win.softCause ∧
    (sourceReturn s).win.source = s.win.source ∧ (sourceReturn s).win.adoption = s.win.adoption ∧
    (sourceReturn s).win.lastTake = s.win.lastTake ∧ (sourceReturn s).win.sdo = s.win.sdo ∧
    (sourceReturn s).image = s.image ∧ (sourceReturn s).pending = s.pending := by
  simp [sourceReturn]

@[simp] theorem sampleWire_frame (b : Bool) (s : State) :
    (sampleWire b s).time = s.time ∧ (sampleWire b s).sense = s.sense ∧
    (sampleWire b s).pulse.acc = s.pulse.acc ∧ (sampleWire b s).pulse.k = s.pulse.k ∧
    (sampleWire b s).pulse.calValid = s.pulse.calValid ∧
    (sampleWire b s).pulse.engineEdge = s.pulse.engineEdge ∧
    (sampleWire b s).pulse.engineCount = s.pulse.engineCount ∧
    (sampleWire b s).pulse.engineRef = s.pulse.engineRef ∧ (sampleWire b s).pulse.rpm = s.pulse.rpm ∧
    (sampleWire b s).pulse.running = s.pulse.running ∧ (sampleWire b s).dist = s.dist ∧
    (sampleWire b s).analog.lateAt = s.analog.lateAt ∧
    (sampleWire b s).analog.crankHold = s.analog.crankHold ∧
    (sampleWire b s).analog.supplyLow = s.analog.supplyLow ∧
    (sampleWire b s).door.doorways = s.door.doorways ∧ (sampleWire b s).door.kneel = s.door.kneel ∧
    (sampleWire b s).door.ramp = s.door.ramp ∧ (sampleWire b s).warn = s.warn ∧
    (sampleWire b s).out.arbiter = s.out.arbiter ∧ (sampleWire b s).out.supervision = s.out.supervision ∧
    (sampleWire b s).faults = s.faults ∧ (sampleWire b s).store = s.store ∧
    (sampleWire b s).link.inFrame = s.link.inFrame ∧ (sampleWire b s).link.counter = s.link.counter ∧
    (sampleWire b s).link.shift = s.link.shift ∧ (sampleWire b s).link.kind = s.link.kind ∧
    (sampleWire b s).link.progress = s.link.progress ∧ (sampleWire b s).link.answer = s.link.answer ∧
    (sampleWire b s).link.holdNext = s.link.holdNext ∧ (sampleWire b s).link.request = s.link.request ∧
    (sampleWire b s).link.session = s.link.session ∧
    (sampleWire b s).link.sessionTimer = s.link.sessionTimer ∧
    (sampleWire b s).win.attention = s.win.attention ∧ (sampleWire b s).win.claims = s.win.claims ∧
    (sampleWire b s).win.enable = s.win.enable ∧ (sampleWire b s).win.capture = s.win.capture ∧
    (sampleWire b s).win.faultCount = s.win.faultCount ∧ (sampleWire b s).win.softCause = s.win.softCause ∧
    (sampleWire b s).win.source = s.win.source ∧ (sampleWire b s).win.adoption = s.win.adoption ∧
    (sampleWire b s).win.lastTake = s.win.lastTake ∧ (sampleWire b s).win.sdo = s.win.sdo ∧
    (sampleWire b s).image = s.image ∧ (sampleWire b s).pending = s.pending := by
  simp only [sampleWire]
  (repeat' split) <;> simp

@[simp] theorem brakeProxy_frame (s : State) :
    (brakeProxy s).time = s.time ∧ (brakeProxy s).sense = s.sense ∧
    (brakeProxy s).pulse.lastEdge = s.pulse.lastEdge ∧ (brakeProxy s).pulse.count = s.pulse.count ∧
    (brakeProxy s).pulse.reference = s.pulse.reference ∧ (brakeProxy s).pulse.raw = s.pulse.raw ∧
    (brakeProxy s).pulse.displayed = s.pulse.displayed ∧ (brakeProxy s).pulse.status = s.pulse.status ∧
    (brakeProxy s).pulse.wireBroken = s.pulse.wireBroken ∧ (brakeProxy s).pulse.wireRun = s.pulse.wireRun ∧
    (brakeProxy s).pulse.acc = s.pulse.acc ∧ (brakeProxy s).pulse.k = s.pulse.k ∧
    (brakeProxy s).pulse.calValid = s.pulse.calValid ∧
    (brakeProxy s).pulse.engineEdge = s.pulse.engineEdge ∧
    (brakeProxy s).pulse.engineCount = s.pulse.engineCount ∧
    (brakeProxy s).pulse.engineRef = s.pulse.engineRef ∧ (brakeProxy s).pulse.rpm = s.pulse.rpm ∧
    (brakeProxy s).pulse.running = s.pulse.running ∧ (brakeProxy s).dist = s.dist ∧
    (brakeProxy s).analog.lateAt = s.analog.lateAt ∧ (brakeProxy s).analog.crankHold = s.analog.crankHold ∧
    (brakeProxy s).analog.supplyLow = s.analog.supplyLow ∧ (brakeProxy s).door.doorways = s.door.doorways ∧
    (brakeProxy s).door.kneel = s.door.kneel ∧ (brakeProxy s).door.ramp = s.door.ramp ∧
    (brakeProxy s).warn = s.warn ∧ (brakeProxy s).out.arbiter = s.out.arbiter ∧
    (brakeProxy s).out.supervision = s.out.supervision ∧ (brakeProxy s).faults = s.faults ∧
    (brakeProxy s).store = s.store ∧ (brakeProxy s).link.inFrame = s.link.inFrame ∧
    (brakeProxy s).link.counter = s.link.counter ∧ (brakeProxy s).link.shift = s.link.shift ∧
    (brakeProxy s).link.kind = s.link.kind ∧ (brakeProxy s).link.progress = s.link.progress ∧
    (brakeProxy s).link.answer = s.link.answer ∧ (brakeProxy s).link.holdNext = s.link.holdNext ∧
    (brakeProxy s).link.request = s.link.request ∧ (brakeProxy s).link.session = s.link.session ∧
    (brakeProxy s).link.sessionTimer = s.link.sessionTimer ∧
    (brakeProxy s).win.attention = s.win.attention ∧ (brakeProxy s).win.claims = s.win.claims ∧
    (brakeProxy s).win.enable = s.win.enable ∧ (brakeProxy s).win.capture = s.win.capture ∧
    (brakeProxy s).win.faultCount = s.win.faultCount ∧ (brakeProxy s).win.softCause = s.win.softCause ∧
    (brakeProxy s).win.source = s.win.source ∧ (brakeProxy s).win.adoption = s.win.adoption ∧
    (brakeProxy s).win.lastTake = s.win.lastTake ∧ (brakeProxy s).win.sdo = s.win.sdo ∧
    (brakeProxy s).image = s.image ∧ (brakeProxy s).pending = s.pending := by
  unfold brakeProxy
  (repeat' split) <;> simp

@[simp] theorem takeK_frame (k : Nat) (s : State) :
    (takeK k s).time = s.time ∧ (takeK k s).sense = s.sense ∧ (takeK k s).pulse.raw = s.pulse.raw ∧
    (takeK k s).pulse.displayed = s.pulse.displayed ∧ (takeK k s).pulse.status = s.pulse.status ∧
    (takeK k s).pulse.wireBroken = s.pulse.wireBroken ∧ (takeK k s).pulse.wireRun = s.pulse.wireRun ∧
    (takeK k s).pulse.engineEdge = s.pulse.engineEdge ∧
    (takeK k s).pulse.engineCount = s.pulse.engineCount ∧ (takeK k s).pulse.engineRef = s.pulse.engineRef ∧
    (takeK k s).pulse.rpm = s.pulse.rpm ∧ (takeK k s).pulse.running = s.pulse.running ∧
    (takeK k s).dist = s.dist ∧ (takeK k s).analog.lateAt = s.analog.lateAt ∧
    (takeK k s).analog.crankHold = s.analog.crankHold ∧ (takeK k s).analog.supplyLow = s.analog.supplyLow ∧
    (takeK k s).door.doorways = s.door.doorways ∧ (takeK k s).door.kneel = s.door.kneel ∧
    (takeK k s).door.ramp = s.door.ramp ∧ (takeK k s).warn = s.warn ∧
    (takeK k s).out.arbiter = s.out.arbiter ∧ (takeK k s).out.supervision = s.out.supervision ∧
    (takeK k s).faults = s.faults ∧ (takeK k s).store = s.store ∧
    (takeK k s).link.inFrame = s.link.inFrame ∧ (takeK k s).link.counter = s.link.counter ∧
    (takeK k s).link.shift = s.link.shift ∧ (takeK k s).link.kind = s.link.kind ∧
    (takeK k s).link.progress = s.link.progress ∧ (takeK k s).link.answer = s.link.answer ∧
    (takeK k s).link.holdNext = s.link.holdNext ∧ (takeK k s).link.request = s.link.request ∧
    (takeK k s).link.session = s.link.session ∧ (takeK k s).link.sessionTimer = s.link.sessionTimer ∧
    (takeK k s).win.attention = s.win.attention ∧ (takeK k s).win.claims = s.win.claims ∧
    (takeK k s).win.enable = s.win.enable ∧ (takeK k s).win.capture = s.win.capture ∧
    (takeK k s).win.faultCount = s.win.faultCount ∧ (takeK k s).win.softCause = s.win.softCause ∧
    (takeK k s).win.source = s.win.source ∧ (takeK k s).win.adoption = s.win.adoption ∧
    (takeK k s).win.lastTake = s.win.lastTake ∧ (takeK k s).win.sdo = s.win.sdo ∧
    (takeK k s).image = s.image ∧ (takeK k s).pending = s.pending := by
  simp only [takeK]
  (repeat' split) <;> simp

@[simp] theorem evaluateRoad_frame (s : State) :
    (evaluateRoad s).time = s.time ∧ (evaluateRoad s).sense = s.sense ∧ (evaluateRoad s).dist = s.dist ∧
    (evaluateRoad s).analog.lateAt = s.analog.lateAt ∧
    (evaluateRoad s).analog.crankHold = s.analog.crankHold ∧
    (evaluateRoad s).analog.supplyLow = s.analog.supplyLow ∧
    (evaluateRoad s).door.doorways = s.door.doorways ∧ (evaluateRoad s).door.kneel = s.door.kneel ∧
    (evaluateRoad s).door.ramp = s.door.ramp ∧ (evaluateRoad s).warn = s.warn ∧
    (evaluateRoad s).out.arbiter = s.out.arbiter ∧ (evaluateRoad s).out.supervision = s.out.supervision ∧
    (evaluateRoad s).faults = s.faults ∧ (evaluateRoad s).store = s.store ∧
    (evaluateRoad s).link.inFrame = s.link.inFrame ∧ (evaluateRoad s).link.counter = s.link.counter ∧
    (evaluateRoad s).link.shift = s.link.shift ∧ (evaluateRoad s).link.kind = s.link.kind ∧
    (evaluateRoad s).link.progress = s.link.progress ∧ (evaluateRoad s).link.answer = s.link.answer ∧
    (evaluateRoad s).link.holdNext = s.link.holdNext ∧ (evaluateRoad s).link.request = s.link.request ∧
    (evaluateRoad s).link.session = s.link.session ∧
    (evaluateRoad s).link.sessionTimer = s.link.sessionTimer ∧
    (evaluateRoad s).win.attention = s.win.attention ∧ (evaluateRoad s).win.claims = s.win.claims ∧
    (evaluateRoad s).win.enable = s.win.enable ∧ (evaluateRoad s).win.capture = s.win.capture ∧
    (evaluateRoad s).win.faultCount = s.win.faultCount ∧ (evaluateRoad s).win.softCause = s.win.softCause ∧
    (evaluateRoad s).win.source = s.win.source ∧ (evaluateRoad s).win.adoption = s.win.adoption ∧
    (evaluateRoad s).win.lastTake = s.win.lastTake ∧ (evaluateRoad s).win.sdo = s.win.sdo ∧
    (evaluateRoad s).image = s.image ∧ (evaluateRoad s).pending = s.pending := by
  simp only [evaluateRoad]
  (repeat' split) <;> simp

@[simp] theorem evaluateEngine_frame (s : State) :
    (evaluateEngine s).time = s.time ∧ (evaluateEngine s).sense = s.sense ∧
    (evaluateEngine s).dist = s.dist ∧ (evaluateEngine s).analog = s.analog ∧
    (evaluateEngine s).door = s.door ∧ (evaluateEngine s).warn = s.warn ∧ (evaluateEngine s).out = s.out ∧
    (evaluateEngine s).faults = s.faults ∧ (evaluateEngine s).store = s.store ∧
    (evaluateEngine s).link = s.link ∧ (evaluateEngine s).win = s.win ∧
    (evaluateEngine s).image = s.image ∧ (evaluateEngine s).pending = s.pending := by
  simp [evaluateEngine]

/-! ## Distance Counter -/

@[simp] theorem saveTrigger_frame (s : State) :
    (saveTrigger s).time = s.time ∧ (saveTrigger s).sense = s.sense ∧ (saveTrigger s).pulse = s.pulse ∧
    (saveTrigger s).dist.live = s.dist.live ∧ (saveTrigger s).dist.lost = s.dist.lost ∧
    (saveTrigger s).dist.retained = s.dist.retained ∧ (saveTrigger s).dist.nextSlot = s.dist.nextSlot ∧
    (saveTrigger s).dist.writeCounts = s.dist.writeCounts ∧ (saveTrigger s).dist.tripA = s.dist.tripA ∧
    (saveTrigger s).dist.tripB = s.dist.tripB ∧ (saveTrigger s).dist.watch = s.dist.watch ∧
    (saveTrigger s).dist.preset = s.dist.preset ∧ (saveTrigger s).dist.kfactor = s.dist.kfactor ∧
    (saveTrigger s).analog = s.analog ∧ (saveTrigger s).door = s.door ∧ (saveTrigger s).warn = s.warn ∧
    (saveTrigger s).out = s.out ∧ (saveTrigger s).faults = s.faults ∧
    (saveTrigger s).store.array = s.store.array ∧ (saveTrigger s).store.job = s.store.job ∧
    (saveTrigger s).store.notRetained = s.store.notRetained ∧
    (saveTrigger s).store.configCount = s.store.configCount ∧ (saveTrigger s).link = s.link ∧
    (saveTrigger s).win = s.win ∧ (saveTrigger s).image = s.image ∧ (saveTrigger s).pending = s.pending := by
  simp [saveTrigger]

@[simp] theorem distanceTick_frame (s : State) :
    (distanceTick s).time = s.time ∧ (distanceTick s).sense = s.sense ∧ (distanceTick s).pulse = s.pulse ∧
    (distanceTick s).dist.lost = s.dist.lost ∧ (distanceTick s).dist.retained = s.dist.retained ∧
    (distanceTick s).dist.nextSlot = s.dist.nextSlot ∧
    (distanceTick s).dist.writeCounts = s.dist.writeCounts ∧ (distanceTick s).dist.watch = s.dist.watch ∧
    (distanceTick s).dist.preset = s.dist.preset ∧ (distanceTick s).dist.kfactor = s.dist.kfactor ∧
    (distanceTick s).analog = s.analog ∧ (distanceTick s).door = s.door ∧ (distanceTick s).warn = s.warn ∧
    (distanceTick s).out = s.out ∧ (distanceTick s).faults = s.faults ∧
    (distanceTick s).store.array = s.store.array ∧ (distanceTick s).store.job = s.store.job ∧
    (distanceTick s).store.notRetained = s.store.notRetained ∧
    (distanceTick s).store.configCount = s.store.configCount ∧ (distanceTick s).link = s.link ∧
    (distanceTick s).win = s.win ∧ (distanceTick s).image = s.image ∧ (distanceTick s).pending = s.pending := by
  simp only [distanceTick, Distance.tick]
  (repeat' split) <;> simp

@[simp] theorem acceptPulseV_frame (s : State) :
    (acceptPulseV s).time = s.time ∧ (acceptPulseV s).sense = s.sense ∧
    (acceptPulseV s).pulse.reference = s.pulse.reference ∧ (acceptPulseV s).pulse.raw = s.pulse.raw ∧
    (acceptPulseV s).pulse.displayed = s.pulse.displayed ∧ (acceptPulseV s).pulse.status = s.pulse.status ∧
    (acceptPulseV s).pulse.motion = s.pulse.motion ∧
    (acceptPulseV s).pulse.standstillAt = s.pulse.standstillAt ∧
    (acceptPulseV s).pulse.wireBroken = s.pulse.wireBroken ∧
    (acceptPulseV s).pulse.wireRun = s.pulse.wireRun ∧ (acceptPulseV s).pulse.k = s.pulse.k ∧
    (acceptPulseV s).pulse.calValid = s.pulse.calValid ∧
    (acceptPulseV s).pulse.engineEdge = s.pulse.engineEdge ∧
    (acceptPulseV s).pulse.engineCount = s.pulse.engineCount ∧
    (acceptPulseV s).pulse.engineRef = s.pulse.engineRef ∧ (acceptPulseV s).pulse.rpm = s.pulse.rpm ∧
    (acceptPulseV s).pulse.running = s.pulse.running ∧ (acceptPulseV s).dist.lost = s.dist.lost ∧
    (acceptPulseV s).dist.retained = s.dist.retained ∧ (acceptPulseV s).dist.nextSlot = s.dist.nextSlot ∧
    (acceptPulseV s).dist.writeCounts = s.dist.writeCounts ∧ (acceptPulseV s).dist.watch = s.dist.watch ∧
    (acceptPulseV s).dist.preset = s.dist.preset ∧ (acceptPulseV s).dist.kfactor = s.dist.kfactor ∧
    (acceptPulseV s).analog = s.analog ∧ (acceptPulseV s).door = s.door ∧ (acceptPulseV s).warn = s.warn ∧
    (acceptPulseV s).out = s.out ∧ (acceptPulseV s).faults = s.faults ∧
    (acceptPulseV s).store.array = s.store.array ∧ (acceptPulseV s).store.job = s.store.job ∧
    (acceptPulseV s).store.notRetained = s.store.notRetained ∧
    (acceptPulseV s).store.configCount = s.store.configCount ∧ (acceptPulseV s).link = s.link ∧
    (acceptPulseV s).win = s.win ∧ (acceptPulseV s).image = s.image ∧ (acceptPulseV s).pending = s.pending := by
  simp only [acceptPulseV]
  (repeat' split) <;> simp

@[simp] theorem tripJobs_frame (b : State) (s : State) :
    (tripJobs b s).time = s.time ∧ (tripJobs b s).sense = s.sense ∧ (tripJobs b s).pulse = s.pulse ∧
    (tripJobs b s).dist = s.dist ∧ (tripJobs b s).analog = s.analog ∧ (tripJobs b s).door = s.door ∧
    (tripJobs b s).warn = s.warn ∧ (tripJobs b s).out = s.out ∧ (tripJobs b s).faults = s.faults ∧
    (tripJobs b s).store.array = s.store.array ∧ (tripJobs b s).store.job = s.store.job ∧
    (tripJobs b s).store.notRetained = s.store.notRetained ∧
    (tripJobs b s).store.configCount = s.store.configCount ∧ (tripJobs b s).link = s.link ∧
    (tripJobs b s).win = s.win ∧ (tripJobs b s).image = s.image ∧ (tripJobs b s).pending = s.pending := by
  simp only [tripJobs]
  (repeat' split) <;> simp

@[simp] theorem takeTrips_frame (a b : TripAction) (s : State) :
    (takeTrips a b s).time = s.time ∧ (takeTrips a b s).sense = s.sense ∧
    (takeTrips a b s).pulse = s.pulse ∧ (takeTrips a b s).dist.live = s.dist.live ∧
    (takeTrips a b s).dist.lost = s.dist.lost ∧ (takeTrips a b s).dist.retained = s.dist.retained ∧
    (takeTrips a b s).dist.ticks = s.dist.ticks ∧ (takeTrips a b s).dist.nextSlot = s.dist.nextSlot ∧
    (takeTrips a b s).dist.writeCounts = s.dist.writeCounts ∧ (takeTrips a b s).dist.watch = s.dist.watch ∧
    (takeTrips a b s).dist.preset = s.dist.preset ∧ (takeTrips a b s).dist.kfactor = s.dist.kfactor ∧
    (takeTrips a b s).analog = s.analog ∧ (takeTrips a b s).door = s.door ∧
    (takeTrips a b s).warn = s.warn ∧ (takeTrips a b s).out = s.out ∧ (takeTrips a b s).faults = s.faults ∧
    (takeTrips a b s).store.array = s.store.array ∧ (takeTrips a b s).store.job = s.store.job ∧
    (takeTrips a b s).store.notRetained = s.store.notRetained ∧
    (takeTrips a b s).store.configCount = s.store.configCount ∧ (takeTrips a b s).link = s.link ∧
    (takeTrips a b s).win = s.win ∧ (takeTrips a b s).image = s.image ∧
    (takeTrips a b s).pending = s.pending := by
  simp [takeTrips]

@[simp] theorem watchSupply_frame (v : Int) (s : State) :
    (watchSupply v s).time = s.time ∧ (watchSupply v s).sense = s.sense ∧
    (watchSupply v s).pulse = s.pulse ∧ (watchSupply v s).dist.live = s.dist.live ∧
    (watchSupply v s).dist.lost = s.dist.lost ∧ (watchSupply v s).dist.retained = s.dist.retained ∧
    (watchSupply v s).dist.ticks = s.dist.ticks ∧ (watchSupply v s).dist.nextSlot = s.dist.nextSlot ∧
    (watchSupply v s).dist.writeCounts = s.dist.writeCounts ∧ (watchSupply v s).dist.tripA = s.dist.tripA ∧
    (watchSupply v s).dist.tripB = s.dist.tripB ∧ (watchSupply v s).dist.preset = s.dist.preset ∧
    (watchSupply v s).dist.kfactor = s.dist.kfactor ∧ (watchSupply v s).analog = s.analog ∧
    (watchSupply v s).door = s.door ∧ (watchSupply v s).warn = s.warn ∧ (watchSupply v s).out = s.out ∧
    (watchSupply v s).faults = s.faults ∧ (watchSupply v s).store = s.store ∧
    (watchSupply v s).link = s.link ∧ (watchSupply v s).win = s.win ∧ (watchSupply v s).image = s.image ∧
    (watchSupply v s).pending = s.pending := by
  simp [watchSupply]

@[simp] theorem watchExpiry_frame (s : State) :
    (watchExpiry s).time = s.time ∧ (watchExpiry s).sense = s.sense ∧ (watchExpiry s).pulse = s.pulse ∧
    (watchExpiry s).dist.live = s.dist.live ∧ (watchExpiry s).dist.lost = s.dist.lost ∧
    (watchExpiry s).dist.retained = s.dist.retained ∧ (watchExpiry s).dist.nextSlot = s.dist.nextSlot ∧
    (watchExpiry s).dist.writeCounts = s.dist.writeCounts ∧ (watchExpiry s).dist.tripA = s.dist.tripA ∧
    (watchExpiry s).dist.tripB = s.dist.tripB ∧ (watchExpiry s).dist.preset = s.dist.preset ∧
    (watchExpiry s).dist.kfactor = s.dist.kfactor ∧ (watchExpiry s).analog = s.analog ∧
    (watchExpiry s).door = s.door ∧ (watchExpiry s).warn = s.warn ∧ (watchExpiry s).out = s.out ∧
    (watchExpiry s).faults = s.faults ∧ (watchExpiry s).store.array = s.store.array ∧
    (watchExpiry s).store.job = s.store.job ∧ (watchExpiry s).store.notRetained = s.store.notRetained ∧
    (watchExpiry s).store.configCount = s.store.configCount ∧ (watchExpiry s).link = s.link ∧
    (watchExpiry s).win = s.win ∧ (watchExpiry s).image = s.image ∧ (watchExpiry s).pending = s.pending := by
  unfold watchExpiry
  (repeat' split) <;> simp

@[simp] theorem takePreset_frame (x : Side) (v : Nat) (s : State) :
    (takePreset x v s).time = s.time ∧ (takePreset x v s).sense = s.sense ∧
    (takePreset x v s).pulse = s.pulse ∧ (takePreset x v s).dist.retained = s.dist.retained ∧
    (takePreset x v s).dist.nextSlot = s.dist.nextSlot ∧
    (takePreset x v s).dist.writeCounts = s.dist.writeCounts ∧
    (takePreset x v s).dist.tripA = s.dist.tripA ∧ (takePreset x v s).dist.tripB = s.dist.tripB ∧
    (takePreset x v s).dist.watch = s.dist.watch ∧ (takePreset x v s).dist.kfactor = s.dist.kfactor ∧
    (takePreset x v s).analog = s.analog ∧ (takePreset x v s).door = s.door ∧
    (takePreset x v s).warn = s.warn ∧ (takePreset x v s).out = s.out ∧
    (takePreset x v s).faults = s.faults ∧ (takePreset x v s).store.array = s.store.array ∧
    (takePreset x v s).store.job = s.store.job ∧
    (takePreset x v s).store.notRetained = s.store.notRetained ∧
    (takePreset x v s).store.configCount = s.store.configCount ∧ (takePreset x v s).link = s.link ∧
    (takePreset x v s).win = s.win ∧ (takePreset x v s).image = s.image ∧
    (takePreset x v s).pending = s.pending := by
  simp [takePreset]

@[simp] theorem takeKFactor_frame (x : Side) (k : Nat) (s : State) :
    (takeKFactor x k s).time = s.time ∧ (takeKFactor x k s).sense = s.sense ∧
    (takeKFactor x k s).pulse.raw = s.pulse.raw ∧ (takeKFactor x k s).pulse.displayed = s.pulse.displayed ∧
    (takeKFactor x k s).pulse.status = s.pulse.status ∧
    (takeKFactor x k s).pulse.wireBroken = s.pulse.wireBroken ∧
    (takeKFactor x k s).pulse.wireRun = s.pulse.wireRun ∧
    (takeKFactor x k s).pulse.engineEdge = s.pulse.engineEdge ∧
    (takeKFactor x k s).pulse.engineCount = s.pulse.engineCount ∧
    (takeKFactor x k s).pulse.engineRef = s.pulse.engineRef ∧ (takeKFactor x k s).pulse.rpm = s.pulse.rpm ∧
    (takeKFactor x k s).pulse.running = s.pulse.running ∧ (takeKFactor x k s).dist.live = s.dist.live ∧
    (takeKFactor x k s).dist.lost = s.dist.lost ∧ (takeKFactor x k s).dist.retained = s.dist.retained ∧
    (takeKFactor x k s).dist.ticks = s.dist.ticks ∧ (takeKFactor x k s).dist.nextSlot = s.dist.nextSlot ∧
    (takeKFactor x k s).dist.writeCounts = s.dist.writeCounts ∧
    (takeKFactor x k s).dist.tripA = s.dist.tripA ∧ (takeKFactor x k s).dist.tripB = s.dist.tripB ∧
    (takeKFactor x k s).dist.watch = s.dist.watch ∧ (takeKFactor x k s).dist.preset = s.dist.preset ∧
    (takeKFactor x k s).analog.lateAt = s.analog.lateAt ∧
    (takeKFactor x k s).analog.crankHold = s.analog.crankHold ∧
    (takeKFactor x k s).analog.supplyLow = s.analog.supplyLow ∧
    (takeKFactor x k s).door.doorways = s.door.doorways ∧ (takeKFactor x k s).door.kneel = s.door.kneel ∧
    (takeKFactor x k s).door.ramp = s.door.ramp ∧ (takeKFactor x k s).warn = s.warn ∧
    (takeKFactor x k s).out.arbiter = s.out.arbiter ∧
    (takeKFactor x k s).out.supervision = s.out.supervision ∧ (takeKFactor x k s).faults = s.faults ∧
    (takeKFactor x k s).store.array = s.store.array ∧ (takeKFactor x k s).store.job = s.store.job ∧
    (takeKFactor x k s).store.notRetained = s.store.notRetained ∧
    (takeKFactor x k s).store.configCount = s.store.configCount ∧
    (takeKFactor x k s).link.inFrame = s.link.inFrame ∧ (takeKFactor x k s).link.counter = s.link.counter ∧
    (takeKFactor x k s).link.shift = s.link.shift ∧ (takeKFactor x k s).link.kind = s.link.kind ∧
    (takeKFactor x k s).link.progress = s.link.progress ∧ (takeKFactor x k s).link.answer = s.link.answer ∧
    (takeKFactor x k s).link.holdNext = s.link.holdNext ∧
    (takeKFactor x k s).link.request = s.link.request ∧ (takeKFactor x k s).link.session = s.link.session ∧
    (takeKFactor x k s).link.sessionTimer = s.link.sessionTimer ∧
    (takeKFactor x k s).win.attention = s.win.attention ∧ (takeKFactor x k s).win.claims = s.win.claims ∧
    (takeKFactor x k s).win.enable = s.win.enable ∧ (takeKFactor x k s).win.capture = s.win.capture ∧
    (takeKFactor x k s).win.faultCount = s.win.faultCount ∧
    (takeKFactor x k s).win.softCause = s.win.softCause ∧ (takeKFactor x k s).win.source = s.win.source ∧
    (takeKFactor x k s).win.adoption = s.win.adoption ∧ (takeKFactor x k s).win.lastTake = s.win.lastTake ∧
    (takeKFactor x k s).win.sdo = s.win.sdo ∧ (takeKFactor x k s).image = s.image ∧
    (takeKFactor x k s).pending = s.pending := by
  simp [takeKFactor]

/-! ## Analog Channel Unit -/

@[simp] theorem sampleInputs_frame (v : Vector Sample 6) (s : State) :
    (sampleInputs v s).time = s.time ∧ (sampleInputs v s).sense = s.sense ∧
    (sampleInputs v s).pulse = s.pulse ∧ (sampleInputs v s).dist = s.dist ∧
    (sampleInputs v s).analog.crankHold = s.analog.crankHold ∧
    (sampleInputs v s).analog.supplyLow = s.analog.supplyLow ∧ (sampleInputs v s).door = s.door ∧
    (sampleInputs v s).warn = s.warn ∧ (sampleInputs v s).out = s.out ∧
    (sampleInputs v s).faults = s.faults ∧ (sampleInputs v s).store = s.store ∧
    (sampleInputs v s).link = s.link ∧ (sampleInputs v s).win = s.win ∧
    (sampleInputs v s).image = s.image ∧ (sampleInputs v s).pending = s.pending := by
  simp [sampleInputs]

@[simp] theorem closeGroups_frame (s : State) :
    (closeGroups s).time = s.time ∧ (closeGroups s).sense = s.sense ∧ (closeGroups s).pulse = s.pulse ∧
    (closeGroups s).dist = s.dist ∧ (closeGroups s).analog.lateAt = s.analog.lateAt ∧
    (closeGroups s).analog.crankHold = s.analog.crankHold ∧
    (closeGroups s).analog.supplyLow = s.analog.supplyLow ∧ (closeGroups s).door = s.door ∧
    (closeGroups s).warn = s.warn ∧ (closeGroups s).out = s.out ∧ (closeGroups s).faults = s.faults ∧
    (closeGroups s).store = s.store ∧ (closeGroups s).link = s.link ∧ (closeGroups s).win = s.win ∧
    (closeGroups s).image = s.image ∧ (closeGroups s).pending = s.pending := by
  simp [closeGroups]

@[simp] theorem judgeSupply_frame (s : State) :
    (judgeSupply s).time = s.time ∧ (judgeSupply s).sense = s.sense ∧ (judgeSupply s).pulse = s.pulse ∧
    (judgeSupply s).dist = s.dist ∧ (judgeSupply s).analog.lateAt = s.analog.lateAt ∧
    (judgeSupply s).door = s.door ∧ (judgeSupply s).warn = s.warn ∧ (judgeSupply s).out = s.out ∧
    (judgeSupply s).faults = s.faults ∧ (judgeSupply s).store = s.store ∧ (judgeSupply s).link = s.link ∧
    (judgeSupply s).win = s.win ∧ (judgeSupply s).image = s.image ∧ (judgeSupply s).pending = s.pending := by
  simp [judgeSupply]

@[simp] theorem judgeSenders_frame (b : Bool) (s : State) :
    (judgeSenders b s).time = s.time ∧ (judgeSenders b s).sense = s.sense ∧
    (judgeSenders b s).pulse = s.pulse ∧ (judgeSenders b s).dist = s.dist ∧
    (judgeSenders b s).analog.lateAt = s.analog.lateAt ∧
    (judgeSenders b s).analog.crankHold = s.analog.crankHold ∧
    (judgeSenders b s).analog.supplyLow = s.analog.supplyLow ∧ (judgeSenders b s).door = s.door ∧
    (judgeSenders b s).warn = s.warn ∧ (judgeSenders b s).out = s.out ∧
    (judgeSenders b s).faults = s.faults ∧ (judgeSenders b s).store = s.store ∧
    (judgeSenders b s).link = s.link ∧ (judgeSenders b s).win = s.win ∧
    (judgeSenders b s).image = s.image ∧ (judgeSenders b s).pending = s.pending := by
  simp [judgeSenders]

@[simp] theorem judgeAnalog_frame (s : State) :
    (judgeAnalog s).time = s.time ∧ (judgeAnalog s).sense = s.sense ∧ (judgeAnalog s).pulse = s.pulse ∧
    (judgeAnalog s).dist = s.dist ∧ (judgeAnalog s).analog.lateAt = s.analog.lateAt ∧
    (judgeAnalog s).door = s.door ∧ (judgeAnalog s).warn = s.warn ∧ (judgeAnalog s).out = s.out ∧
    (judgeAnalog s).faults = s.faults ∧ (judgeAnalog s).store = s.store ∧ (judgeAnalog s).link = s.link ∧
    (judgeAnalog s).win = s.win ∧ (judgeAnalog s).image = s.image ∧ (judgeAnalog s).pending = s.pending := by
  simp [judgeAnalog]

@[simp] theorem holdExpiry_frame (n : Fin 5) (s : State) :
    (holdExpiry n s).time = s.time ∧ (holdExpiry n s).sense = s.sense ∧ (holdExpiry n s).pulse = s.pulse ∧
    (holdExpiry n s).dist = s.dist ∧ (holdExpiry n s).analog.lateAt = s.analog.lateAt ∧
    (holdExpiry n s).analog.crankHold = s.analog.crankHold ∧
    (holdExpiry n s).analog.supplyLow = s.analog.supplyLow ∧ (holdExpiry n s).door = s.door ∧
    (holdExpiry n s).warn = s.warn ∧ (holdExpiry n s).out = s.out ∧ (holdExpiry n s).faults = s.faults ∧
    (holdExpiry n s).store = s.store ∧ (holdExpiry n s).link = s.link ∧ (holdExpiry n s).win = s.win ∧
    (holdExpiry n s).image = s.image ∧ (holdExpiry n s).pending = s.pending := by
  simp only [holdExpiry]
  (repeat' split) <;> simp

@[simp] theorem tickHolds_frame (s : State) :
    (tickHolds s).time = s.time ∧ (tickHolds s).sense = s.sense ∧ (tickHolds s).pulse = s.pulse ∧
    (tickHolds s).dist = s.dist ∧ (tickHolds s).analog.lateAt = s.analog.lateAt ∧
    (tickHolds s).analog.crankHold = s.analog.crankHold ∧
    (tickHolds s).analog.supplyLow = s.analog.supplyLow ∧ (tickHolds s).door = s.door ∧
    (tickHolds s).warn = s.warn ∧ (tickHolds s).out = s.out ∧ (tickHolds s).faults = s.faults ∧
    (tickHolds s).store = s.store ∧ (tickHolds s).link = s.link ∧ (tickHolds s).win = s.win ∧
    (tickHolds s).image = s.image ∧ (tickHolds s).pending = s.pending := by
  unfold tickHolds
  (repeat' split) <;> simp

@[simp] theorem handOver_frame (s : State) :
    (handOver s).time = s.time ∧ (handOver s).sense = s.sense ∧ (handOver s).pulse = s.pulse ∧
    (handOver s).dist.live = s.dist.live ∧ (handOver s).dist.lost = s.dist.lost ∧
    (handOver s).dist.retained = s.dist.retained ∧ (handOver s).dist.ticks = s.dist.ticks ∧
    (handOver s).dist.nextSlot = s.dist.nextSlot ∧ (handOver s).dist.writeCounts = s.dist.writeCounts ∧
    (handOver s).dist.tripA = s.dist.tripA ∧ (handOver s).dist.tripB = s.dist.tripB ∧
    (handOver s).dist.preset = s.dist.preset ∧ (handOver s).dist.kfactor = s.dist.kfactor ∧
    (handOver s).analog = s.analog ∧ (handOver s).door = s.door ∧
    (handOver s).warn.nextNumber = s.warn.nextNumber ∧ (handOver s).warn.list = s.warn.list ∧
    (handOver s).out = s.out ∧ (handOver s).faults = s.faults ∧ (handOver s).store = s.store ∧
    (handOver s).link = s.link ∧ (handOver s).win = s.win ∧ (handOver s).image = s.image ∧
    (handOver s).pending = s.pending := by
  simp [handOver]

/-- A hand-over replaces what each gauge channel holds (R92). -/
@[simp] theorem handOver_handed (s : State) :
    (handOver s).warn.handed = Vector.ofFn fun c => some (handedNow s c) := rfl

@[simp] theorem countSweep_frame (s : State) :
    (countSweep s).time = s.time ∧ (countSweep s).sense = s.sense ∧ (countSweep s).pulse = s.pulse ∧
    (countSweep s).dist = s.dist ∧ (countSweep s).analog = s.analog ∧ (countSweep s).door = s.door ∧
    (countSweep s).warn = s.warn ∧ (countSweep s).out.lamps = s.out.lamps ∧
    (countSweep s).out.arbiter = s.out.arbiter ∧ (countSweep s).out.lastResult = s.out.lastResult ∧
    (countSweep s).out.supervision = s.out.supervision ∧ (countSweep s).faults = s.faults ∧
    (countSweep s).store = s.store ∧ (countSweep s).link = s.link ∧ (countSweep s).win = s.win ∧
    (countSweep s).image = s.image ∧ (countSweep s).pending = s.pending := by
  unfold countSweep
  (repeat' split) <;> simp

@[simp] theorem adoptAnalog_frame (m : Mem) (s : State) :
    (adoptAnalog m s).time = s.time ∧ (adoptAnalog m s).sense = s.sense ∧
    (adoptAnalog m s).pulse = s.pulse ∧ (adoptAnalog m s).dist = s.dist ∧
    (adoptAnalog m s).analog.lateAt = s.analog.lateAt ∧
    (adoptAnalog m s).analog.crankHold = s.analog.crankHold ∧
    (adoptAnalog m s).analog.supplyLow = s.analog.supplyLow ∧ (adoptAnalog m s).door = s.door ∧
    (adoptAnalog m s).warn = s.warn ∧ (adoptAnalog m s).out = s.out ∧ (adoptAnalog m s).faults = s.faults ∧
    (adoptAnalog m s).store = s.store ∧ (adoptAnalog m s).link = s.link ∧ (adoptAnalog m s).win = s.win ∧
    (adoptAnalog m s).image = s.image ∧ (adoptAnalog m s).pending = s.pending := by
  simp [adoptAnalog]

/-! ## Sense Line Unit -/

@[simp] theorem sampleLines_frame (r : Vector Sample 32) (s : State) :
    (sampleLines r s).time = s.time ∧ (sampleLines r s).pulse = s.pulse ∧ (sampleLines r s).dist = s.dist ∧
    (sampleLines r s).analog = s.analog ∧ (sampleLines r s).door = s.door ∧
    (sampleLines r s).warn = s.warn ∧ (sampleLines r s).out = s.out ∧ (sampleLines r s).faults = s.faults ∧
    (sampleLines r s).store = s.store ∧ (sampleLines r s).link = s.link ∧ (sampleLines r s).win = s.win ∧
    (sampleLines r s).image = s.image ∧ (sampleLines r s).pending = s.pending := by
  simp [sampleLines]

@[simp] theorem ignitionChange_frame (b : Bool) (s : State) :
    (ignitionChange b s).time = s.time ∧ (ignitionChange b s).sense = s.sense ∧
    (ignitionChange b s).pulse = s.pulse ∧ (ignitionChange b s).dist.live = s.dist.live ∧
    (ignitionChange b s).dist.lost = s.dist.lost ∧ (ignitionChange b s).dist.retained = s.dist.retained ∧
    (ignitionChange b s).dist.nextSlot = s.dist.nextSlot ∧
    (ignitionChange b s).dist.writeCounts = s.dist.writeCounts ∧
    (ignitionChange b s).dist.tripA = s.dist.tripA ∧ (ignitionChange b s).dist.tripB = s.dist.tripB ∧
    (ignitionChange b s).dist.watch = s.dist.watch ∧ (ignitionChange b s).dist.preset = s.dist.preset ∧
    (ignitionChange b s).dist.kfactor = s.dist.kfactor ∧
    (ignitionChange b s).analog.lateAt = s.analog.lateAt ∧
    (ignitionChange b s).analog.crankHold = s.analog.crankHold ∧
    (ignitionChange b s).analog.supplyLow = s.analog.supplyLow ∧
    (ignitionChange b s).door.doorways = s.door.doorways ∧ (ignitionChange b s).door.kneel = s.door.kneel ∧
    (ignitionChange b s).door.ramp = s.door.ramp ∧ (ignitionChange b s).door.age = s.door.age ∧
    (ignitionChange b s).door.matureDue = s.door.matureDue ∧ (ignitionChange b s).warn = s.warn ∧
    (ignitionChange b s).out.arbiter = s.out.arbiter ∧
    (ignitionChange b s).out.supervision = s.out.supervision ∧
    (ignitionChange b s).faults.overflow = s.faults.overflow ∧
    (ignitionChange b s).faults.clear = s.faults.clear ∧ (ignitionChange b s).store.array = s.store.array ∧
    (ignitionChange b s).store.job = s.store.job ∧
    (ignitionChange b s).store.notRetained = s.store.notRetained ∧
    (ignitionChange b s).store.configCount = s.store.configCount ∧
    (ignitionChange b s).link.inFrame = s.link.inFrame ∧
    (ignitionChange b s).link.counter = s.link.counter ∧ (ignitionChange b s).link.shift = s.link.shift ∧
    (ignitionChange b s).link.kind = s.link.kind ∧ (ignitionChange b s).link.progress = s.link.progress ∧
    (ignitionChange b s).link.answer = s.link.answer ∧
    (ignitionChange b s).link.holdNext = s.link.holdNext ∧
    (ignitionChange b s).link.request = s.link.request ∧
    (ignitionChange b s).link.session = s.link.session ∧
    (ignitionChange b s).link.sessionTimer = s.link.sessionTimer ∧
    (ignitionChange b s).win.attention = s.win.attention ∧ (ignitionChange b s).win.claims = s.win.claims ∧
    (ignitionChange b s).win.enable = s.win.enable ∧ (ignitionChange b s).win.capture = s.win.capture ∧
    (ignitionChange b s).win.faultCount = s.win.faultCount ∧
    (ignitionChange b s).win.softCause = s.win.softCause ∧ (ignitionChange b s).win.source = s.win.source ∧
    (ignitionChange b s).win.adoption = s.win.adoption ∧
    (ignitionChange b s).win.lastTake = s.win.lastTake ∧ (ignitionChange b s).win.sdo = s.win.sdo ∧
    (ignitionChange b s).image = s.image ∧ (ignitionChange b s).pending = s.pending := by
  simp only [ignitionChange]
  (repeat' split) <;> simp

@[simp] theorem brakeConsumers_frame (x : LineState) (s : State) :
    (brakeConsumers x s).time = s.time ∧ (brakeConsumers x s).sense = s.sense ∧
    (brakeConsumers x s).pulse = s.pulse ∧ (brakeConsumers x s).dist = s.dist ∧
    (brakeConsumers x s).analog = s.analog ∧ (brakeConsumers x s).door.doorways = s.door.doorways ∧
    (brakeConsumers x s).door.kneel = s.door.kneel ∧ (brakeConsumers x s).door.ramp = s.door.ramp ∧
    (brakeConsumers x s).door.cycle = s.door.cycle ∧ (brakeConsumers x s).door.stop = s.door.stop ∧
    (brakeConsumers x s).door.latch = s.door.latch ∧ (brakeConsumers x s).door.journal = s.door.journal ∧
    (brakeConsumers x s).door.nextSequence = s.door.nextSequence ∧
    (brakeConsumers x s).door.age = s.door.age ∧ (brakeConsumers x s).door.matureDue = s.door.matureDue ∧
    (brakeConsumers x s).warn = s.warn ∧ (brakeConsumers x s).out.arbiter = s.out.arbiter ∧
    (brakeConsumers x s).out.supervision = s.out.supervision ∧ (brakeConsumers x s).faults = s.faults ∧
    (brakeConsumers x s).store = s.store ∧ (brakeConsumers x s).link.inFrame = s.link.inFrame ∧
    (brakeConsumers x s).link.counter = s.link.counter ∧ (brakeConsumers x s).link.shift = s.link.shift ∧
    (brakeConsumers x s).link.kind = s.link.kind ∧ (brakeConsumers x s).link.progress = s.link.progress ∧
    (brakeConsumers x s).link.answer = s.link.answer ∧
    (brakeConsumers x s).link.holdNext = s.link.holdNext ∧
    (brakeConsumers x s).link.request = s.link.request ∧
    (brakeConsumers x s).link.session = s.link.session ∧
    (brakeConsumers x s).link.sessionTimer = s.link.sessionTimer ∧
    (brakeConsumers x s).win.attention = s.win.attention ∧ (brakeConsumers x s).win.claims = s.win.claims ∧
    (brakeConsumers x s).win.enable = s.win.enable ∧ (brakeConsumers x s).win.capture = s.win.capture ∧
    (brakeConsumers x s).win.faultCount = s.win.faultCount ∧
    (brakeConsumers x s).win.softCause = s.win.softCause ∧ (brakeConsumers x s).win.source = s.win.source ∧
    (brakeConsumers x s).win.adoption = s.win.adoption ∧
    (brakeConsumers x s).win.lastTake = s.win.lastTake ∧ (brakeConsumers x s).win.sdo = s.win.sdo ∧
    (brakeConsumers x s).image = s.image ∧ (brakeConsumers x s).pending = s.pending := by
  simp only [brakeConsumers]
  (repeat' split) <;> simp

@[simp] theorem brakeChange_frame (x : LineState) (s : State) :
    (brakeChange x s).time = s.time ∧ (brakeChange x s).sense = s.sense ∧
    (brakeChange x s).pulse.lastEdge = s.pulse.lastEdge ∧ (brakeChange x s).pulse.count = s.pulse.count ∧
    (brakeChange x s).pulse.reference = s.pulse.reference ∧ (brakeChange x s).pulse.raw = s.pulse.raw ∧
    (brakeChange x s).pulse.displayed = s.pulse.displayed ∧
    (brakeChange x s).pulse.status = s.pulse.status ∧
    (brakeChange x s).pulse.wireBroken = s.pulse.wireBroken ∧
    (brakeChange x s).pulse.wireRun = s.pulse.wireRun ∧ (brakeChange x s).pulse.acc = s.pulse.acc ∧
    (brakeChange x s).pulse.k = s.pulse.k ∧ (brakeChange x s).pulse.calValid = s.pulse.calValid ∧
    (brakeChange x s).pulse.engineEdge = s.pulse.engineEdge ∧
    (brakeChange x s).pulse.engineCount = s.pulse.engineCount ∧
    (brakeChange x s).pulse.engineRef = s.pulse.engineRef ∧ (brakeChange x s).pulse.rpm = s.pulse.rpm ∧
    (brakeChange x s).pulse.running = s.pulse.running ∧ (brakeChange x s).dist = s.dist ∧
    (brakeChange x s).analog.lateAt = s.analog.lateAt ∧
    (brakeChange x s).analog.crankHold = s.analog.crankHold ∧
    (brakeChange x s).analog.supplyLow = s.analog.supplyLow ∧
    (brakeChange x s).door.doorways = s.door.doorways ∧ (brakeChange x s).door.kneel = s.door.kneel ∧
    (brakeChange x s).door.ramp = s.door.ramp ∧ (brakeChange x s).warn = s.warn ∧
    (brakeChange x s).out.arbiter = s.out.arbiter ∧ (brakeChange x s).out.supervision = s.out.supervision ∧
    (brakeChange x s).faults = s.faults ∧ (brakeChange x s).store = s.store ∧
    (brakeChange x s).link.inFrame = s.link.inFrame ∧ (brakeChange x s).link.counter = s.link.counter ∧
    (brakeChange x s).link.shift = s.link.shift ∧ (brakeChange x s).link.kind = s.link.kind ∧
    (brakeChange x s).link.progress = s.link.progress ∧ (brakeChange x s).link.answer = s.link.answer ∧
    (brakeChange x s).link.holdNext = s.link.holdNext ∧ (brakeChange x s).link.request = s.link.request ∧
    (brakeChange x s).link.session = s.link.session ∧
    (brakeChange x s).link.sessionTimer = s.link.sessionTimer ∧
    (brakeChange x s).win.attention = s.win.attention ∧ (brakeChange x s).win.claims = s.win.claims ∧
    (brakeChange x s).win.enable = s.win.enable ∧ (brakeChange x s).win.capture = s.win.capture ∧
    (brakeChange x s).win.faultCount = s.win.faultCount ∧
    (brakeChange x s).win.softCause = s.win.softCause ∧ (brakeChange x s).win.source = s.win.source ∧
    (brakeChange x s).win.adoption = s.win.adoption ∧ (brakeChange x s).win.lastTake = s.win.lastTake ∧
    (brakeChange x s).win.sdo = s.win.sdo ∧ (brakeChange x s).image = s.image ∧
    (brakeChange x s).pending = s.pending := by
  simp [brakeChange]

@[simp] theorem deliverChange_frame (r : Role) (x y : LineState) (s : State) :
    (deliverChange r x y s).time = s.time ∧ (deliverChange r x y s).sense = s.sense ∧
    (deliverChange r x y s).pulse.lastEdge = s.pulse.lastEdge ∧
    (deliverChange r x y s).pulse.count = s.pulse.count ∧
    (deliverChange r x y s).pulse.reference = s.pulse.reference ∧
    (deliverChange r x y s).pulse.raw = s.pulse.raw ∧
    (deliverChange r x y s).pulse.displayed = s.pulse.displayed ∧
    (deliverChange r x y s).pulse.status = s.pulse.status ∧
    (deliverChange r x y s).pulse.wireBroken = s.pulse.wireBroken ∧
    (deliverChange r x y s).pulse.wireRun = s.pulse.wireRun ∧
    (deliverChange r x y s).pulse.acc = s.pulse.acc ∧ (deliverChange r x y s).pulse.k = s.pulse.k ∧
    (deliverChange r x y s).pulse.calValid = s.pulse.calValid ∧
    (deliverChange r x y s).pulse.engineEdge = s.pulse.engineEdge ∧
    (deliverChange r x y s).pulse.engineCount = s.pulse.engineCount ∧
    (deliverChange r x y s).pulse.engineRef = s.pulse.engineRef ∧
    (deliverChange r x y s).pulse.rpm = s.pulse.rpm ∧
    (deliverChange r x y s).pulse.running = s.pulse.running ∧
    (deliverChange r x y s).dist.live = s.dist.live ∧ (deliverChange r x y s).dist.lost = s.dist.lost ∧
    (deliverChange r x y s).dist.retained = s.dist.retained ∧
    (deliverChange r x y s).dist.nextSlot = s.dist.nextSlot ∧
    (deliverChange r x y s).dist.writeCounts = s.dist.writeCounts ∧
    (deliverChange r x y s).dist.tripA = s.dist.tripA ∧ (deliverChange r x y s).dist.tripB = s.dist.tripB ∧
    (deliverChange r x y s).dist.watch = s.dist.watch ∧
    (deliverChange r x y s).dist.preset = s.dist.preset ∧
    (deliverChange r x y s).dist.kfactor = s.dist.kfactor ∧
    (deliverChange r x y s).analog.lateAt = s.analog.lateAt ∧
    (deliverChange r x y s).analog.crankHold = s.analog.crankHold ∧
    (deliverChange r x y s).analog.supplyLow = s.analog.supplyLow ∧
    (deliverChange r x y s).warn.nextNumber = s.warn.nextNumber ∧
    (deliverChange r x y s).warn.handed = s.warn.handed ∧
    (deliverChange r x y s).out.supervision = s.out.supervision ∧
    (deliverChange r x y s).faults.overflow = s.faults.overflow ∧
    (deliverChange r x y s).faults.clear = s.faults.clear ∧
    (deliverChange r x y s).store.array = s.store.array ∧ (deliverChange r x y s).store.job = s.store.job ∧
    (deliverChange r x y s).store.notRetained = s.store.notRetained ∧
    (deliverChange r x y s).store.configCount = s.store.configCount ∧
    (deliverChange r x y s).link.inFrame = s.link.inFrame ∧
    (deliverChange r x y s).link.counter = s.link.counter ∧
    (deliverChange r x y s).link.shift = s.link.shift ∧ (deliverChange r x y s).link.kind = s.link.kind ∧
    (deliverChange r x y s).link.progress = s.link.progress ∧
    (deliverChange r x y s).link.answer = s.link.answer ∧
    (deliverChange r x y s).link.holdNext = s.link.holdNext ∧
    (deliverChange r x y s).link.request = s.link.request ∧
    (deliverChange r x y s).link.session = s.link.session ∧
    (deliverChange r x y s).link.sessionTimer = s.link.sessionTimer ∧
    (deliverChange r x y s).win.attention = s.win.attention ∧
    (deliverChange r x y s).win.claims = s.win.claims ∧ (deliverChange r x y s).win.enable = s.win.enable ∧
    (deliverChange r x y s).win.capture = s.win.capture ∧
    (deliverChange r x y s).win.faultCount = s.win.faultCount ∧
    (deliverChange r x y s).win.softCause = s.win.softCause ∧
    (deliverChange r x y s).win.source = s.win.source ∧
    (deliverChange r x y s).win.adoption = s.win.adoption ∧
    (deliverChange r x y s).win.lastTake = s.win.lastTake ∧ (deliverChange r x y s).win.sdo = s.win.sdo ∧
    (deliverChange r x y s).image = s.image ∧ (deliverChange r x y s).pending = s.pending := by
  cases r <;> simp only [deliverChange] <;> (repeat' split) <;> simp

@[simp] theorem deliverLine_frame (b : Vector Line 32) (n : Fin 32) (s : State) :
    (deliverLine b s n).time = s.time ∧ (deliverLine b s n).sense = s.sense ∧
    (deliverLine b s n).pulse.lastEdge = s.pulse.lastEdge ∧
    (deliverLine b s n).pulse.count = s.pulse.count ∧
    (deliverLine b s n).pulse.reference = s.pulse.reference ∧ (deliverLine b s n).pulse.raw = s.pulse.raw ∧
    (deliverLine b s n).pulse.displayed = s.pulse.displayed ∧
    (deliverLine b s n).pulse.status = s.pulse.status ∧
    (deliverLine b s n).pulse.wireBroken = s.pulse.wireBroken ∧
    (deliverLine b s n).pulse.wireRun = s.pulse.wireRun ∧ (deliverLine b s n).pulse.acc = s.pulse.acc ∧
    (deliverLine b s n).pulse.k = s.pulse.k ∧ (deliverLine b s n).pulse.calValid = s.pulse.calValid ∧
    (deliverLine b s n).pulse.engineEdge = s.pulse.engineEdge ∧
    (deliverLine b s n).pulse.engineCount = s.pulse.engineCount ∧
    (deliverLine b s n).pulse.engineRef = s.pulse.engineRef ∧ (deliverLine b s n).pulse.rpm = s.pulse.rpm ∧
    (deliverLine b s n).pulse.running = s.pulse.running ∧ (deliverLine b s n).dist.live = s.dist.live ∧
    (deliverLine b s n).dist.lost = s.dist.lost ∧ (deliverLine b s n).dist.retained = s.dist.retained ∧
    (deliverLine b s n).dist.nextSlot = s.dist.nextSlot ∧
    (deliverLine b s n).dist.writeCounts = s.dist.writeCounts ∧
    (deliverLine b s n).dist.tripA = s.dist.tripA ∧ (deliverLine b s n).dist.tripB = s.dist.tripB ∧
    (deliverLine b s n).dist.watch = s.dist.watch ∧ (deliverLine b s n).dist.preset = s.dist.preset ∧
    (deliverLine b s n).dist.kfactor = s.dist.kfactor ∧
    (deliverLine b s n).analog.lateAt = s.analog.lateAt ∧
    (deliverLine b s n).analog.crankHold = s.analog.crankHold ∧
    (deliverLine b s n).analog.supplyLow = s.analog.supplyLow ∧
    (deliverLine b s n).warn.nextNumber = s.warn.nextNumber ∧
    (deliverLine b s n).warn.handed = s.warn.handed ∧
    (deliverLine b s n).out.supervision = s.out.supervision ∧
    (deliverLine b s n).faults.overflow = s.faults.overflow ∧
    (deliverLine b s n).faults.clear = s.faults.clear ∧ (deliverLine b s n).store.array = s.store.array ∧
    (deliverLine b s n).store.job = s.store.job ∧
    (deliverLine b s n).store.notRetained = s.store.notRetained ∧
    (deliverLine b s n).store.configCount = s.store.configCount ∧
    (deliverLine b s n).link.inFrame = s.link.inFrame ∧ (deliverLine b s n).link.counter = s.link.counter ∧
    (deliverLine b s n).link.shift = s.link.shift ∧ (deliverLine b s n).link.kind = s.link.kind ∧
    (deliverLine b s n).link.progress = s.link.progress ∧ (deliverLine b s n).link.answer = s.link.answer ∧
    (deliverLine b s n).link.holdNext = s.link.holdNext ∧
    (deliverLine b s n).link.request = s.link.request ∧ (deliverLine b s n).link.session = s.link.session ∧
    (deliverLine b s n).link.sessionTimer = s.link.sessionTimer ∧
    (deliverLine b s n).win.attention = s.win.attention ∧ (deliverLine b s n).win.claims = s.win.claims ∧
    (deliverLine b s n).win.enable = s.win.enable ∧ (deliverLine b s n).win.capture = s.win.capture ∧
    (deliverLine b s n).win.faultCount = s.win.faultCount ∧
    (deliverLine b s n).win.softCause = s.win.softCause ∧ (deliverLine b s n).win.source = s.win.source ∧
    (deliverLine b s n).win.adoption = s.win.adoption ∧ (deliverLine b s n).win.lastTake = s.win.lastTake ∧
    (deliverLine b s n).win.sdo = s.win.sdo ∧ (deliverLine b s n).image = s.image ∧
    (deliverLine b s n).pending = s.pending := by
  simp only [deliverLine]
  (repeat' split) <;> simp

@[simp] theorem deliverAdopted_frame (r : Role) (x y : LineState) (s : State) :
    (deliverAdopted r x y s).time = s.time ∧ (deliverAdopted r x y s).sense = s.sense ∧
    (deliverAdopted r x y s).pulse = s.pulse ∧ (deliverAdopted r x y s).dist.live = s.dist.live ∧
    (deliverAdopted r x y s).dist.lost = s.dist.lost ∧
    (deliverAdopted r x y s).dist.retained = s.dist.retained ∧
    (deliverAdopted r x y s).dist.nextSlot = s.dist.nextSlot ∧
    (deliverAdopted r x y s).dist.writeCounts = s.dist.writeCounts ∧
    (deliverAdopted r x y s).dist.tripA = s.dist.tripA ∧
    (deliverAdopted r x y s).dist.tripB = s.dist.tripB ∧
    (deliverAdopted r x y s).dist.watch = s.dist.watch ∧
    (deliverAdopted r x y s).dist.preset = s.dist.preset ∧
    (deliverAdopted r x y s).dist.kfactor = s.dist.kfactor ∧
    (deliverAdopted r x y s).analog.lateAt = s.analog.lateAt ∧
    (deliverAdopted r x y s).analog.crankHold = s.analog.crankHold ∧
    (deliverAdopted r x y s).analog.supplyLow = s.analog.supplyLow ∧
    (deliverAdopted r x y s).warn.nextNumber = s.warn.nextNumber ∧
    (deliverAdopted r x y s).warn.handed = s.warn.handed ∧
    (deliverAdopted r x y s).out.supervision = s.out.supervision ∧
    (deliverAdopted r x y s).faults.overflow = s.faults.overflow ∧
    (deliverAdopted r x y s).faults.clear = s.faults.clear ∧
    (deliverAdopted r x y s).store.array = s.store.array ∧
    (deliverAdopted r x y s).store.job = s.store.job ∧
    (deliverAdopted r x y s).store.notRetained = s.store.notRetained ∧
    (deliverAdopted r x y s).store.configCount = s.store.configCount ∧
    (deliverAdopted r x y s).link.inFrame = s.link.inFrame ∧
    (deliverAdopted r x y s).link.counter = s.link.counter ∧
    (deliverAdopted r x y s).link.shift = s.link.shift ∧ (deliverAdopted r x y s).link.kind = s.link.kind ∧
    (deliverAdopted r x y s).link.progress = s.link.progress ∧
    (deliverAdopted r x y s).link.answer = s.link.answer ∧
    (deliverAdopted r x y s).link.holdNext = s.link.holdNext ∧
    (deliverAdopted r x y s).link.request = s.link.request ∧
    (deliverAdopted r x y s).link.session = s.link.session ∧
    (deliverAdopted r x y s).link.sessionTimer = s.link.sessionTimer ∧
    (deliverAdopted r x y s).win.attention = s.win.attention ∧
    (deliverAdopted r x y s).win.claims = s.win.claims ∧
    (deliverAdopted r x y s).win.enable = s.win.enable ∧
    (deliverAdopted r x y s).win.capture = s.win.capture ∧
    (deliverAdopted r x y s).win.faultCount = s.win.faultCount ∧
    (deliverAdopted r x y s).win.softCause = s.win.softCause ∧
    (deliverAdopted r x y s).win.source = s.win.source ∧
    (deliverAdopted r x y s).win.adoption = s.win.adoption ∧
    (deliverAdopted r x y s).win.lastTake = s.win.lastTake ∧ (deliverAdopted r x y s).win.sdo = s.win.sdo ∧
    (deliverAdopted r x y s).image = s.image ∧ (deliverAdopted r x y s).pending = s.pending := by
  cases r <;> simp only [deliverAdopted, deliverChange, reduceCtorEq, if_true, if_false] <;> (repeat' split) <;> simp

@[simp] theorem adoptedLine_frame (b : Vector Line 32) (n : Fin 32) (s : State) :
    (adoptedLine b s n).time = s.time ∧ (adoptedLine b s n).sense = s.sense ∧
    (adoptedLine b s n).pulse = s.pulse ∧ (adoptedLine b s n).dist.live = s.dist.live ∧
    (adoptedLine b s n).dist.lost = s.dist.lost ∧ (adoptedLine b s n).dist.retained = s.dist.retained ∧
    (adoptedLine b s n).dist.nextSlot = s.dist.nextSlot ∧
    (adoptedLine b s n).dist.writeCounts = s.dist.writeCounts ∧
    (adoptedLine b s n).dist.tripA = s.dist.tripA ∧ (adoptedLine b s n).dist.tripB = s.dist.tripB ∧
    (adoptedLine b s n).dist.watch = s.dist.watch ∧ (adoptedLine b s n).dist.preset = s.dist.preset ∧
    (adoptedLine b s n).dist.kfactor = s.dist.kfactor ∧
    (adoptedLine b s n).analog.lateAt = s.analog.lateAt ∧
    (adoptedLine b s n).analog.crankHold = s.analog.crankHold ∧
    (adoptedLine b s n).analog.supplyLow = s.analog.supplyLow ∧
    (adoptedLine b s n).warn.nextNumber = s.warn.nextNumber ∧
    (adoptedLine b s n).warn.handed = s.warn.handed ∧
    (adoptedLine b s n).out.supervision = s.out.supervision ∧
    (adoptedLine b s n).faults.overflow = s.faults.overflow ∧
    (adoptedLine b s n).faults.clear = s.faults.clear ∧ (adoptedLine b s n).store.array = s.store.array ∧
    (adoptedLine b s n).store.job = s.store.job ∧
    (adoptedLine b s n).store.notRetained = s.store.notRetained ∧
    (adoptedLine b s n).store.configCount = s.store.configCount ∧
    (adoptedLine b s n).link.inFrame = s.link.inFrame ∧ (adoptedLine b s n).link.counter = s.link.counter ∧
    (adoptedLine b s n).link.shift = s.link.shift ∧ (adoptedLine b s n).link.kind = s.link.kind ∧
    (adoptedLine b s n).link.progress = s.link.progress ∧ (adoptedLine b s n).link.answer = s.link.answer ∧
    (adoptedLine b s n).link.holdNext = s.link.holdNext ∧
    (adoptedLine b s n).link.request = s.link.request ∧ (adoptedLine b s n).link.session = s.link.session ∧
    (adoptedLine b s n).link.sessionTimer = s.link.sessionTimer ∧
    (adoptedLine b s n).win.attention = s.win.attention ∧ (adoptedLine b s n).win.claims = s.win.claims ∧
    (adoptedLine b s n).win.enable = s.win.enable ∧ (adoptedLine b s n).win.capture = s.win.capture ∧
    (adoptedLine b s n).win.faultCount = s.win.faultCount ∧
    (adoptedLine b s n).win.softCause = s.win.softCause ∧ (adoptedLine b s n).win.source = s.win.source ∧
    (adoptedLine b s n).win.adoption = s.win.adoption ∧ (adoptedLine b s n).win.lastTake = s.win.lastTake ∧
    (adoptedLine b s n).win.sdo = s.win.sdo ∧ (adoptedLine b s n).image = s.image ∧
    (adoptedLine b s n).pending = s.pending := by
  simp only [adoptedLine]
  (repeat' split) <;> simp

@[simp] theorem adoptedLinesOf_frame (b : Vector Line 32) (l : List (Fin 32)) (s : State) :
    (l.foldl (adoptedLine b) s).time = s.time ∧ (l.foldl (adoptedLine b) s).sense = s.sense ∧
    (l.foldl (adoptedLine b) s).pulse = s.pulse ∧ (l.foldl (adoptedLine b) s).dist.live = s.dist.live ∧
    (l.foldl (adoptedLine b) s).dist.lost = s.dist.lost ∧
    (l.foldl (adoptedLine b) s).dist.retained = s.dist.retained ∧
    (l.foldl (adoptedLine b) s).dist.nextSlot = s.dist.nextSlot ∧
    (l.foldl (adoptedLine b) s).dist.writeCounts = s.dist.writeCounts ∧
    (l.foldl (adoptedLine b) s).dist.tripA = s.dist.tripA ∧
    (l.foldl (adoptedLine b) s).dist.tripB = s.dist.tripB ∧
    (l.foldl (adoptedLine b) s).dist.watch = s.dist.watch ∧
    (l.foldl (adoptedLine b) s).dist.preset = s.dist.preset ∧
    (l.foldl (adoptedLine b) s).dist.kfactor = s.dist.kfactor ∧
    (l.foldl (adoptedLine b) s).analog.lateAt = s.analog.lateAt ∧
    (l.foldl (adoptedLine b) s).analog.crankHold = s.analog.crankHold ∧
    (l.foldl (adoptedLine b) s).analog.supplyLow = s.analog.supplyLow ∧
    (l.foldl (adoptedLine b) s).warn.nextNumber = s.warn.nextNumber ∧
    (l.foldl (adoptedLine b) s).warn.handed = s.warn.handed ∧
    (l.foldl (adoptedLine b) s).out.supervision = s.out.supervision ∧
    (l.foldl (adoptedLine b) s).faults.overflow = s.faults.overflow ∧
    (l.foldl (adoptedLine b) s).faults.clear = s.faults.clear ∧
    (l.foldl (adoptedLine b) s).store.array = s.store.array ∧
    (l.foldl (adoptedLine b) s).store.job = s.store.job ∧
    (l.foldl (adoptedLine b) s).store.notRetained = s.store.notRetained ∧
    (l.foldl (adoptedLine b) s).store.configCount = s.store.configCount ∧
    (l.foldl (adoptedLine b) s).link.inFrame = s.link.inFrame ∧
    (l.foldl (adoptedLine b) s).link.counter = s.link.counter ∧
    (l.foldl (adoptedLine b) s).link.shift = s.link.shift ∧
    (l.foldl (adoptedLine b) s).link.kind = s.link.kind ∧
    (l.foldl (adoptedLine b) s).link.progress = s.link.progress ∧
    (l.foldl (adoptedLine b) s).link.answer = s.link.answer ∧
    (l.foldl (adoptedLine b) s).link.holdNext = s.link.holdNext ∧
    (l.foldl (adoptedLine b) s).link.request = s.link.request ∧
    (l.foldl (adoptedLine b) s).link.session = s.link.session ∧
    (l.foldl (adoptedLine b) s).link.sessionTimer = s.link.sessionTimer ∧
    (l.foldl (adoptedLine b) s).win.attention = s.win.attention ∧
    (l.foldl (adoptedLine b) s).win.claims = s.win.claims ∧
    (l.foldl (adoptedLine b) s).win.enable = s.win.enable ∧
    (l.foldl (adoptedLine b) s).win.capture = s.win.capture ∧
    (l.foldl (adoptedLine b) s).win.faultCount = s.win.faultCount ∧
    (l.foldl (adoptedLine b) s).win.softCause = s.win.softCause ∧
    (l.foldl (adoptedLine b) s).win.source = s.win.source ∧
    (l.foldl (adoptedLine b) s).win.adoption = s.win.adoption ∧
    (l.foldl (adoptedLine b) s).win.lastTake = s.win.lastTake ∧
    (l.foldl (adoptedLine b) s).win.sdo = s.win.sdo ∧ (l.foldl (adoptedLine b) s).image = s.image ∧
    (l.foldl (adoptedLine b) s).pending = s.pending := by
  induction l generalizing s with
  | nil => simp
  | cons b l ih => simp [ih]

@[simp] theorem adoptedLines_frame (b : Vector Line 32) (s : State) :
    (adoptedLines b s).time = s.time ∧ (adoptedLines b s).sense = s.sense ∧
    (adoptedLines b s).pulse = s.pulse ∧ (adoptedLines b s).dist.live = s.dist.live ∧
    (adoptedLines b s).dist.lost = s.dist.lost ∧ (adoptedLines b s).dist.retained = s.dist.retained ∧
    (adoptedLines b s).dist.nextSlot = s.dist.nextSlot ∧
    (adoptedLines b s).dist.writeCounts = s.dist.writeCounts ∧
    (adoptedLines b s).dist.tripA = s.dist.tripA ∧ (adoptedLines b s).dist.tripB = s.dist.tripB ∧
    (adoptedLines b s).dist.watch = s.dist.watch ∧ (adoptedLines b s).dist.preset = s.dist.preset ∧
    (adoptedLines b s).dist.kfactor = s.dist.kfactor ∧ (adoptedLines b s).analog.lateAt = s.analog.lateAt ∧
    (adoptedLines b s).analog.crankHold = s.analog.crankHold ∧
    (adoptedLines b s).analog.supplyLow = s.analog.supplyLow ∧
    (adoptedLines b s).warn.nextNumber = s.warn.nextNumber ∧
    (adoptedLines b s).warn.handed = s.warn.handed ∧
    (adoptedLines b s).out.supervision = s.out.supervision ∧
    (adoptedLines b s).faults.overflow = s.faults.overflow ∧
    (adoptedLines b s).faults.clear = s.faults.clear ∧ (adoptedLines b s).store.array = s.store.array ∧
    (adoptedLines b s).store.job = s.store.job ∧
    (adoptedLines b s).store.notRetained = s.store.notRetained ∧
    (adoptedLines b s).store.configCount = s.store.configCount ∧
    (adoptedLines b s).link.inFrame = s.link.inFrame ∧ (adoptedLines b s).link.counter = s.link.counter ∧
    (adoptedLines b s).link.shift = s.link.shift ∧ (adoptedLines b s).link.kind = s.link.kind ∧
    (adoptedLines b s).link.progress = s.link.progress ∧ (adoptedLines b s).link.answer = s.link.answer ∧
    (adoptedLines b s).link.holdNext = s.link.holdNext ∧ (adoptedLines b s).link.request = s.link.request ∧
    (adoptedLines b s).link.session = s.link.session ∧
    (adoptedLines b s).link.sessionTimer = s.link.sessionTimer ∧
    (adoptedLines b s).win.attention = s.win.attention ∧ (adoptedLines b s).win.claims = s.win.claims ∧
    (adoptedLines b s).win.enable = s.win.enable ∧ (adoptedLines b s).win.capture = s.win.capture ∧
    (adoptedLines b s).win.faultCount = s.win.faultCount ∧
    (adoptedLines b s).win.softCause = s.win.softCause ∧ (adoptedLines b s).win.source = s.win.source ∧
    (adoptedLines b s).win.adoption = s.win.adoption ∧ (adoptedLines b s).win.lastTake = s.win.lastTake ∧
    (adoptedLines b s).win.sdo = s.win.sdo ∧ (adoptedLines b s).image = s.image ∧
    (adoptedLines b s).pending = s.pending := by
  simp [adoptedLines]

@[simp] theorem lineEvent_frame (b : Vector Line 32) (n : Fin 32) (s : State) :
    (lineEvent b s n).time = s.time ∧ (lineEvent b s n).sense = s.sense ∧
    (lineEvent b s n).pulse.lastEdge = s.pulse.lastEdge ∧ (lineEvent b s n).pulse.count = s.pulse.count ∧
    (lineEvent b s n).pulse.reference = s.pulse.reference ∧ (lineEvent b s n).pulse.raw = s.pulse.raw ∧
    (lineEvent b s n).pulse.displayed = s.pulse.displayed ∧
    (lineEvent b s n).pulse.status = s.pulse.status ∧
    (lineEvent b s n).pulse.wireBroken = s.pulse.wireBroken ∧
    (lineEvent b s n).pulse.wireRun = s.pulse.wireRun ∧ (lineEvent b s n).pulse.acc = s.pulse.acc ∧
    (lineEvent b s n).pulse.k = s.pulse.k ∧ (lineEvent b s n).pulse.calValid = s.pulse.calValid ∧
    (lineEvent b s n).pulse.engineEdge = s.pulse.engineEdge ∧
    (lineEvent b s n).pulse.engineCount = s.pulse.engineCount ∧
    (lineEvent b s n).pulse.engineRef = s.pulse.engineRef ∧ (lineEvent b s n).pulse.rpm = s.pulse.rpm ∧
    (lineEvent b s n).pulse.running = s.pulse.running ∧ (lineEvent b s n).dist.live = s.dist.live ∧
    (lineEvent b s n).dist.lost = s.dist.lost ∧ (lineEvent b s n).dist.retained = s.dist.retained ∧
    (lineEvent b s n).dist.nextSlot = s.dist.nextSlot ∧
    (lineEvent b s n).dist.writeCounts = s.dist.writeCounts ∧ (lineEvent b s n).dist.tripA = s.dist.tripA ∧
    (lineEvent b s n).dist.tripB = s.dist.tripB ∧ (lineEvent b s n).dist.watch = s.dist.watch ∧
    (lineEvent b s n).dist.preset = s.dist.preset ∧ (lineEvent b s n).dist.kfactor = s.dist.kfactor ∧
    (lineEvent b s n).analog.lateAt = s.analog.lateAt ∧
    (lineEvent b s n).analog.crankHold = s.analog.crankHold ∧
    (lineEvent b s n).analog.supplyLow = s.analog.supplyLow ∧
    (lineEvent b s n).warn.handed = s.warn.handed ∧ (lineEvent b s n).out.supervision = s.out.supervision ∧
    (lineEvent b s n).faults.clear = s.faults.clear ∧ (lineEvent b s n).store.array = s.store.array ∧
    (lineEvent b s n).store.job = s.store.job ∧ (lineEvent b s n).store.notRetained = s.store.notRetained ∧
    (lineEvent b s n).store.configCount = s.store.configCount ∧
    (lineEvent b s n).link.inFrame = s.link.inFrame ∧ (lineEvent b s n).link.counter = s.link.counter ∧
    (lineEvent b s n).link.shift = s.link.shift ∧ (lineEvent b s n).link.kind = s.link.kind ∧
    (lineEvent b s n).link.progress = s.link.progress ∧ (lineEvent b s n).link.answer = s.link.answer ∧
    (lineEvent b s n).link.holdNext = s.link.holdNext ∧ (lineEvent b s n).link.request = s.link.request ∧
    (lineEvent b s n).link.session = s.link.session ∧
    (lineEvent b s n).link.sessionTimer = s.link.sessionTimer ∧
    (lineEvent b s n).win.attention = s.win.attention ∧ (lineEvent b s n).win.claims = s.win.claims ∧
    (lineEvent b s n).win.enable = s.win.enable ∧ (lineEvent b s n).win.capture = s.win.capture ∧
    (lineEvent b s n).win.faultCount = s.win.faultCount ∧
    (lineEvent b s n).win.softCause = s.win.softCause ∧ (lineEvent b s n).win.source = s.win.source ∧
    (lineEvent b s n).win.adoption = s.win.adoption ∧ (lineEvent b s n).win.lastTake = s.win.lastTake ∧
    (lineEvent b s n).win.sdo = s.win.sdo ∧ (lineEvent b s n).image = s.image ∧
    (lineEvent b s n).pending = s.pending := by
  simp only [lineEvent]
  (repeat' split) <;> simp

@[simp] theorem lineEvents_frame (b : Vector Line 32) (l : List (Fin 32)) (s : State) :
    (l.foldl (lineEvent b) s).time = s.time ∧ (l.foldl (lineEvent b) s).sense = s.sense ∧
    (l.foldl (lineEvent b) s).pulse.lastEdge = s.pulse.lastEdge ∧
    (l.foldl (lineEvent b) s).pulse.count = s.pulse.count ∧
    (l.foldl (lineEvent b) s).pulse.reference = s.pulse.reference ∧
    (l.foldl (lineEvent b) s).pulse.raw = s.pulse.raw ∧
    (l.foldl (lineEvent b) s).pulse.displayed = s.pulse.displayed ∧
    (l.foldl (lineEvent b) s).pulse.status = s.pulse.status ∧
    (l.foldl (lineEvent b) s).pulse.wireBroken = s.pulse.wireBroken ∧
    (l.foldl (lineEvent b) s).pulse.wireRun = s.pulse.wireRun ∧
    (l.foldl (lineEvent b) s).pulse.acc = s.pulse.acc ∧ (l.foldl (lineEvent b) s).pulse.k = s.pulse.k ∧
    (l.foldl (lineEvent b) s).pulse.calValid = s.pulse.calValid ∧
    (l.foldl (lineEvent b) s).pulse.engineEdge = s.pulse.engineEdge ∧
    (l.foldl (lineEvent b) s).pulse.engineCount = s.pulse.engineCount ∧
    (l.foldl (lineEvent b) s).pulse.engineRef = s.pulse.engineRef ∧
    (l.foldl (lineEvent b) s).pulse.rpm = s.pulse.rpm ∧
    (l.foldl (lineEvent b) s).pulse.running = s.pulse.running ∧
    (l.foldl (lineEvent b) s).dist.live = s.dist.live ∧ (l.foldl (lineEvent b) s).dist.lost = s.dist.lost ∧
    (l.foldl (lineEvent b) s).dist.retained = s.dist.retained ∧
    (l.foldl (lineEvent b) s).dist.nextSlot = s.dist.nextSlot ∧
    (l.foldl (lineEvent b) s).dist.writeCounts = s.dist.writeCounts ∧
    (l.foldl (lineEvent b) s).dist.tripA = s.dist.tripA ∧
    (l.foldl (lineEvent b) s).dist.tripB = s.dist.tripB ∧
    (l.foldl (lineEvent b) s).dist.watch = s.dist.watch ∧
    (l.foldl (lineEvent b) s).dist.preset = s.dist.preset ∧
    (l.foldl (lineEvent b) s).dist.kfactor = s.dist.kfactor ∧
    (l.foldl (lineEvent b) s).analog.lateAt = s.analog.lateAt ∧
    (l.foldl (lineEvent b) s).analog.crankHold = s.analog.crankHold ∧
    (l.foldl (lineEvent b) s).analog.supplyLow = s.analog.supplyLow ∧
    (l.foldl (lineEvent b) s).warn.handed = s.warn.handed ∧
    (l.foldl (lineEvent b) s).out.supervision = s.out.supervision ∧
    (l.foldl (lineEvent b) s).faults.clear = s.faults.clear ∧
    (l.foldl (lineEvent b) s).store.array = s.store.array ∧
    (l.foldl (lineEvent b) s).store.job = s.store.job ∧
    (l.foldl (lineEvent b) s).store.notRetained = s.store.notRetained ∧
    (l.foldl (lineEvent b) s).store.configCount = s.store.configCount ∧
    (l.foldl (lineEvent b) s).link.inFrame = s.link.inFrame ∧
    (l.foldl (lineEvent b) s).link.counter = s.link.counter ∧
    (l.foldl (lineEvent b) s).link.shift = s.link.shift ∧
    (l.foldl (lineEvent b) s).link.kind = s.link.kind ∧
    (l.foldl (lineEvent b) s).link.progress = s.link.progress ∧
    (l.foldl (lineEvent b) s).link.answer = s.link.answer ∧
    (l.foldl (lineEvent b) s).link.holdNext = s.link.holdNext ∧
    (l.foldl (lineEvent b) s).link.request = s.link.request ∧
    (l.foldl (lineEvent b) s).link.session = s.link.session ∧
    (l.foldl (lineEvent b) s).link.sessionTimer = s.link.sessionTimer ∧
    (l.foldl (lineEvent b) s).win.attention = s.win.attention ∧
    (l.foldl (lineEvent b) s).win.claims = s.win.claims ∧
    (l.foldl (lineEvent b) s).win.enable = s.win.enable ∧
    (l.foldl (lineEvent b) s).win.capture = s.win.capture ∧
    (l.foldl (lineEvent b) s).win.faultCount = s.win.faultCount ∧
    (l.foldl (lineEvent b) s).win.softCause = s.win.softCause ∧
    (l.foldl (lineEvent b) s).win.source = s.win.source ∧
    (l.foldl (lineEvent b) s).win.adoption = s.win.adoption ∧
    (l.foldl (lineEvent b) s).win.lastTake = s.win.lastTake ∧
    (l.foldl (lineEvent b) s).win.sdo = s.win.sdo ∧ (l.foldl (lineEvent b) s).image = s.image ∧
    (l.foldl (lineEvent b) s).pending = s.pending := by
  induction l generalizing s with
  | nil => simp
  | cons b l ih => simp [ih]

@[simp] theorem takeLines_frame (r : Vector Sample 32) (s : State) :
    (takeLines r s).time = s.time ∧ (takeLines r s).pulse.lastEdge = s.pulse.lastEdge ∧
    (takeLines r s).pulse.count = s.pulse.count ∧ (takeLines r s).pulse.reference = s.pulse.reference ∧
    (takeLines r s).pulse.raw = s.pulse.raw ∧ (takeLines r s).pulse.displayed = s.pulse.displayed ∧
    (takeLines r s).pulse.status = s.pulse.status ∧ (takeLines r s).pulse.wireBroken = s.pulse.wireBroken ∧
    (takeLines r s).pulse.wireRun = s.pulse.wireRun ∧ (takeLines r s).pulse.acc = s.pulse.acc ∧
    (takeLines r s).pulse.k = s.pulse.k ∧ (takeLines r s).pulse.calValid = s.pulse.calValid ∧
    (takeLines r s).pulse.engineEdge = s.pulse.engineEdge ∧
    (takeLines r s).pulse.engineCount = s.pulse.engineCount ∧
    (takeLines r s).pulse.engineRef = s.pulse.engineRef ∧ (takeLines r s).pulse.rpm = s.pulse.rpm ∧
    (takeLines r s).pulse.running = s.pulse.running ∧ (takeLines r s).dist.live = s.dist.live ∧
    (takeLines r s).dist.lost = s.dist.lost ∧ (takeLines r s).dist.retained = s.dist.retained ∧
    (takeLines r s).dist.nextSlot = s.dist.nextSlot ∧
    (takeLines r s).dist.writeCounts = s.dist.writeCounts ∧ (takeLines r s).dist.tripA = s.dist.tripA ∧
    (takeLines r s).dist.tripB = s.dist.tripB ∧ (takeLines r s).dist.watch = s.dist.watch ∧
    (takeLines r s).dist.preset = s.dist.preset ∧ (takeLines r s).dist.kfactor = s.dist.kfactor ∧
    (takeLines r s).analog.lateAt = s.analog.lateAt ∧
    (takeLines r s).analog.crankHold = s.analog.crankHold ∧
    (takeLines r s).analog.supplyLow = s.analog.supplyLow ∧ (takeLines r s).warn.handed = s.warn.handed ∧
    (takeLines r s).out.supervision = s.out.supervision ∧ (takeLines r s).faults.clear = s.faults.clear ∧
    (takeLines r s).store.array = s.store.array ∧ (takeLines r s).store.job = s.store.job ∧
    (takeLines r s).store.notRetained = s.store.notRetained ∧
    (takeLines r s).store.configCount = s.store.configCount ∧
    (takeLines r s).link.inFrame = s.link.inFrame ∧ (takeLines r s).link.counter = s.link.counter ∧
    (takeLines r s).link.shift = s.link.shift ∧ (takeLines r s).link.kind = s.link.kind ∧
    (takeLines r s).link.progress = s.link.progress ∧ (takeLines r s).link.answer = s.link.answer ∧
    (takeLines r s).link.holdNext = s.link.holdNext ∧ (takeLines r s).link.request = s.link.request ∧
    (takeLines r s).link.session = s.link.session ∧
    (takeLines r s).link.sessionTimer = s.link.sessionTimer ∧
    (takeLines r s).win.attention = s.win.attention ∧ (takeLines r s).win.claims = s.win.claims ∧
    (takeLines r s).win.enable = s.win.enable ∧ (takeLines r s).win.capture = s.win.capture ∧
    (takeLines r s).win.faultCount = s.win.faultCount ∧ (takeLines r s).win.softCause = s.win.softCause ∧
    (takeLines r s).win.source = s.win.source ∧ (takeLines r s).win.adoption = s.win.adoption ∧
    (takeLines r s).win.lastTake = s.win.lastTake ∧ (takeLines r s).win.sdo = s.win.sdo ∧
    (takeLines r s).image = s.image ∧ (takeLines r s).pending = s.pending := by
  simp [takeLines]

@[simp] theorem wireEvent_frame (b : Bool) (s : State) :
    (wireEvent b s).time = s.time ∧ (wireEvent b s).sense = s.sense ∧
    (wireEvent b s).pulse.acc = s.pulse.acc ∧ (wireEvent b s).pulse.k = s.pulse.k ∧
    (wireEvent b s).pulse.calValid = s.pulse.calValid ∧
    (wireEvent b s).pulse.engineEdge = s.pulse.engineEdge ∧
    (wireEvent b s).pulse.engineCount = s.pulse.engineCount ∧
    (wireEvent b s).pulse.engineRef = s.pulse.engineRef ∧ (wireEvent b s).pulse.rpm = s.pulse.rpm ∧
    (wireEvent b s).pulse.running = s.pulse.running ∧ (wireEvent b s).dist = s.dist ∧
    (wireEvent b s).analog.lateAt = s.analog.lateAt ∧
    (wireEvent b s).analog.crankHold = s.analog.crankHold ∧
    (wireEvent b s).analog.supplyLow = s.analog.supplyLow ∧
    (wireEvent b s).door.doorways = s.door.doorways ∧ (wireEvent b s).door.kneel = s.door.kneel ∧
    (wireEvent b s).door.ramp = s.door.ramp ∧ (wireEvent b s).warn.handed = s.warn.handed ∧
    (wireEvent b s).out.supervision = s.out.supervision ∧ (wireEvent b s).faults.clear = s.faults.clear ∧
    (wireEvent b s).store.array = s.store.array ∧ (wireEvent b s).store.job = s.store.job ∧
    (wireEvent b s).store.notRetained = s.store.notRetained ∧
    (wireEvent b s).store.configCount = s.store.configCount ∧
    (wireEvent b s).link.inFrame = s.link.inFrame ∧ (wireEvent b s).link.counter = s.link.counter ∧
    (wireEvent b s).link.shift = s.link.shift ∧ (wireEvent b s).link.kind = s.link.kind ∧
    (wireEvent b s).link.progress = s.link.progress ∧ (wireEvent b s).link.answer = s.link.answer ∧
    (wireEvent b s).link.holdNext = s.link.holdNext ∧ (wireEvent b s).link.request = s.link.request ∧
    (wireEvent b s).link.session = s.link.session ∧
    (wireEvent b s).link.sessionTimer = s.link.sessionTimer ∧
    (wireEvent b s).win.attention = s.win.attention ∧ (wireEvent b s).win.claims = s.win.claims ∧
    (wireEvent b s).win.enable = s.win.enable ∧ (wireEvent b s).win.capture = s.win.capture ∧
    (wireEvent b s).win.faultCount = s.win.faultCount ∧ (wireEvent b s).win.softCause = s.win.softCause ∧
    (wireEvent b s).win.source = s.win.source ∧ (wireEvent b s).win.adoption = s.win.adoption ∧
    (wireEvent b s).win.lastTake = s.win.lastTake ∧ (wireEvent b s).win.sdo = s.win.sdo ∧
    (wireEvent b s).image = s.image ∧ (wireEvent b s).pending = s.pending := by
  simp [wireEvent]

/-! ## Retained Store -/

@[simp] theorem atCapture_frame (o : Object) (s : State) :
    (atCapture o s).time = s.time ∧ (atCapture o s).sense = s.sense ∧ (atCapture o s).pulse = s.pulse ∧
    (atCapture o s).dist.live = s.dist.live ∧ (atCapture o s).dist.lost = s.dist.lost ∧
    (atCapture o s).dist.retained = s.dist.retained ∧ (atCapture o s).dist.ticks = s.dist.ticks ∧
    (atCapture o s).dist.tripA = s.dist.tripA ∧ (atCapture o s).dist.tripB = s.dist.tripB ∧
    (atCapture o s).dist.watch = s.dist.watch ∧ (atCapture o s).dist.preset = s.dist.preset ∧
    (atCapture o s).dist.kfactor = s.dist.kfactor ∧ (atCapture o s).analog = s.analog ∧
    (atCapture o s).door = s.door ∧ (atCapture o s).warn = s.warn ∧ (atCapture o s).out = s.out ∧
    (atCapture o s).faults = s.faults ∧ (atCapture o s).store.array = s.store.array ∧
    (atCapture o s).store.queue = s.store.queue ∧ (atCapture o s).store.job = s.store.job ∧
    (atCapture o s).store.notRetained = s.store.notRetained ∧ (atCapture o s).link = s.link ∧
    (atCapture o s).win = s.win ∧ (atCapture o s).image = s.image ∧ (atCapture o s).pending = s.pending := by
  cases o <;> simp [atCapture]

@[simp] theorem matchStart_frame (o : Object) (s : State) :
    (matchStart o s).time = s.time ∧ (matchStart o s).sense = s.sense ∧ (matchStart o s).pulse = s.pulse ∧
    (matchStart o s).dist.live = s.dist.live ∧ (matchStart o s).dist.lost = s.dist.lost ∧
    (matchStart o s).dist.retained = s.dist.retained ∧ (matchStart o s).dist.ticks = s.dist.ticks ∧
    (matchStart o s).dist.nextSlot = s.dist.nextSlot ∧
    (matchStart o s).dist.writeCounts = s.dist.writeCounts ∧ (matchStart o s).dist.tripA = s.dist.tripA ∧
    (matchStart o s).dist.tripB = s.dist.tripB ∧ (matchStart o s).dist.watch = s.dist.watch ∧
    (matchStart o s).analog = s.analog ∧ (matchStart o s).door = s.door ∧ (matchStart o s).warn = s.warn ∧
    (matchStart o s).out = s.out ∧ (matchStart o s).faults.places = s.faults.places ∧
    (matchStart o s).faults.overflow = s.faults.overflow ∧
    (matchStart o s).faults.viewEvents = s.faults.viewEvents ∧ (matchStart o s).store = s.store ∧
    (matchStart o s).link = s.link ∧ (matchStart o s).win.ram = s.win.ram ∧
    (matchStart o s).win.slots = s.win.slots ∧ (matchStart o s).win.attention = s.win.attention ∧
    (matchStart o s).win.claims = s.win.claims ∧ (matchStart o s).win.notice = s.win.notice ∧
    (matchStart o s).win.enable = s.win.enable ∧ (matchStart o s).win.capture = s.win.capture ∧
    (matchStart o s).win.faultCount = s.win.faultCount ∧ (matchStart o s).win.softCause = s.win.softCause ∧
    (matchStart o s).win.source = s.win.source ∧ (matchStart o s).win.ops = s.win.ops ∧
    (matchStart o s).win.lastTake = s.win.lastTake ∧ (matchStart o s).win.sdo = s.win.sdo ∧
    (matchStart o s).image = s.image ∧ (matchStart o s).pending = s.pending := by
  cases o <;> simp [matchStart]

@[simp] theorem beginPage_frame (j : Job) (s : State) :
    (beginPage j s).time = s.time ∧ (beginPage j s).sense = s.sense ∧ (beginPage j s).pulse = s.pulse ∧
    (beginPage j s).dist = s.dist ∧ (beginPage j s).analog = s.analog ∧ (beginPage j s).door = s.door ∧
    (beginPage j s).warn = s.warn ∧ (beginPage j s).out = s.out ∧ (beginPage j s).faults = s.faults ∧
    (beginPage j s).store.queue = s.store.queue ∧ (beginPage j s).store.notRetained = s.store.notRetained ∧
    (beginPage j s).store.configCount = s.store.configCount ∧ (beginPage j s).link = s.link ∧
    (beginPage j s).win = s.win ∧ (beginPage j s).image = s.image ∧ (beginPage j s).pending = s.pending := by
  simp [beginPage]

@[simp] theorem duePage_frame (j : Job) (s : State) :
    (duePage j s).time = s.time ∧ (duePage j s).sense = s.sense ∧ (duePage j s).pulse = s.pulse ∧
    (duePage j s).dist = s.dist ∧ (duePage j s).analog = s.analog ∧ (duePage j s).door = s.door ∧
    (duePage j s).warn = s.warn ∧ (duePage j s).out = s.out ∧ (duePage j s).faults = s.faults ∧
    (duePage j s).store.queue = s.store.queue ∧ (duePage j s).store.notRetained = s.store.notRetained ∧
    (duePage j s).store.configCount = s.store.configCount ∧ (duePage j s).link = s.link ∧
    (duePage j s).win = s.win ∧ (duePage j s).image = s.image ∧ (duePage j s).pending = s.pending := by
  unfold duePage
  (repeat' split) <;> simp

@[simp] theorem startJob_frame (o : Object) (s : State) :
    (startJob o s).time = s.time ∧ (startJob o s).sense = s.sense ∧ (startJob o s).pulse = s.pulse ∧
    (startJob o s).dist.live = s.dist.live ∧ (startJob o s).dist.lost = s.dist.lost ∧
    (startJob o s).dist.retained = s.dist.retained ∧ (startJob o s).dist.ticks = s.dist.ticks ∧
    (startJob o s).dist.tripA = s.dist.tripA ∧ (startJob o s).dist.tripB = s.dist.tripB ∧
    (startJob o s).dist.watch = s.dist.watch ∧ (startJob o s).analog = s.analog ∧
    (startJob o s).door = s.door ∧ (startJob o s).warn = s.warn ∧ (startJob o s).out = s.out ∧
    (startJob o s).faults.places = s.faults.places ∧ (startJob o s).faults.overflow = s.faults.overflow ∧
    (startJob o s).faults.viewEvents = s.faults.viewEvents ∧
    (startJob o s).store.notRetained = s.store.notRetained ∧ (startJob o s).link = s.link ∧
    (startJob o s).win.ram = s.win.ram ∧ (startJob o s).win.slots = s.win.slots ∧
    (startJob o s).win.attention = s.win.attention ∧ (startJob o s).win.claims = s.win.claims ∧
    (startJob o s).win.notice = s.win.notice ∧ (startJob o s).win.enable = s.win.enable ∧
    (startJob o s).win.capture = s.win.capture ∧ (startJob o s).win.faultCount = s.win.faultCount ∧
    (startJob o s).win.softCause = s.win.softCause ∧ (startJob o s).win.source = s.win.source ∧
    (startJob o s).win.ops = s.win.ops ∧ (startJob o s).win.lastTake = s.win.lastTake ∧
    (startJob o s).win.sdo = s.win.sdo ∧ (startJob o s).image = s.image ∧ (startJob o s).pending = s.pending := by
  simp [startJob]

@[simp] theorem tryJob_frame (s : State) :
    (tryJob s).time = s.time ∧ (tryJob s).sense = s.sense ∧ (tryJob s).pulse = s.pulse ∧
    (tryJob s).dist.live = s.dist.live ∧ (tryJob s).dist.lost = s.dist.lost ∧
    (tryJob s).dist.retained = s.dist.retained ∧ (tryJob s).dist.ticks = s.dist.ticks ∧
    (tryJob s).dist.tripA = s.dist.tripA ∧ (tryJob s).dist.tripB = s.dist.tripB ∧
    (tryJob s).dist.watch = s.dist.watch ∧ (tryJob s).analog = s.analog ∧ (tryJob s).door = s.door ∧
    (tryJob s).warn = s.warn ∧ (tryJob s).out = s.out ∧ (tryJob s).faults.places = s.faults.places ∧
    (tryJob s).faults.overflow = s.faults.overflow ∧ (tryJob s).faults.viewEvents = s.faults.viewEvents ∧
    (tryJob s).store.notRetained = s.store.notRetained ∧ (tryJob s).link = s.link ∧
    (tryJob s).win.ram = s.win.ram ∧ (tryJob s).win.slots = s.win.slots ∧
    (tryJob s).win.attention = s.win.attention ∧ (tryJob s).win.claims = s.win.claims ∧
    (tryJob s).win.notice = s.win.notice ∧ (tryJob s).win.enable = s.win.enable ∧
    (tryJob s).win.capture = s.win.capture ∧ (tryJob s).win.faultCount = s.win.faultCount ∧
    (tryJob s).win.softCause = s.win.softCause ∧ (tryJob s).win.source = s.win.source ∧
    (tryJob s).win.ops = s.win.ops ∧ (tryJob s).win.lastTake = s.win.lastTake ∧
    (tryJob s).win.sdo = s.win.sdo ∧ (tryJob s).image = s.image ∧ (tryJob s).pending = s.pending := by
  unfold tryJob
  (repeat' split) <;> simp

@[simp] theorem tryPage_frame (s : State) :
    (tryPage s).time = s.time ∧ (tryPage s).sense = s.sense ∧ (tryPage s).pulse = s.pulse ∧
    (tryPage s).dist = s.dist ∧ (tryPage s).analog = s.analog ∧ (tryPage s).door = s.door ∧
    (tryPage s).warn = s.warn ∧ (tryPage s).out = s.out ∧ (tryPage s).faults = s.faults ∧
    (tryPage s).store.queue = s.store.queue ∧ (tryPage s).store.notRetained = s.store.notRetained ∧
    (tryPage s).store.configCount = s.store.configCount ∧ (tryPage s).link = s.link ∧
    (tryPage s).win = s.win ∧ (tryPage s).image = s.image ∧ (tryPage s).pending = s.pending := by
  unfold tryPage
  (repeat' split) <;> simp

@[simp] theorem markEnd_frame (o : Object) (b : Bool) (s : State) :
    (markEnd o b s).time = s.time ∧ (markEnd o b s).sense = s.sense ∧ (markEnd o b s).pulse = s.pulse ∧
    (markEnd o b s).dist = s.dist ∧ (markEnd o b s).analog = s.analog ∧ (markEnd o b s).door = s.door ∧
    (markEnd o b s).warn = s.warn ∧ (markEnd o b s).out = s.out ∧ (markEnd o b s).faults = s.faults ∧
    (markEnd o b s).store.array = s.store.array ∧ (markEnd o b s).store.queue = s.store.queue ∧
    (markEnd o b s).store.configCount = s.store.configCount ∧ (markEnd o b s).link = s.link ∧
    (markEnd o b s).win.ram = s.win.ram ∧ (markEnd o b s).win.slots = s.win.slots ∧
    (markEnd o b s).win.attention = s.win.attention ∧ (markEnd o b s).win.claims = s.win.claims ∧
    (markEnd o b s).win.enable = s.win.enable ∧ (markEnd o b s).win.capture = s.win.capture ∧
    (markEnd o b s).win.faultCount = s.win.faultCount ∧ (markEnd o b s).win.softCause = s.win.softCause ∧
    (markEnd o b s).win.source = s.win.source ∧ (markEnd o b s).win.ops = s.win.ops ∧
    (markEnd o b s).win.adoption = s.win.adoption ∧ (markEnd o b s).win.lastTake = s.win.lastTake ∧
    (markEnd o b s).win.sdo = s.win.sdo ∧ (markEnd o b s).image = s.image ∧
    (markEnd o b s).pending = s.pending := by
  simp only [markEnd]
  (repeat' split) <;> simp

@[simp] theorem retainRing_frame (c : Captured) (s : State) :
    (retainRing c s).time = s.time ∧ (retainRing c s).sense = s.sense ∧ (retainRing c s).pulse = s.pulse ∧
    (retainRing c s).dist.live = s.dist.live ∧ (retainRing c s).dist.lost = s.dist.lost ∧
    (retainRing c s).dist.ticks = s.dist.ticks ∧ (retainRing c s).dist.nextSlot = s.dist.nextSlot ∧
    (retainRing c s).dist.writeCounts = s.dist.writeCounts ∧ (retainRing c s).dist.tripA = s.dist.tripA ∧
    (retainRing c s).dist.tripB = s.dist.tripB ∧ (retainRing c s).dist.watch = s.dist.watch ∧
    (retainRing c s).dist.preset = s.dist.preset ∧ (retainRing c s).dist.kfactor = s.dist.kfactor ∧
    (retainRing c s).analog = s.analog ∧ (retainRing c s).door = s.door ∧ (retainRing c s).warn = s.warn ∧
    (retainRing c s).out = s.out ∧ (retainRing c s).faults = s.faults ∧ (retainRing c s).store = s.store ∧
    (retainRing c s).link = s.link ∧ (retainRing c s).win = s.win ∧ (retainRing c s).image = s.image ∧
    (retainRing c s).pending = s.pending := by
  unfold retainRing
  (repeat' split) <;> simp

@[simp] theorem ownerEnd_frame (j : Job) (b : Bool) (s : State) :
    (ownerEnd j b s).time = s.time ∧ (ownerEnd j b s).sense = s.sense ∧ (ownerEnd j b s).pulse = s.pulse ∧
    (ownerEnd j b s).dist.live = s.dist.live ∧ (ownerEnd j b s).dist.lost = s.dist.lost ∧
    (ownerEnd j b s).dist.ticks = s.dist.ticks ∧ (ownerEnd j b s).dist.nextSlot = s.dist.nextSlot ∧
    (ownerEnd j b s).dist.writeCounts = s.dist.writeCounts ∧ (ownerEnd j b s).dist.tripA = s.dist.tripA ∧
    (ownerEnd j b s).dist.tripB = s.dist.tripB ∧ (ownerEnd j b s).dist.watch = s.dist.watch ∧
    (ownerEnd j b s).analog = s.analog ∧ (ownerEnd j b s).door = s.door ∧ (ownerEnd j b s).warn = s.warn ∧
    (ownerEnd j b s).out = s.out ∧ (ownerEnd j b s).store.array = s.store.array ∧
    (ownerEnd j b s).store.job = s.store.job ∧ (ownerEnd j b s).store.notRetained = s.store.notRetained ∧
    (ownerEnd j b s).store.configCount = s.store.configCount ∧
    (ownerEnd j b s).link.inFrame = s.link.inFrame ∧ (ownerEnd j b s).link.counter = s.link.counter ∧
    (ownerEnd j b s).link.shift = s.link.shift ∧ (ownerEnd j b s).link.kind = s.link.kind ∧
    (ownerEnd j b s).link.progress = s.link.progress ∧ (ownerEnd j b s).link.answer = s.link.answer ∧
    (ownerEnd j b s).link.holdNext = s.link.holdNext ∧ (ownerEnd j b s).link.request = s.link.request ∧
    (ownerEnd j b s).link.session = s.link.session ∧
    (ownerEnd j b s).link.sessionTimer = s.link.sessionTimer ∧
    (ownerEnd j b s).win.attention = s.win.attention ∧ (ownerEnd j b s).win.claims = s.win.claims ∧
    (ownerEnd j b s).win.enable = s.win.enable ∧ (ownerEnd j b s).win.capture = s.win.capture ∧
    (ownerEnd j b s).win.faultCount = s.win.faultCount ∧ (ownerEnd j b s).win.softCause = s.win.softCause ∧
    (ownerEnd j b s).win.source = s.win.source ∧ (ownerEnd j b s).win.lastTake = s.win.lastTake ∧
    (ownerEnd j b s).win.sdo = s.win.sdo ∧ (ownerEnd j b s).image = s.image ∧
    (ownerEnd j b s).pending = s.pending := by
  cases h : j.object <;> simp only [ownerEnd, finishWaiter, h] <;> (repeat' split) <;> simp

@[simp] theorem endJob_frame (j : Job) (b : Bool) (s : State) :
    (endJob j b s).time = s.time ∧ (endJob j b s).sense = s.sense ∧ (endJob j b s).pulse = s.pulse ∧
    (endJob j b s).dist.live = s.dist.live ∧ (endJob j b s).dist.lost = s.dist.lost ∧
    (endJob j b s).dist.ticks = s.dist.ticks ∧ (endJob j b s).dist.nextSlot = s.dist.nextSlot ∧
    (endJob j b s).dist.writeCounts = s.dist.writeCounts ∧ (endJob j b s).dist.tripA = s.dist.tripA ∧
    (endJob j b s).dist.tripB = s.dist.tripB ∧ (endJob j b s).dist.watch = s.dist.watch ∧
    (endJob j b s).analog = s.analog ∧ (endJob j b s).door = s.door ∧ (endJob j b s).warn = s.warn ∧
    (endJob j b s).out = s.out ∧ (endJob j b s).store.array = s.store.array ∧
    (endJob j b s).store.configCount = s.store.configCount ∧ (endJob j b s).link.inFrame = s.link.inFrame ∧
    (endJob j b s).link.counter = s.link.counter ∧ (endJob j b s).link.shift = s.link.shift ∧
    (endJob j b s).link.kind = s.link.kind ∧ (endJob j b s).link.progress = s.link.progress ∧
    (endJob j b s).link.answer = s.link.answer ∧ (endJob j b s).link.holdNext = s.link.holdNext ∧
    (endJob j b s).link.request = s.link.request ∧ (endJob j b s).link.session = s.link.session ∧
    (endJob j b s).link.sessionTimer = s.link.sessionTimer ∧
    (endJob j b s).win.attention = s.win.attention ∧ (endJob j b s).win.claims = s.win.claims ∧
    (endJob j b s).win.enable = s.win.enable ∧ (endJob j b s).win.capture = s.win.capture ∧
    (endJob j b s).win.faultCount = s.win.faultCount ∧ (endJob j b s).win.softCause = s.win.softCause ∧
    (endJob j b s).win.source = s.win.source ∧ (endJob j b s).win.lastTake = s.win.lastTake ∧
    (endJob j b s).win.sdo = s.win.sdo ∧ (endJob j b s).image = s.image ∧ (endJob j b s).pending = s.pending := by
  simp [endJob]

@[simp] theorem completePage_frame (j : Job) (b : Bool) (s : State) :
    (completePage j b s).time = s.time ∧ (completePage j b s).sense = s.sense ∧
    (completePage j b s).pulse = s.pulse ∧ (completePage j b s).dist.live = s.dist.live ∧
    (completePage j b s).dist.lost = s.dist.lost ∧ (completePage j b s).dist.ticks = s.dist.ticks ∧
    (completePage j b s).dist.nextSlot = s.dist.nextSlot ∧
    (completePage j b s).dist.writeCounts = s.dist.writeCounts ∧
    (completePage j b s).dist.tripA = s.dist.tripA ∧ (completePage j b s).dist.tripB = s.dist.tripB ∧
    (completePage j b s).dist.watch = s.dist.watch ∧ (completePage j b s).analog = s.analog ∧
    (completePage j b s).door = s.door ∧ (completePage j b s).warn = s.warn ∧
    (completePage j b s).out = s.out ∧ (completePage j b s).store.configCount = s.store.configCount ∧
    (completePage j b s).link.inFrame = s.link.inFrame ∧
    (completePage j b s).link.counter = s.link.counter ∧ (completePage j b s).link.shift = s.link.shift ∧
    (completePage j b s).link.kind = s.link.kind ∧ (completePage j b s).link.progress = s.link.progress ∧
    (completePage j b s).link.answer = s.link.answer ∧
    (completePage j b s).link.holdNext = s.link.holdNext ∧
    (completePage j b s).link.request = s.link.request ∧
    (completePage j b s).link.session = s.link.session ∧
    (completePage j b s).link.sessionTimer = s.link.sessionTimer ∧
    (completePage j b s).win.attention = s.win.attention ∧ (completePage j b s).win.claims = s.win.claims ∧
    (completePage j b s).win.enable = s.win.enable ∧ (completePage j b s).win.capture = s.win.capture ∧
    (completePage j b s).win.faultCount = s.win.faultCount ∧
    (completePage j b s).win.softCause = s.win.softCause ∧ (completePage j b s).win.source = s.win.source ∧
    (completePage j b s).win.lastTake = s.win.lastTake ∧ (completePage j b s).win.sdo = s.win.sdo ∧
    (completePage j b s).image = s.image ∧ (completePage j b s).pending = s.pending := by
  simp only [completePage]
  (repeat' split) <;> simp

/-! ## Configuration -/

@[simp] theorem adoptLines_frame (m : Mem) (s : State) :
    (adoptLines m s).time = s.time ∧ (adoptLines m s).pulse = s.pulse ∧ (adoptLines m s).dist = s.dist ∧
    (adoptLines m s).analog = s.analog ∧ (adoptLines m s).door = s.door ∧ (adoptLines m s).warn = s.warn ∧
    (adoptLines m s).out = s.out ∧ (adoptLines m s).faults = s.faults ∧ (adoptLines m s).store = s.store ∧
    (adoptLines m s).link = s.link ∧ (adoptLines m s).win = s.win ∧ (adoptLines m s).image = s.image ∧
    (adoptLines m s).pending = s.pending := by
  simp [adoptLines]

@[simp] theorem installImage_frame (m : Mem) (s : State) :
    (installImage m s).time = s.time ∧ (installImage m s).sense = s.sense ∧
    (installImage m s).pulse = s.pulse ∧ (installImage m s).dist = s.dist ∧
    (installImage m s).analog = s.analog ∧ (installImage m s).door = s.door ∧
    (installImage m s).warn = s.warn ∧ (installImage m s).out = s.out ∧
    (installImage m s).faults = s.faults ∧ (installImage m s).store = s.store ∧
    (installImage m s).link = s.link ∧ (installImage m s).win.ram = s.win.ram ∧
    (installImage m s).win.slots = s.win.slots ∧ (installImage m s).win.attention = s.win.attention ∧
    (installImage m s).win.claims = s.win.claims ∧ (installImage m s).win.notice = s.win.notice ∧
    (installImage m s).win.enable = s.win.enable ∧ (installImage m s).win.capture = s.win.capture ∧
    (installImage m s).win.faultCount = s.win.faultCount ∧
    (installImage m s).win.softCause = s.win.softCause ∧ (installImage m s).win.ops = s.win.ops ∧
    (installImage m s).win.adoption = s.win.adoption ∧ (installImage m s).win.lastTake = s.win.lastTake ∧
    (installImage m s).win.sdo = s.win.sdo ∧ (installImage m s).pending = s.pending := by
  simp [installImage]

@[simp] theorem adoptWarnings_frame (m : Mem) (s : State) :
    (adoptWarnings m s).time = s.time ∧ (adoptWarnings m s).sense = s.sense ∧
    (adoptWarnings m s).pulse = s.pulse ∧ (adoptWarnings m s).dist = s.dist ∧
    (adoptWarnings m s).analog = s.analog ∧ (adoptWarnings m s).door = s.door ∧
    (adoptWarnings m s).warn.handed = s.warn.handed ∧
    (adoptWarnings m s).out.supervision = s.out.supervision ∧
    (adoptWarnings m s).faults.clear = s.faults.clear ∧ (adoptWarnings m s).store.array = s.store.array ∧
    (adoptWarnings m s).store.job = s.store.job ∧
    (adoptWarnings m s).store.notRetained = s.store.notRetained ∧
    (adoptWarnings m s).store.configCount = s.store.configCount ∧
    (adoptWarnings m s).link.inFrame = s.link.inFrame ∧ (adoptWarnings m s).link.counter = s.link.counter ∧
    (adoptWarnings m s).link.shift = s.link.shift ∧ (adoptWarnings m s).link.kind = s.link.kind ∧
    (adoptWarnings m s).link.progress = s.link.progress ∧ (adoptWarnings m s).link.answer = s.link.answer ∧
    (adoptWarnings m s).link.holdNext = s.link.holdNext ∧
    (adoptWarnings m s).link.request = s.link.request ∧ (adoptWarnings m s).link.session = s.link.session ∧
    (adoptWarnings m s).link.sessionTimer = s.link.sessionTimer ∧
    (adoptWarnings m s).win.attention = s.win.attention ∧ (adoptWarnings m s).win.claims = s.win.claims ∧
    (adoptWarnings m s).win.enable = s.win.enable ∧ (adoptWarnings m s).win.capture = s.win.capture ∧
    (adoptWarnings m s).win.faultCount = s.win.faultCount ∧
    (adoptWarnings m s).win.softCause = s.win.softCause ∧ (adoptWarnings m s).win.source = s.win.source ∧
    (adoptWarnings m s).win.adoption = s.win.adoption ∧ (adoptWarnings m s).win.lastTake = s.win.lastTake ∧
    (adoptWarnings m s).win.sdo = s.win.sdo ∧ (adoptWarnings m s).image = s.image ∧
    (adoptWarnings m s).pending = s.pending := by
  simp [adoptWarnings]

@[simp] theorem adoptImage_frame (m : Mem) (s : State) :
    (adoptImage m s).time = s.time ∧ (adoptImage m s).pulse = s.pulse ∧
    (adoptImage m s).dist.live = s.dist.live ∧ (adoptImage m s).dist.lost = s.dist.lost ∧
    (adoptImage m s).dist.retained = s.dist.retained ∧ (adoptImage m s).dist.nextSlot = s.dist.nextSlot ∧
    (adoptImage m s).dist.writeCounts = s.dist.writeCounts ∧ (adoptImage m s).dist.tripA = s.dist.tripA ∧
    (adoptImage m s).dist.tripB = s.dist.tripB ∧ (adoptImage m s).dist.watch = s.dist.watch ∧
    (adoptImage m s).dist.preset = s.dist.preset ∧ (adoptImage m s).dist.kfactor = s.dist.kfactor ∧
    (adoptImage m s).analog.lateAt = s.analog.lateAt ∧
    (adoptImage m s).analog.crankHold = s.analog.crankHold ∧
    (adoptImage m s).analog.supplyLow = s.analog.supplyLow ∧ (adoptImage m s).warn.handed = s.warn.handed ∧
    (adoptImage m s).out.supervision = s.out.supervision ∧ (adoptImage m s).faults.clear = s.faults.clear ∧
    (adoptImage m s).store.array = s.store.array ∧ (adoptImage m s).store.job = s.store.job ∧
    (adoptImage m s).store.notRetained = s.store.notRetained ∧
    (adoptImage m s).store.configCount = s.store.configCount ∧
    (adoptImage m s).link.inFrame = s.link.inFrame ∧ (adoptImage m s).link.counter = s.link.counter ∧
    (adoptImage m s).link.shift = s.link.shift ∧ (adoptImage m s).link.kind = s.link.kind ∧
    (adoptImage m s).link.progress = s.link.progress ∧ (adoptImage m s).link.answer = s.link.answer ∧
    (adoptImage m s).link.holdNext = s.link.holdNext ∧ (adoptImage m s).link.request = s.link.request ∧
    (adoptImage m s).link.session = s.link.session ∧
    (adoptImage m s).link.sessionTimer = s.link.sessionTimer ∧
    (adoptImage m s).win.attention = s.win.attention ∧ (adoptImage m s).win.claims = s.win.claims ∧
    (adoptImage m s).win.enable = s.win.enable ∧ (adoptImage m s).win.capture = s.win.capture ∧
    (adoptImage m s).win.faultCount = s.win.faultCount ∧ (adoptImage m s).win.softCause = s.win.softCause ∧
    (adoptImage m s).win.adoption = s.win.adoption ∧ (adoptImage m s).win.lastTake = s.win.lastTake ∧
    (adoptImage m s).win.sdo = s.win.sdo ∧ (adoptImage m s).pending = s.pending := by
  simp [adoptImage]

@[simp] theorem takeAdoption_frame (s : State) :
    (takeAdoption s).time = s.time ∧ (takeAdoption s).pulse = s.pulse ∧
    (takeAdoption s).dist.live = s.dist.live ∧ (takeAdoption s).dist.lost = s.dist.lost ∧
    (takeAdoption s).dist.retained = s.dist.retained ∧ (takeAdoption s).dist.nextSlot = s.dist.nextSlot ∧
    (takeAdoption s).dist.writeCounts = s.dist.writeCounts ∧ (takeAdoption s).dist.tripA = s.dist.tripA ∧
    (takeAdoption s).dist.tripB = s.dist.tripB ∧ (takeAdoption s).dist.watch = s.dist.watch ∧
    (takeAdoption s).dist.preset = s.dist.preset ∧ (takeAdoption s).dist.kfactor = s.dist.kfactor ∧
    (takeAdoption s).analog.lateAt = s.analog.lateAt ∧
    (takeAdoption s).analog.crankHold = s.analog.crankHold ∧
    (takeAdoption s).analog.supplyLow = s.analog.supplyLow ∧ (takeAdoption s).warn.handed = s.warn.handed ∧
    (takeAdoption s).out.supervision = s.out.supervision ∧ (takeAdoption s).faults.clear = s.faults.clear ∧
    (takeAdoption s).store.array = s.store.array ∧ (takeAdoption s).store.job = s.store.job ∧
    (takeAdoption s).store.notRetained = s.store.notRetained ∧
    (takeAdoption s).store.configCount = s.store.configCount ∧
    (takeAdoption s).link.inFrame = s.link.inFrame ∧ (takeAdoption s).link.counter = s.link.counter ∧
    (takeAdoption s).link.shift = s.link.shift ∧ (takeAdoption s).link.kind = s.link.kind ∧
    (takeAdoption s).link.progress = s.link.progress ∧ (takeAdoption s).link.answer = s.link.answer ∧
    (takeAdoption s).link.holdNext = s.link.holdNext ∧ (takeAdoption s).link.request = s.link.request ∧
    (takeAdoption s).link.session = s.link.session ∧
    (takeAdoption s).link.sessionTimer = s.link.sessionTimer ∧
    (takeAdoption s).win.attention = s.win.attention ∧ (takeAdoption s).win.claims = s.win.claims ∧
    (takeAdoption s).win.enable = s.win.enable ∧ (takeAdoption s).win.capture = s.win.capture ∧
    (takeAdoption s).win.faultCount = s.win.faultCount ∧ (takeAdoption s).win.softCause = s.win.softCause ∧
    (takeAdoption s).win.lastTake = s.win.lastTake ∧ (takeAdoption s).win.sdo = s.win.sdo ∧
    (takeAdoption s).pending = s.pending := by
  simp [takeAdoption]

/-! ## Workshop Link -/

@[simp] theorem markOpen_frame (s : State) :
    (markOpen s).time = s.time ∧ (markOpen s).sense = s.sense ∧ (markOpen s).pulse = s.pulse ∧
    (markOpen s).dist = s.dist ∧ (markOpen s).analog = s.analog ∧ (markOpen s).door = s.door ∧
    (markOpen s).warn = s.warn ∧ (markOpen s).out = s.out ∧ (markOpen s).faults = s.faults ∧
    (markOpen s).store = s.store ∧ (markOpen s).link.hold = s.link.hold ∧
    (markOpen s).link.request = s.link.request ∧ (markOpen s).link.reply = s.link.reply ∧
    (markOpen s).link.session = s.link.session ∧ (markOpen s).link.sessionTimer = s.link.sessionTimer ∧
    (markOpen s).win = s.win ∧ (markOpen s).image = s.image ∧ (markOpen s).pending = s.pending := by
  simp only [markOpen, WorkshopLink.opened]
  (repeat' split) <;> simp

@[simp] theorem takeMarkClose_frame (s : State) :
    (takeMarkClose s).time = s.time ∧ (takeMarkClose s).sense = s.sense ∧
    (takeMarkClose s).pulse = s.pulse ∧ (takeMarkClose s).dist = s.dist ∧
    (takeMarkClose s).analog = s.analog ∧ (takeMarkClose s).door = s.door ∧
    (takeMarkClose s).warn = s.warn ∧ (takeMarkClose s).out = s.out ∧ (takeMarkClose s).faults = s.faults ∧
    (takeMarkClose s).store = s.store ∧ (takeMarkClose s).link.hold = s.link.hold ∧
    (takeMarkClose s).link.request = s.link.request ∧ (takeMarkClose s).link.reply = s.link.reply ∧
    (takeMarkClose s).link.session = s.link.session ∧
    (takeMarkClose s).link.sessionTimer = s.link.sessionTimer ∧ (takeMarkClose s).win = s.win ∧
    (takeMarkClose s).image = s.image ∧ (takeMarkClose s).pending = s.pending := by
  simp only [takeMarkClose, WorkshopLink.closed]
  (repeat' split) <;> simp

@[simp] theorem acceptRequest_frame (h : Byte) (p : List Byte) (s : State) :
    (acceptRequest h p s).time = s.time ∧ (acceptRequest h p s).sense = s.sense ∧
    (acceptRequest h p s).pulse = s.pulse ∧ (acceptRequest h p s).dist = s.dist ∧
    (acceptRequest h p s).analog = s.analog ∧ (acceptRequest h p s).door = s.door ∧
    (acceptRequest h p s).warn = s.warn ∧ (acceptRequest h p s).out = s.out ∧
    (acceptRequest h p s).faults = s.faults ∧ (acceptRequest h p s).store = s.store ∧
    (acceptRequest h p s).link.session = s.link.session ∧ (acceptRequest h p s).win = s.win ∧
    (acceptRequest h p s).image = s.image ∧ (acceptRequest h p s).pending = s.pending := by
  simp [acceptRequest]

@[simp] theorem takeHead_frame (b : Byte) (s : State) :
    (takeHead b s).time = s.time ∧ (takeHead b s).sense = s.sense ∧ (takeHead b s).pulse = s.pulse ∧
    (takeHead b s).dist = s.dist ∧ (takeHead b s).analog = s.analog ∧ (takeHead b s).door = s.door ∧
    (takeHead b s).warn = s.warn ∧ (takeHead b s).out = s.out ∧ (takeHead b s).faults = s.faults ∧
    (takeHead b s).store = s.store ∧ (takeHead b s).link.session = s.link.session ∧
    (takeHead b s).win = s.win ∧ (takeHead b s).image = s.image ∧ (takeHead b s).pending = s.pending := by
  simp only [takeHead, refuseFrame]
  (repeat' split) <;> simp

@[simp] theorem takeRequestChar_frame (b : Byte) (s : State) :
    (takeRequestChar b s).time = s.time ∧ (takeRequestChar b s).sense = s.sense ∧
    (takeRequestChar b s).pulse = s.pulse ∧ (takeRequestChar b s).dist = s.dist ∧
    (takeRequestChar b s).analog = s.analog ∧ (takeRequestChar b s).door = s.door ∧
    (takeRequestChar b s).warn = s.warn ∧ (takeRequestChar b s).out = s.out ∧
    (takeRequestChar b s).faults = s.faults ∧ (takeRequestChar b s).store = s.store ∧
    (takeRequestChar b s).link.session = s.link.session ∧ (takeRequestChar b s).win = s.win ∧
    (takeRequestChar b s).image = s.image ∧ (takeRequestChar b s).pending = s.pending := by
  simp only [takeRequestChar, refuseFrame]
  (repeat' split) <;> simp

@[simp] theorem takeChar_frame (b : Byte) (s : State) :
    (takeChar b s).time = s.time ∧ (takeChar b s).sense = s.sense ∧ (takeChar b s).pulse = s.pulse ∧
    (takeChar b s).dist = s.dist ∧ (takeChar b s).analog = s.analog ∧ (takeChar b s).door = s.door ∧
    (takeChar b s).warn = s.warn ∧ (takeChar b s).out = s.out ∧ (takeChar b s).faults = s.faults ∧
    (takeChar b s).store = s.store ∧ (takeChar b s).link.session = s.link.session ∧
    (takeChar b s).win = s.win ∧ (takeChar b s).image = s.image ∧ (takeChar b s).pending = s.pending := by
  unfold takeChar
  (repeat' split) <;> simp

@[simp] theorem holdAfter_frame (s : State) :
    (holdAfter s).time = s.time ∧ (holdAfter s).sense = s.sense ∧ (holdAfter s).pulse = s.pulse ∧
    (holdAfter s).dist = s.dist ∧ (holdAfter s).analog = s.analog ∧ (holdAfter s).door = s.door ∧
    (holdAfter s).warn = s.warn ∧ (holdAfter s).out = s.out ∧ (holdAfter s).faults = s.faults ∧
    (holdAfter s).store = s.store ∧ (holdAfter s).link.session = s.link.session ∧
    (holdAfter s).win = s.win ∧ (holdAfter s).image = s.image ∧ (holdAfter s).pending = s.pending := by
  simp only [holdAfter]
  (repeat' split) <;> simp

@[simp] theorem takeAnswer_frame (r : Bool) (s : State) :
    (takeAnswer r s).time = s.time ∧ (takeAnswer r s).sense = s.sense ∧ (takeAnswer r s).pulse = s.pulse ∧
    (takeAnswer r s).dist = s.dist ∧ (takeAnswer r s).analog = s.analog ∧ (takeAnswer r s).door = s.door ∧
    (takeAnswer r s).warn = s.warn ∧ (takeAnswer r s).out = s.out ∧ (takeAnswer r s).faults = s.faults ∧
    (takeAnswer r s).store = s.store ∧ (takeAnswer r s).link.session = s.link.session ∧
    (takeAnswer r s).win = s.win ∧ (takeAnswer r s).image = s.image ∧ (takeAnswer r s).pending = s.pending := by
  simp only [takeAnswer]
  (repeat' split) <;> simp

@[simp] theorem clock_frame (b : Bool) (s : State) :
    (clock b s).time = s.time ∧ (clock b s).sense = s.sense ∧ (clock b s).pulse = s.pulse ∧
    (clock b s).dist = s.dist ∧ (clock b s).analog = s.analog ∧ (clock b s).door = s.door ∧
    (clock b s).warn = s.warn ∧ (clock b s).out = s.out ∧ (clock b s).faults = s.faults ∧
    (clock b s).store = s.store ∧ (clock b s).link.session = s.link.session ∧ (clock b s).win = s.win ∧
    (clock b s).image = s.image ∧ (clock b s).pending = s.pending := by
  simp only [clock]
  (repeat' split) <;> simp

@[simp] theorem clocks_frame (l : List Bool) (s : State) :
    (clocks l s).time = s.time ∧ (clocks l s).sense = s.sense ∧ (clocks l s).pulse = s.pulse ∧
    (clocks l s).dist = s.dist ∧ (clocks l s).analog = s.analog ∧ (clocks l s).door = s.door ∧
    (clocks l s).warn = s.warn ∧ (clocks l s).out = s.out ∧ (clocks l s).faults = s.faults ∧
    (clocks l s).store = s.store ∧ (clocks l s).link.session = s.link.session ∧ (clocks l s).win = s.win ∧
    (clocks l s).image = s.image ∧ (clocks l s).pending = s.pending := by
  unfold clocks
  induction l generalizing s with
  | nil => simp
  | cons b l ih => simp [ih]

@[simp] theorem requestClocks_frame (o : Bool) (c : List Byte) (b : List Bool) (s : State) :
    (requestClocks o c b s).time = s.time ∧ (requestClocks o c b s).sense = s.sense ∧
    (requestClocks o c b s).pulse = s.pulse ∧ (requestClocks o c b s).dist = s.dist ∧
    (requestClocks o c b s).analog = s.analog ∧ (requestClocks o c b s).door = s.door ∧
    (requestClocks o c b s).warn = s.warn ∧ (requestClocks o c b s).out = s.out ∧
    (requestClocks o c b s).faults = s.faults ∧ (requestClocks o c b s).store = s.store ∧
    (requestClocks o c b s).link.session = s.link.session ∧ (requestClocks o c b s).win = s.win ∧
    (requestClocks o c b s).image = s.image ∧ (requestClocks o c b s).pending = s.pending := by
  unfold requestClocks
  split <;> simp

@[simp] theorem fetchClocks_frame (h : Option (BitVec 7)) (a : List Bool) (n : Nat) (s : State) :
    (fetchClocks h a n s).time = s.time ∧ (fetchClocks h a n s).sense = s.sense ∧
    (fetchClocks h a n s).pulse = s.pulse ∧ (fetchClocks h a n s).dist = s.dist ∧
    (fetchClocks h a n s).analog = s.analog ∧ (fetchClocks h a n s).door = s.door ∧
    (fetchClocks h a n s).warn = s.warn ∧ (fetchClocks h a n s).out = s.out ∧
    (fetchClocks h a n s).faults = s.faults ∧ (fetchClocks h a n s).store = s.store ∧
    (fetchClocks h a n s).link.session = s.link.session ∧ (fetchClocks h a n s).win = s.win ∧
    (fetchClocks h a n s).image = s.image ∧ (fetchClocks h a n s).pending = s.pending := by
  unfold fetchClocks
  (repeat' split) <;> simp

@[simp] theorem holdTimerEnd_frame (s : State) :
    (holdTimerEnd s).time = s.time ∧ (holdTimerEnd s).sense = s.sense ∧ (holdTimerEnd s).pulse = s.pulse ∧
    (holdTimerEnd s).dist = s.dist ∧ (holdTimerEnd s).analog = s.analog ∧ (holdTimerEnd s).door = s.door ∧
    (holdTimerEnd s).warn = s.warn ∧ (holdTimerEnd s).out = s.out ∧ (holdTimerEnd s).faults = s.faults ∧
    (holdTimerEnd s).store = s.store ∧ (holdTimerEnd s).link.inFrame = s.link.inFrame ∧
    (holdTimerEnd s).link.counter = s.link.counter ∧ (holdTimerEnd s).link.shift = s.link.shift ∧
    (holdTimerEnd s).link.kind = s.link.kind ∧ (holdTimerEnd s).link.progress = s.link.progress ∧
    (holdTimerEnd s).link.answer = s.link.answer ∧ (holdTimerEnd s).link.holdNext = s.link.holdNext ∧
    (holdTimerEnd s).link.request = s.link.request ∧ (holdTimerEnd s).link.reply = s.link.reply ∧
    (holdTimerEnd s).link.session = s.link.session ∧
    (holdTimerEnd s).link.sessionTimer = s.link.sessionTimer ∧ (holdTimerEnd s).win = s.win ∧
    (holdTimerEnd s).image = s.image ∧ (holdTimerEnd s).pending = s.pending := by
  simp only [holdTimerEnd, releaseHold]
  (repeat' split) <;> simp

@[simp] theorem closeLink_frame (s : State) :
    (closeLink s).time = s.time ∧ (closeLink s).sense = s.sense ∧ (closeLink s).pulse = s.pulse ∧
    (closeLink s).dist = s.dist ∧ (closeLink s).analog = s.analog ∧ (closeLink s).door = s.door ∧
    (closeLink s).warn = s.warn ∧ (closeLink s).out.arbiter = s.out.arbiter ∧
    (closeLink s).out.supervision = s.out.supervision ∧ (closeLink s).faults = s.faults ∧
    (closeLink s).store = s.store ∧ (closeLink s).link.inFrame = s.link.inFrame ∧
    (closeLink s).link.counter = s.link.counter ∧ (closeLink s).link.shift = s.link.shift ∧
    (closeLink s).link.kind = s.link.kind ∧ (closeLink s).link.progress = s.link.progress ∧
    (closeLink s).link.answer = s.link.answer ∧ (closeLink s).link.holdNext = s.link.holdNext ∧
    (closeLink s).win.attention = s.win.attention ∧ (closeLink s).win.enable = s.win.enable ∧
    (closeLink s).win.capture = s.win.capture ∧ (closeLink s).win.faultCount = s.win.faultCount ∧
    (closeLink s).win.softCause = s.win.softCause ∧ (closeLink s).win.source = s.win.source ∧
    (closeLink s).win.adoption = s.win.adoption ∧ (closeLink s).win.lastTake = s.win.lastTake ∧
    (closeLink s).win.sdo = s.win.sdo ∧ (closeLink s).image = s.image ∧ (closeLink s).pending = s.pending := by
  simp [closeLink]

@[simp] theorem openLink_frame (s : State) :
    (openLink s).time = s.time ∧ (openLink s).sense = s.sense ∧ (openLink s).pulse = s.pulse ∧
    (openLink s).dist = s.dist ∧ (openLink s).analog = s.analog ∧ (openLink s).door = s.door ∧
    (openLink s).warn = s.warn ∧ (openLink s).out = s.out ∧ (openLink s).faults = s.faults ∧
    (openLink s).store = s.store ∧ (openLink s).link.inFrame = s.link.inFrame ∧
    (openLink s).link.counter = s.link.counter ∧ (openLink s).link.shift = s.link.shift ∧
    (openLink s).link.kind = s.link.kind ∧ (openLink s).link.progress = s.link.progress ∧
    (openLink s).link.answer = s.link.answer ∧ (openLink s).link.out = s.link.out ∧
    (openLink s).link.holdNext = s.link.holdNext ∧ (openLink s).link.hold = s.link.hold ∧
    (openLink s).link.request = s.link.request ∧ (openLink s).link.reply = s.link.reply ∧
    (openLink s).win.ram = s.win.ram ∧ (openLink s).win.slots = s.win.slots ∧
    (openLink s).win.attention = s.win.attention ∧ (openLink s).win.claims = s.win.claims ∧
    (openLink s).win.enable = s.win.enable ∧ (openLink s).win.capture = s.win.capture ∧
    (openLink s).win.faultCount = s.win.faultCount ∧ (openLink s).win.softCause = s.win.softCause ∧
    (openLink s).win.source = s.win.source ∧ (openLink s).win.ops = s.win.ops ∧
    (openLink s).win.adoption = s.win.adoption ∧ (openLink s).win.lastTake = s.win.lastTake ∧
    (openLink s).win.sdo = s.win.sdo ∧ (openLink s).image = s.image ∧ (openLink s).pending = s.pending := by
  simp only [openLink]
  (repeat' split) <;> simp

@[simp] theorem sessionTimerEnd_frame (s : State) :
    (sessionTimerEnd s).time = s.time ∧ (sessionTimerEnd s).sense = s.sense ∧
    (sessionTimerEnd s).pulse = s.pulse ∧ (sessionTimerEnd s).dist = s.dist ∧
    (sessionTimerEnd s).analog = s.analog ∧ (sessionTimerEnd s).door = s.door ∧
    (sessionTimerEnd s).warn = s.warn ∧ (sessionTimerEnd s).out.arbiter = s.out.arbiter ∧
    (sessionTimerEnd s).out.supervision = s.out.supervision ∧ (sessionTimerEnd s).faults = s.faults ∧
    (sessionTimerEnd s).store = s.store ∧ (sessionTimerEnd s).link.inFrame = s.link.inFrame ∧
    (sessionTimerEnd s).link.counter = s.link.counter ∧ (sessionTimerEnd s).link.shift = s.link.shift ∧
    (sessionTimerEnd s).link.kind = s.link.kind ∧ (sessionTimerEnd s).link.progress = s.link.progress ∧
    (sessionTimerEnd s).link.answer = s.link.answer ∧ (sessionTimerEnd s).link.holdNext = s.link.holdNext ∧
    (sessionTimerEnd s).win.attention = s.win.attention ∧ (sessionTimerEnd s).win.enable = s.win.enable ∧
    (sessionTimerEnd s).win.capture = s.win.capture ∧
    (sessionTimerEnd s).win.faultCount = s.win.faultCount ∧
    (sessionTimerEnd s).win.softCause = s.win.softCause ∧ (sessionTimerEnd s).win.source = s.win.source ∧
    (sessionTimerEnd s).win.adoption = s.win.adoption ∧ (sessionTimerEnd s).win.lastTake = s.win.lastTake ∧
    (sessionTimerEnd s).win.sdo = s.win.sdo ∧ (sessionTimerEnd s).image = s.image ∧
    (sessionTimerEnd s).pending = s.pending := by
  unfold sessionTimerEnd
  (repeat' split) <;> simp

@[simp] theorem tickLink_frame (s : State) :
    (tickLink s).time = s.time ∧ (tickLink s).sense = s.sense ∧ (tickLink s).pulse = s.pulse ∧
    (tickLink s).dist = s.dist ∧ (tickLink s).analog = s.analog ∧ (tickLink s).door = s.door ∧
    (tickLink s).warn = s.warn ∧ (tickLink s).out = s.out ∧ (tickLink s).faults = s.faults ∧
    (tickLink s).store = s.store ∧ (tickLink s).link.inFrame = s.link.inFrame ∧
    (tickLink s).link.counter = s.link.counter ∧ (tickLink s).link.shift = s.link.shift ∧
    (tickLink s).link.kind = s.link.kind ∧ (tickLink s).link.progress = s.link.progress ∧
    (tickLink s).link.answer = s.link.answer ∧ (tickLink s).link.out = s.link.out ∧
    (tickLink s).link.holdNext = s.link.holdNext ∧ (tickLink s).link.request = s.link.request ∧
    (tickLink s).link.reply = s.link.reply ∧ (tickLink s).link.session = s.link.session ∧
    (tickLink s).win = s.win ∧ (tickLink s).image = s.image ∧ (tickLink s).pending = s.pending := by
  simp [tickLink]

/-! ## Takes -/

@[simp] theorem beginTake_frame (t : Nat) (n : Fin 8) (s : State) :
    (beginTake t n s).time.lastSense = s.time.lastSense ∧
    (beginTake t n s).time.lastStep = s.time.lastStep ∧ (beginTake t n s).time.lastLamp = s.time.lastLamp ∧
    (beginTake t n s).time.lastGauge = s.time.lastGauge ∧
    (beginTake t n s).time.lastFast = s.time.lastFast ∧ (beginTake t n s).time.lastSlow = s.time.lastSlow ∧
    (beginTake t n s).sense = s.sense ∧ (beginTake t n s).pulse = s.pulse ∧
    (beginTake t n s).dist = s.dist ∧ (beginTake t n s).analog = s.analog ∧
    (beginTake t n s).door = s.door ∧ (beginTake t n s).warn = s.warn ∧ (beginTake t n s).out = s.out ∧
    (beginTake t n s).faults = s.faults ∧ (beginTake t n s).store = s.store ∧
    (beginTake t n s).link = s.link ∧ (beginTake t n s).win.claims = s.win.claims ∧
    (beginTake t n s).win.notice = s.win.notice ∧ (beginTake t n s).win.enable = s.win.enable ∧
    (beginTake t n s).win.capture = s.win.capture ∧ (beginTake t n s).win.faultCount = s.win.faultCount ∧
    (beginTake t n s).win.softCause = s.win.softCause ∧ (beginTake t n s).win.source = s.win.source ∧
    (beginTake t n s).win.ops = s.win.ops ∧ (beginTake t n s).win.adoption = s.win.adoption ∧
    (beginTake t n s).win.sdo = s.win.sdo ∧ (beginTake t n s).image = s.image ∧
    (beginTake t n s).pending = s.pending := by
  simp [beginTake]

@[simp] theorem beginService_frame (r : Request) (s : State) :
    (beginService r s).time.lastSense = s.time.lastSense ∧
    (beginService r s).time.lastStep = s.time.lastStep ∧
    (beginService r s).time.lastLamp = s.time.lastLamp ∧
    (beginService r s).time.lastGauge = s.time.lastGauge ∧
    (beginService r s).time.lastFast = s.time.lastFast ∧
    (beginService r s).time.lastSlow = s.time.lastSlow ∧ (beginService r s).sense = s.sense ∧
    (beginService r s).pulse = s.pulse ∧ (beginService r s).dist = s.dist ∧
    (beginService r s).analog = s.analog ∧ (beginService r s).door = s.door ∧
    (beginService r s).warn = s.warn ∧ (beginService r s).out = s.out ∧
    (beginService r s).faults = s.faults ∧ (beginService r s).store = s.store ∧
    (beginService r s).link.inFrame = s.link.inFrame ∧ (beginService r s).link.counter = s.link.counter ∧
    (beginService r s).link.shift = s.link.shift ∧ (beginService r s).link.kind = s.link.kind ∧
    (beginService r s).link.progress = s.link.progress ∧ (beginService r s).link.answer = s.link.answer ∧
    (beginService r s).link.out = s.link.out ∧ (beginService r s).link.holdNext = s.link.holdNext ∧
    (beginService r s).link.reply = s.link.reply ∧ (beginService r s).link.session = s.link.session ∧
    (beginService r s).link.sessionTimer = s.link.sessionTimer ∧ (beginService r s).win = s.win ∧
    (beginService r s).image = s.image ∧ (beginService r s).pending = s.pending := by
  simp only [beginService]
  (repeat' split) <;> simp

@[simp] theorem answer_frame (r : Request) (x : Result) (d : List Byte) (s : State) :
    (answer r x d s).time = s.time ∧ (answer r x d s).sense = s.sense ∧ (answer r x d s).pulse = s.pulse ∧
    (answer r x d s).dist = s.dist ∧ (answer r x d s).analog = s.analog ∧ (answer r x d s).door = s.door ∧
    (answer r x d s).warn = s.warn ∧ (answer r x d s).out = s.out ∧ (answer r x d s).faults = s.faults ∧
    (answer r x d s).store = s.store ∧ (answer r x d s).link.inFrame = s.link.inFrame ∧
    (answer r x d s).link.counter = s.link.counter ∧ (answer r x d s).link.shift = s.link.shift ∧
    (answer r x d s).link.kind = s.link.kind ∧ (answer r x d s).link.progress = s.link.progress ∧
    (answer r x d s).link.answer = s.link.answer ∧ (answer r x d s).link.holdNext = s.link.holdNext ∧
    (answer r x d s).link.request = s.link.request ∧ (answer r x d s).link.session = s.link.session ∧
    (answer r x d s).link.sessionTimer = s.link.sessionTimer ∧ (answer r x d s).win = s.win ∧
    (answer r x d s).image = s.image ∧ (answer r x d s).pending = s.pending := by
  simp [answer]

@[simp] theorem releaseClaim_frame (x : Side) (k : Claim) (s : State) :
    (releaseClaim x k s).time = s.time ∧ (releaseClaim x k s).sense = s.sense ∧
    (releaseClaim x k s).pulse = s.pulse ∧ (releaseClaim x k s).dist = s.dist ∧
    (releaseClaim x k s).analog = s.analog ∧ (releaseClaim x k s).door = s.door ∧
    (releaseClaim x k s).warn = s.warn ∧ (releaseClaim x k s).out.arbiter = s.out.arbiter ∧
    (releaseClaim x k s).out.supervision = s.out.supervision ∧ (releaseClaim x k s).faults = s.faults ∧
    (releaseClaim x k s).store = s.store ∧ (releaseClaim x k s).link.inFrame = s.link.inFrame ∧
    (releaseClaim x k s).link.counter = s.link.counter ∧ (releaseClaim x k s).link.shift = s.link.shift ∧
    (releaseClaim x k s).link.kind = s.link.kind ∧ (releaseClaim x k s).link.progress = s.link.progress ∧
    (releaseClaim x k s).link.answer = s.link.answer ∧
    (releaseClaim x k s).link.holdNext = s.link.holdNext ∧
    (releaseClaim x k s).link.request = s.link.request ∧
    (releaseClaim x k s).link.session = s.link.session ∧
    (releaseClaim x k s).link.sessionTimer = s.link.sessionTimer ∧
    (releaseClaim x k s).win.attention = s.win.attention ∧ (releaseClaim x k s).win.enable = s.win.enable ∧
    (releaseClaim x k s).win.capture = s.win.capture ∧
    (releaseClaim x k s).win.faultCount = s.win.faultCount ∧
    (releaseClaim x k s).win.softCause = s.win.softCause ∧ (releaseClaim x k s).win.source = s.win.source ∧
    (releaseClaim x k s).win.adoption = s.win.adoption ∧
    (releaseClaim x k s).win.lastTake = s.win.lastTake ∧ (releaseClaim x k s).win.sdo = s.win.sdo ∧
    (releaseClaim x k s).image = s.image ∧ (releaseClaim x k s).pending = s.pending := by
  simp only [releaseClaim]
  (repeat' split) <;> simp

/-! ## Window Port -/

@[simp] theorem fetchData_frame (a : BitVec 16) (i : Nat) (s : State) :
    (fetchData a i s).time = s.time ∧ (fetchData a i s).sense = s.sense ∧
    (fetchData a i s).pulse = s.pulse ∧ (fetchData a i s).dist = s.dist ∧
    (fetchData a i s).analog = s.analog ∧ (fetchData a i s).door = s.door ∧
    (fetchData a i s).warn = s.warn ∧ (fetchData a i s).out = s.out ∧ (fetchData a i s).faults = s.faults ∧
    (fetchData a i s).store = s.store ∧ (fetchData a i s).link = s.link ∧
    (fetchData a i s).win.ram = s.win.ram ∧ (fetchData a i s).win.slots = s.win.slots ∧
    (fetchData a i s).win.attention = s.win.attention ∧ (fetchData a i s).win.notice = s.win.notice ∧
    (fetchData a i s).win.enable = s.win.enable ∧ (fetchData a i s).win.capture = s.win.capture ∧
    (fetchData a i s).win.faultCount = s.win.faultCount ∧
    (fetchData a i s).win.softCause = s.win.softCause ∧ (fetchData a i s).win.source = s.win.source ∧
    (fetchData a i s).win.ops = s.win.ops ∧ (fetchData a i s).win.adoption = s.win.adoption ∧
    (fetchData a i s).win.lastTake = s.win.lastTake ∧ (fetchData a i s).image = s.image ∧
    (fetchData a i s).pending = s.pending := by
  simp only [fetchData]
  (repeat' split) <;> simp

@[simp] theorem attentionSet_frame (m : Byte) (s : State) :
    (attentionSet m s).time = s.time ∧ (attentionSet m s).sense = s.sense ∧
    (attentionSet m s).pulse = s.pulse ∧ (attentionSet m s).dist = s.dist ∧
    (attentionSet m s).analog = s.analog ∧ (attentionSet m s).door = s.door ∧
    (attentionSet m s).warn = s.warn ∧ (attentionSet m s).out = s.out ∧
    (attentionSet m s).faults = s.faults ∧ (attentionSet m s).store = s.store ∧
    (attentionSet m s).link = s.link ∧ (attentionSet m s).win.ram = s.win.ram ∧
    (attentionSet m s).win.slots = s.win.slots ∧ (attentionSet m s).win.claims = s.win.claims ∧
    (attentionSet m s).win.enable = s.win.enable ∧ (attentionSet m s).win.softCause = s.win.softCause ∧
    (attentionSet m s).win.source = s.win.source ∧ (attentionSet m s).win.ops = s.win.ops ∧
    (attentionSet m s).win.adoption = s.win.adoption ∧ (attentionSet m s).win.lastTake = s.win.lastTake ∧
    (attentionSet m s).win.sdo = s.win.sdo ∧ (attentionSet m s).image = s.image ∧
    (attentionSet m s).pending = s.pending := by
  simp only [attentionSet]
  (repeat' split) <;> simp

@[simp] theorem attentionClear_frame (m : Byte) (s : State) :
    (attentionClear m s).time = s.time ∧ (attentionClear m s).sense = s.sense ∧
    (attentionClear m s).pulse = s.pulse ∧ (attentionClear m s).dist = s.dist ∧
    (attentionClear m s).analog = s.analog ∧ (attentionClear m s).door = s.door ∧
    (attentionClear m s).warn = s.warn ∧ (attentionClear m s).out = s.out ∧
    (attentionClear m s).faults = s.faults ∧ (attentionClear m s).store = s.store ∧
    (attentionClear m s).link = s.link ∧ (attentionClear m s).win.ram = s.win.ram ∧
    (attentionClear m s).win.slots = s.win.slots ∧ (attentionClear m s).win.claims = s.win.claims ∧
    (attentionClear m s).win.notice = s.win.notice ∧ (attentionClear m s).win.enable = s.win.enable ∧
    (attentionClear m s).win.capture = s.win.capture ∧
    (attentionClear m s).win.faultCount = s.win.faultCount ∧
    (attentionClear m s).win.softCause = s.win.softCause ∧ (attentionClear m s).win.source = s.win.source ∧
    (attentionClear m s).win.ops = s.win.ops ∧ (attentionClear m s).win.adoption = s.win.adoption ∧
    (attentionClear m s).win.lastTake = s.win.lastTake ∧ (attentionClear m s).win.sdo = s.win.sdo ∧
    (attentionClear m s).image = s.image ∧ (attentionClear m s).pending = s.pending := by
  simp [attentionClear]

@[simp] theorem clearNotices_frame (h : Bool) (v : Byte) (s : State) :
    (clearNotices h v s).time = s.time ∧ (clearNotices h v s).sense = s.sense ∧
    (clearNotices h v s).pulse = s.pulse ∧ (clearNotices h v s).dist = s.dist ∧
    (clearNotices h v s).analog = s.analog ∧ (clearNotices h v s).door = s.door ∧
    (clearNotices h v s).warn = s.warn ∧ (clearNotices h v s).out = s.out ∧
    (clearNotices h v s).faults = s.faults ∧ (clearNotices h v s).store = s.store ∧
    (clearNotices h v s).link = s.link ∧ (clearNotices h v s).win.ram = s.win.ram ∧
    (clearNotices h v s).win.slots = s.win.slots ∧ (clearNotices h v s).win.attention = s.win.attention ∧
    (clearNotices h v s).win.claims = s.win.claims ∧ (clearNotices h v s).win.enable = s.win.enable ∧
    (clearNotices h v s).win.capture = s.win.capture ∧
    (clearNotices h v s).win.faultCount = s.win.faultCount ∧
    (clearNotices h v s).win.softCause = s.win.softCause ∧ (clearNotices h v s).win.source = s.win.source ∧
    (clearNotices h v s).win.ops = s.win.ops ∧ (clearNotices h v s).win.adoption = s.win.adoption ∧
    (clearNotices h v s).win.lastTake = s.win.lastTake ∧ (clearNotices h v s).win.sdo = s.win.sdo ∧
    (clearNotices h v s).image = s.image ∧ (clearNotices h v s).pending = s.pending := by
  simp [clearNotices]

@[simp] theorem enableNotices_frame (h : Bool) (v : Byte) (s : State) :
    (enableNotices h v s).time = s.time ∧ (enableNotices h v s).sense = s.sense ∧
    (enableNotices h v s).pulse = s.pulse ∧ (enableNotices h v s).dist = s.dist ∧
    (enableNotices h v s).analog = s.analog ∧ (enableNotices h v s).door = s.door ∧
    (enableNotices h v s).warn = s.warn ∧ (enableNotices h v s).out = s.out ∧
    (enableNotices h v s).faults = s.faults ∧ (enableNotices h v s).store = s.store ∧
    (enableNotices h v s).link = s.link ∧ (enableNotices h v s).win.ram = s.win.ram ∧
    (enableNotices h v s).win.slots = s.win.slots ∧ (enableNotices h v s).win.attention = s.win.attention ∧
    (enableNotices h v s).win.claims = s.win.claims ∧ (enableNotices h v s).win.notice = s.win.notice ∧
    (enableNotices h v s).win.capture = s.win.capture ∧
    (enableNotices h v s).win.faultCount = s.win.faultCount ∧
    (enableNotices h v s).win.softCause = s.win.softCause ∧
    (enableNotices h v s).win.source = s.win.source ∧ (enableNotices h v s).win.ops = s.win.ops ∧
    (enableNotices h v s).win.adoption = s.win.adoption ∧
    (enableNotices h v s).win.lastTake = s.win.lastTake ∧ (enableNotices h v s).win.sdo = s.win.sdo ∧
    (enableNotices h v s).image = s.image ∧ (enableNotices h v s).pending = s.pending := by
  simp [enableNotices]

@[simp] theorem clearPortFault_frame (i : Fin 4) (v : Byte) (s : State) :
    (clearPortFault i v s).time = s.time ∧ (clearPortFault i v s).sense = s.sense ∧
    (clearPortFault i v s).pulse = s.pulse ∧ (clearPortFault i v s).dist = s.dist ∧
    (clearPortFault i v s).analog = s.analog ∧ (clearPortFault i v s).door = s.door ∧
    (clearPortFault i v s).warn = s.warn ∧ (clearPortFault i v s).out = s.out ∧
    (clearPortFault i v s).faults = s.faults ∧ (clearPortFault i v s).store = s.store ∧
    (clearPortFault i v s).link = s.link ∧ (clearPortFault i v s).win.ram = s.win.ram ∧
    (clearPortFault i v s).win.slots = s.win.slots ∧
    (clearPortFault i v s).win.attention = s.win.attention ∧
    (clearPortFault i v s).win.claims = s.win.claims ∧ (clearPortFault i v s).win.enable = s.win.enable ∧
    (clearPortFault i v s).win.softCause = s.win.softCause ∧
    (clearPortFault i v s).win.source = s.win.source ∧ (clearPortFault i v s).win.ops = s.win.ops ∧
    (clearPortFault i v s).win.adoption = s.win.adoption ∧
    (clearPortFault i v s).win.lastTake = s.win.lastTake ∧ (clearPortFault i v s).win.sdo = s.win.sdo ∧
    (clearPortFault i v s).image = s.image ∧ (clearPortFault i v s).pending = s.pending := by
  unfold clearPortFault
  (repeat' split) <;> simp

@[simp] theorem claimWrite_frame (k : Claim) (v : Byte) (s : State) :
    (claimWrite k v s).time = s.time ∧ (claimWrite k v s).sense = s.sense ∧
    (claimWrite k v s).pulse = s.pulse ∧ (claimWrite k v s).dist = s.dist ∧
    (claimWrite k v s).analog = s.analog ∧ (claimWrite k v s).door = s.door ∧
    (claimWrite k v s).warn = s.warn ∧ (claimWrite k v s).out.arbiter = s.out.arbiter ∧
    (claimWrite k v s).out.supervision = s.out.supervision ∧ (claimWrite k v s).faults = s.faults ∧
    (claimWrite k v s).store = s.store ∧ (claimWrite k v s).link.inFrame = s.link.inFrame ∧
    (claimWrite k v s).link.counter = s.link.counter ∧ (claimWrite k v s).link.shift = s.link.shift ∧
    (claimWrite k v s).link.kind = s.link.kind ∧ (claimWrite k v s).link.progress = s.link.progress ∧
    (claimWrite k v s).link.answer = s.link.answer ∧ (claimWrite k v s).link.holdNext = s.link.holdNext ∧
    (claimWrite k v s).link.request = s.link.request ∧ (claimWrite k v s).link.session = s.link.session ∧
    (claimWrite k v s).link.sessionTimer = s.link.sessionTimer ∧
    (claimWrite k v s).win.attention = s.win.attention ∧ (claimWrite k v s).win.enable = s.win.enable ∧
    (claimWrite k v s).win.softCause = s.win.softCause ∧ (claimWrite k v s).win.source = s.win.source ∧
    (claimWrite k v s).win.adoption = s.win.adoption ∧ (claimWrite k v s).win.lastTake = s.win.lastTake ∧
    (claimWrite k v s).win.sdo = s.win.sdo ∧ (claimWrite k v s).image = s.image ∧
    (claimWrite k v s).pending = s.pending := by
  unfold claimWrite
  (repeat' split) <;> simp

@[simp] theorem postSlot_frame (n : Fin 8) (s : State) :
    (postSlot n s).time = s.time ∧ (postSlot n s).sense = s.sense ∧ (postSlot n s).pulse = s.pulse ∧
    (postSlot n s).dist = s.dist ∧ (postSlot n s).analog = s.analog ∧ (postSlot n s).door = s.door ∧
    (postSlot n s).warn = s.warn ∧ (postSlot n s).out = s.out ∧ (postSlot n s).faults = s.faults ∧
    (postSlot n s).store = s.store ∧ (postSlot n s).link = s.link ∧ (postSlot n s).win.ram = s.win.ram ∧
    (postSlot n s).win.attention = s.win.attention ∧ (postSlot n s).win.claims = s.win.claims ∧
    (postSlot n s).win.enable = s.win.enable ∧ (postSlot n s).win.softCause = s.win.softCause ∧
    (postSlot n s).win.source = s.win.source ∧ (postSlot n s).win.ops = s.win.ops ∧
    (postSlot n s).win.adoption = s.win.adoption ∧ (postSlot n s).win.lastTake = s.win.lastTake ∧
    (postSlot n s).win.sdo = s.win.sdo ∧ (postSlot n s).image = s.image ∧ (postSlot n s).pending = s.pending := by
  unfold postSlot
  (repeat' split) <;> simp

@[simp] theorem freeSlot_frame (n : Fin 8) (s : State) :
    (freeSlot n s).time = s.time ∧ (freeSlot n s).sense = s.sense ∧ (freeSlot n s).pulse = s.pulse ∧
    (freeSlot n s).dist = s.dist ∧ (freeSlot n s).analog = s.analog ∧ (freeSlot n s).door = s.door ∧
    (freeSlot n s).warn = s.warn ∧ (freeSlot n s).out = s.out ∧ (freeSlot n s).faults = s.faults ∧
    (freeSlot n s).store = s.store ∧ (freeSlot n s).link = s.link ∧ (freeSlot n s).win.ram = s.win.ram ∧
    (freeSlot n s).win.claims = s.win.claims ∧ (freeSlot n s).win.enable = s.win.enable ∧
    (freeSlot n s).win.softCause = s.win.softCause ∧ (freeSlot n s).win.source = s.win.source ∧
    (freeSlot n s).win.ops = s.win.ops ∧ (freeSlot n s).win.adoption = s.win.adoption ∧
    (freeSlot n s).win.lastTake = s.win.lastTake ∧ (freeSlot n s).win.sdo = s.win.sdo ∧
    (freeSlot n s).image = s.image ∧ (freeSlot n s).pending = s.pending := by
  unfold freeSlot
  (repeat' split) <;> simp

@[simp] theorem slotWrite_frame (a : Nat) (v : Byte) (s : State) :
    (slotWrite a v s).time = s.time ∧ (slotWrite a v s).sense = s.sense ∧
    (slotWrite a v s).pulse = s.pulse ∧ (slotWrite a v s).dist = s.dist ∧
    (slotWrite a v s).analog = s.analog ∧ (slotWrite a v s).door = s.door ∧
    (slotWrite a v s).warn = s.warn ∧ (slotWrite a v s).out = s.out ∧ (slotWrite a v s).faults = s.faults ∧
    (slotWrite a v s).store = s.store ∧ (slotWrite a v s).link = s.link ∧
    (slotWrite a v s).win.claims = s.win.claims ∧ (slotWrite a v s).win.enable = s.win.enable ∧
    (slotWrite a v s).win.softCause = s.win.softCause ∧ (slotWrite a v s).win.source = s.win.source ∧
    (slotWrite a v s).win.ops = s.win.ops ∧ (slotWrite a v s).win.adoption = s.win.adoption ∧
    (slotWrite a v s).win.lastTake = s.win.lastTake ∧ (slotWrite a v s).win.sdo = s.win.sdo ∧
    (slotWrite a v s).image = s.image ∧ (slotWrite a v s).pending = s.pending := by
  simp only [slotWrite]
  (repeat' split) <;> simp

@[simp] theorem softReset_frame (s : State) :
    (softReset s).time = s.time ∧ (softReset s).sense = s.sense ∧ (softReset s).pulse = s.pulse ∧
    (softReset s).dist = s.dist ∧ (softReset s).analog = s.analog ∧ (softReset s).door = s.door ∧
    (softReset s).warn = s.warn ∧ (softReset s).out.arbiter = s.out.arbiter ∧
    (softReset s).faults = s.faults ∧ (softReset s).store = s.store ∧
    (softReset s).link.inFrame = s.link.inFrame ∧ (softReset s).link.counter = s.link.counter ∧
    (softReset s).link.shift = s.link.shift ∧ (softReset s).link.kind = s.link.kind ∧
    (softReset s).link.progress = s.link.progress ∧ (softReset s).link.answer = s.link.answer ∧
    (softReset s).link.holdNext = s.link.holdNext ∧ (softReset s).link.request = s.link.request ∧
    (softReset s).link.session = s.link.session ∧ (softReset s).link.sessionTimer = s.link.sessionTimer ∧
    (softReset s).win.source = s.win.source ∧ (softReset s).win.adoption = s.win.adoption ∧
    (softReset s).win.lastTake = s.win.lastTake ∧ (softReset s).win.sdo = s.win.sdo ∧
    (softReset s).image = s.image ∧ (softReset s).pending = s.pending := by
  simp [softReset, WindowPort.softReset]

@[simp] theorem restartWrite_frame (v : Byte) (s : State) :
    (restartWrite v s).time = s.time ∧ (restartWrite v s).sense = s.sense ∧
    (restartWrite v s).pulse = s.pulse ∧ (restartWrite v s).dist = s.dist ∧
    (restartWrite v s).analog = s.analog ∧ (restartWrite v s).door = s.door ∧
    (restartWrite v s).warn = s.warn ∧ (restartWrite v s).out.arbiter = s.out.arbiter ∧
    (restartWrite v s).faults = s.faults ∧ (restartWrite v s).store = s.store ∧
    (restartWrite v s).link.inFrame = s.link.inFrame ∧ (restartWrite v s).link.counter = s.link.counter ∧
    (restartWrite v s).link.shift = s.link.shift ∧ (restartWrite v s).link.kind = s.link.kind ∧
    (restartWrite v s).link.progress = s.link.progress ∧ (restartWrite v s).link.answer = s.link.answer ∧
    (restartWrite v s).link.holdNext = s.link.holdNext ∧ (restartWrite v s).link.request = s.link.request ∧
    (restartWrite v s).link.session = s.link.session ∧
    (restartWrite v s).link.sessionTimer = s.link.sessionTimer ∧
    (restartWrite v s).win.source = s.win.source ∧ (restartWrite v s).win.adoption = s.win.adoption ∧
    (restartWrite v s).win.lastTake = s.win.lastTake ∧ (restartWrite v s).win.sdo = s.win.sdo ∧
    (restartWrite v s).image = s.image ∧ (restartWrite v s).pending = s.pending := by
  unfold restartWrite
  (repeat' split) <;> simp

@[simp] theorem portWrite_frame (a : Nat) (v : Byte) (s : State) :
    (portWrite a v s).time = s.time ∧ (portWrite a v s).sense = s.sense ∧
    (portWrite a v s).pulse = s.pulse ∧ (portWrite a v s).dist = s.dist ∧
    (portWrite a v s).analog = s.analog ∧ (portWrite a v s).door = s.door ∧
    (portWrite a v s).warn = s.warn ∧ (portWrite a v s).out.arbiter = s.out.arbiter ∧
    (portWrite a v s).faults = s.faults ∧ (portWrite a v s).store = s.store ∧
    (portWrite a v s).link.inFrame = s.link.inFrame ∧ (portWrite a v s).link.counter = s.link.counter ∧
    (portWrite a v s).link.shift = s.link.shift ∧ (portWrite a v s).link.kind = s.link.kind ∧
    (portWrite a v s).link.progress = s.link.progress ∧ (portWrite a v s).link.answer = s.link.answer ∧
    (portWrite a v s).link.holdNext = s.link.holdNext ∧ (portWrite a v s).link.request = s.link.request ∧
    (portWrite a v s).link.session = s.link.session ∧
    (portWrite a v s).link.sessionTimer = s.link.sessionTimer ∧
    (portWrite a v s).win.source = s.win.source ∧ (portWrite a v s).win.adoption = s.win.adoption ∧
    (portWrite a v s).win.lastTake = s.win.lastTake ∧ (portWrite a v s).win.sdo = s.win.sdo ∧
    (portWrite a v s).image = s.image ∧ (portWrite a v s).pending = s.pending := by
  simp only [portWrite]
  (repeat' split) <;> simp

@[simp] theorem writeByte_frame (a : Nat) (v : Byte) (s : State) :
    (writeByte a v s).time = s.time ∧ (writeByte a v s).sense = s.sense ∧
    (writeByte a v s).pulse = s.pulse ∧ (writeByte a v s).dist = s.dist ∧
    (writeByte a v s).analog = s.analog ∧ (writeByte a v s).door = s.door ∧
    (writeByte a v s).warn = s.warn ∧ (writeByte a v s).out.arbiter = s.out.arbiter ∧
    (writeByte a v s).faults = s.faults ∧ (writeByte a v s).store = s.store ∧
    (writeByte a v s).link.inFrame = s.link.inFrame ∧ (writeByte a v s).link.counter = s.link.counter ∧
    (writeByte a v s).link.shift = s.link.shift ∧ (writeByte a v s).link.kind = s.link.kind ∧
    (writeByte a v s).link.progress = s.link.progress ∧ (writeByte a v s).link.answer = s.link.answer ∧
    (writeByte a v s).link.holdNext = s.link.holdNext ∧ (writeByte a v s).link.request = s.link.request ∧
    (writeByte a v s).link.session = s.link.session ∧
    (writeByte a v s).link.sessionTimer = s.link.sessionTimer ∧
    (writeByte a v s).win.source = s.win.source ∧ (writeByte a v s).win.adoption = s.win.adoption ∧
    (writeByte a v s).win.lastTake = s.win.lastTake ∧ (writeByte a v s).win.sdo = s.win.sdo ∧
    (writeByte a v s).image = s.image ∧ (writeByte a v s).pending = s.pending := by
  unfold writeByte
  (repeat' split) <;> simp

@[simp] theorem writeData_frame (a : BitVec 16) (i : Nat) (v : Byte) (s : State) :
    (writeData a i v s).time = s.time ∧ (writeData a i v s).sense = s.sense ∧
    (writeData a i v s).pulse = s.pulse ∧ (writeData a i v s).dist = s.dist ∧
    (writeData a i v s).analog = s.analog ∧ (writeData a i v s).door = s.door ∧
    (writeData a i v s).warn = s.warn ∧ (writeData a i v s).out.arbiter = s.out.arbiter ∧
    (writeData a i v s).faults = s.faults ∧ (writeData a i v s).store = s.store ∧
    (writeData a i v s).link.inFrame = s.link.inFrame ∧ (writeData a i v s).link.counter = s.link.counter ∧
    (writeData a i v s).link.shift = s.link.shift ∧ (writeData a i v s).link.kind = s.link.kind ∧
    (writeData a i v s).link.progress = s.link.progress ∧ (writeData a i v s).link.answer = s.link.answer ∧
    (writeData a i v s).link.holdNext = s.link.holdNext ∧
    (writeData a i v s).link.request = s.link.request ∧ (writeData a i v s).link.session = s.link.session ∧
    (writeData a i v s).link.sessionTimer = s.link.sessionTimer ∧
    (writeData a i v s).win.source = s.win.source ∧ (writeData a i v s).win.adoption = s.win.adoption ∧
    (writeData a i v s).win.lastTake = s.win.lastTake ∧ (writeData a i v s).win.sdo = s.win.sdo ∧
    (writeData a i v s).image = s.image ∧ (writeData a i v s).pending = s.pending := by
  unfold writeData
  (repeat' split) <;> simp

/-! ## Clock -/

@[simp] theorem atSense_frame (s : State) :
    (atSense s).time.lastStep = s.time.lastStep ∧ (atSense s).time.lastLamp = s.time.lastLamp ∧
    (atSense s).time.lastGauge = s.time.lastGauge ∧ (atSense s).time.lastFast = s.time.lastFast ∧
    (atSense s).time.lastSlow = s.time.lastSlow ∧ (atSense s).sense = s.sense ∧
    (atSense s).pulse = s.pulse ∧ (atSense s).dist = s.dist ∧ (atSense s).analog = s.analog ∧
    (atSense s).door = s.door ∧ (atSense s).warn = s.warn ∧ (atSense s).out = s.out ∧
    (atSense s).faults = s.faults ∧ (atSense s).store = s.store ∧ (atSense s).link = s.link ∧
    (atSense s).win = s.win ∧ (atSense s).image = s.image ∧ (atSense s).pending = s.pending := by
  simp [atSense]

@[simp] theorem atStep_frame (s : State) :
    (atStep s).time.lastSense = s.time.lastSense ∧ (atStep s).time.lastLamp = s.time.lastLamp ∧
    (atStep s).time.lastGauge = s.time.lastGauge ∧ (atStep s).time.lastFast = s.time.lastFast ∧
    (atStep s).time.lastSlow = s.time.lastSlow ∧ (atStep s).sense = s.sense ∧ (atStep s).pulse = s.pulse ∧
    (atStep s).dist = s.dist ∧ (atStep s).analog = s.analog ∧ (atStep s).door = s.door ∧
    (atStep s).warn = s.warn ∧ (atStep s).out = s.out ∧ (atStep s).faults = s.faults ∧
    (atStep s).store = s.store ∧ (atStep s).link = s.link ∧ (atStep s).win = s.win ∧
    (atStep s).image = s.image ∧ (atStep s).pending = s.pending := by
  simp [atStep]

@[simp] theorem atLamp_frame (s : State) :
    (atLamp s).time.lastSense = s.time.lastSense ∧ (atLamp s).time.lastStep = s.time.lastStep ∧
    (atLamp s).time.lastGauge = s.time.lastGauge ∧ (atLamp s).time.lastFast = s.time.lastFast ∧
    (atLamp s).time.lastSlow = s.time.lastSlow ∧ (atLamp s).sense = s.sense ∧ (atLamp s).pulse = s.pulse ∧
    (atLamp s).dist = s.dist ∧ (atLamp s).analog = s.analog ∧ (atLamp s).door = s.door ∧
    (atLamp s).warn = s.warn ∧ (atLamp s).out = s.out ∧ (atLamp s).faults = s.faults ∧
    (atLamp s).store = s.store ∧ (atLamp s).link = s.link ∧ (atLamp s).win = s.win ∧
    (atLamp s).image = s.image ∧ (atLamp s).pending = s.pending := by
  simp [atLamp]

@[simp] theorem atGauge_frame (s : State) :
    (atGauge s).time.lastSense = s.time.lastSense ∧ (atGauge s).time.lastStep = s.time.lastStep ∧
    (atGauge s).time.lastLamp = s.time.lastLamp ∧ (atGauge s).time.lastFast = s.time.lastFast ∧
    (atGauge s).time.lastSlow = s.time.lastSlow ∧ (atGauge s).sense = s.sense ∧
    (atGauge s).pulse = s.pulse ∧ (atGauge s).dist = s.dist ∧ (atGauge s).analog = s.analog ∧
    (atGauge s).door = s.door ∧ (atGauge s).warn = s.warn ∧ (atGauge s).out = s.out ∧
    (atGauge s).faults = s.faults ∧ (atGauge s).store = s.store ∧ (atGauge s).link = s.link ∧
    (atGauge s).win = s.win ∧ (atGauge s).image = s.image ∧ (atGauge s).pending = s.pending := by
  simp [atGauge]

@[simp] theorem atEdge_frame (p : Phase) (s : State) :
    (atEdge p s).time.lastSense = s.time.lastSense ∧ (atEdge p s).time.lastStep = s.time.lastStep ∧
    (atEdge p s).time.lastLamp = s.time.lastLamp ∧ (atEdge p s).time.lastGauge = s.time.lastGauge ∧
    (atEdge p s).sense = s.sense ∧ (atEdge p s).pulse = s.pulse ∧ (atEdge p s).dist = s.dist ∧
    (atEdge p s).analog = s.analog ∧ (atEdge p s).door = s.door ∧ (atEdge p s).warn = s.warn ∧
    (atEdge p s).out = s.out ∧ (atEdge p s).faults = s.faults ∧ (atEdge p s).store = s.store ∧
    (atEdge p s).link = s.link ∧ (atEdge p s).win = s.win ∧ (atEdge p s).image = s.image ∧
    (atEdge p s).pending = s.pending := by
  cases p <;> simp [atEdge]

@[simp] theorem sensed_frame (r : Vector Sample 32) (b : Bool) (v : Vector Sample 6) (s : State) :
    (sensed r b v s).time = s.time ∧ (sensed r b v s).pulse.acc = s.pulse.acc ∧
    (sensed r b v s).pulse.k = s.pulse.k ∧ (sensed r b v s).pulse.calValid = s.pulse.calValid ∧
    (sensed r b v s).pulse.engineEdge = s.pulse.engineEdge ∧
    (sensed r b v s).pulse.engineCount = s.pulse.engineCount ∧
    (sensed r b v s).pulse.engineRef = s.pulse.engineRef ∧ (sensed r b v s).pulse.rpm = s.pulse.rpm ∧
    (sensed r b v s).pulse.running = s.pulse.running ∧ (sensed r b v s).dist.live = s.dist.live ∧
    (sensed r b v s).dist.lost = s.dist.lost ∧ (sensed r b v s).dist.retained = s.dist.retained ∧
    (sensed r b v s).dist.nextSlot = s.dist.nextSlot ∧
    (sensed r b v s).dist.writeCounts = s.dist.writeCounts ∧ (sensed r b v s).dist.tripA = s.dist.tripA ∧
    (sensed r b v s).dist.tripB = s.dist.tripB ∧ (sensed r b v s).dist.watch = s.dist.watch ∧
    (sensed r b v s).dist.preset = s.dist.preset ∧ (sensed r b v s).dist.kfactor = s.dist.kfactor ∧
    (sensed r b v s).analog.crankHold = s.analog.crankHold ∧
    (sensed r b v s).analog.supplyLow = s.analog.supplyLow ∧ (sensed r b v s).warn.handed = s.warn.handed ∧
    (sensed r b v s).out.supervision = s.out.supervision ∧ (sensed r b v s).faults.clear = s.faults.clear ∧
    (sensed r b v s).store.array = s.store.array ∧ (sensed r b v s).store.job = s.store.job ∧
    (sensed r b v s).store.notRetained = s.store.notRetained ∧
    (sensed r b v s).store.configCount = s.store.configCount ∧
    (sensed r b v s).link.inFrame = s.link.inFrame ∧ (sensed r b v s).link.counter = s.link.counter ∧
    (sensed r b v s).link.shift = s.link.shift ∧ (sensed r b v s).link.kind = s.link.kind ∧
    (sensed r b v s).link.progress = s.link.progress ∧ (sensed r b v s).link.answer = s.link.answer ∧
    (sensed r b v s).link.holdNext = s.link.holdNext ∧ (sensed r b v s).link.request = s.link.request ∧
    (sensed r b v s).link.session = s.link.session ∧
    (sensed r b v s).link.sessionTimer = s.link.sessionTimer ∧
    (sensed r b v s).win.attention = s.win.attention ∧ (sensed r b v s).win.claims = s.win.claims ∧
    (sensed r b v s).win.enable = s.win.enable ∧ (sensed r b v s).win.capture = s.win.capture ∧
    (sensed r b v s).win.faultCount = s.win.faultCount ∧ (sensed r b v s).win.softCause = s.win.softCause ∧
    (sensed r b v s).win.source = s.win.source ∧ (sensed r b v s).win.adoption = s.win.adoption ∧
    (sensed r b v s).win.lastTake = s.win.lastTake ∧ (sensed r b v s).win.sdo = s.win.sdo ∧
    (sensed r b v s).image = s.image ∧ (sensed r b v s).pending = s.pending := by
  simp [sensed]

@[simp] theorem dwellEvent_frame (b : Bool) (s : State) :
    (dwellEvent b s).time = s.time ∧ (dwellEvent b s).sense = s.sense ∧ (dwellEvent b s).pulse = s.pulse ∧
    (dwellEvent b s).dist = s.dist ∧ (dwellEvent b s).analog = s.analog ∧
    (dwellEvent b s).door.doorways = s.door.doorways ∧ (dwellEvent b s).door.kneel = s.door.kneel ∧
    (dwellEvent b s).door.ramp = s.door.ramp ∧ (dwellEvent b s).door.cycle = s.door.cycle ∧
    (dwellEvent b s).door.latch = s.door.latch ∧ (dwellEvent b s).door.journal = s.door.journal ∧
    (dwellEvent b s).door.nextSequence = s.door.nextSequence ∧ (dwellEvent b s).door.age = s.door.age ∧
    (dwellEvent b s).door.matureDue = s.door.matureDue ∧ (dwellEvent b s).door.dpermit = s.door.dpermit ∧
    (dwellEvent b s).warn = s.warn ∧ (dwellEvent b s).out = s.out ∧ (dwellEvent b s).faults = s.faults ∧
    (dwellEvent b s).store = s.store ∧ (dwellEvent b s).link = s.link ∧
    (dwellEvent b s).win.slots = s.win.slots ∧ (dwellEvent b s).win.attention = s.win.attention ∧
    (dwellEvent b s).win.claims = s.win.claims ∧ (dwellEvent b s).win.enable = s.win.enable ∧
    (dwellEvent b s).win.capture = s.win.capture ∧ (dwellEvent b s).win.faultCount = s.win.faultCount ∧
    (dwellEvent b s).win.softCause = s.win.softCause ∧ (dwellEvent b s).win.source = s.win.source ∧
    (dwellEvent b s).win.ops = s.win.ops ∧ (dwellEvent b s).win.adoption = s.win.adoption ∧
    (dwellEvent b s).win.lastTake = s.win.lastTake ∧ (dwellEvent b s).win.sdo = s.win.sdo ∧
    (dwellEvent b s).image = s.image ∧ (dwellEvent b s).pending = s.pending := by
  simp [dwellEvent]

@[simp] theorem roadEvent_frame (s : State) :
    (roadEvent s).time = s.time ∧ (roadEvent s).sense = s.sense ∧ (roadEvent s).dist = s.dist ∧
    (roadEvent s).analog.lateAt = s.analog.lateAt ∧ (roadEvent s).analog.crankHold = s.analog.crankHold ∧
    (roadEvent s).analog.supplyLow = s.analog.supplyLow ∧ (roadEvent s).door.doorways = s.door.doorways ∧
    (roadEvent s).door.kneel = s.door.kneel ∧ (roadEvent s).door.ramp = s.door.ramp ∧
    (roadEvent s).warn.handed = s.warn.handed ∧ (roadEvent s).out.supervision = s.out.supervision ∧
    (roadEvent s).faults.clear = s.faults.clear ∧ (roadEvent s).store.array = s.store.array ∧
    (roadEvent s).store.job = s.store.job ∧ (roadEvent s).store.notRetained = s.store.notRetained ∧
    (roadEvent s).store.configCount = s.store.configCount ∧ (roadEvent s).link.inFrame = s.link.inFrame ∧
    (roadEvent s).link.counter = s.link.counter ∧ (roadEvent s).link.shift = s.link.shift ∧
    (roadEvent s).link.kind = s.link.kind ∧ (roadEvent s).link.progress = s.link.progress ∧
    (roadEvent s).link.answer = s.link.answer ∧ (roadEvent s).link.holdNext = s.link.holdNext ∧
    (roadEvent s).link.request = s.link.request ∧ (roadEvent s).link.session = s.link.session ∧
    (roadEvent s).link.sessionTimer = s.link.sessionTimer ∧ (roadEvent s).win.attention = s.win.attention ∧
    (roadEvent s).win.claims = s.win.claims ∧ (roadEvent s).win.enable = s.win.enable ∧
    (roadEvent s).win.capture = s.win.capture ∧ (roadEvent s).win.faultCount = s.win.faultCount ∧
    (roadEvent s).win.softCause = s.win.softCause ∧ (roadEvent s).win.source = s.win.source ∧
    (roadEvent s).win.adoption = s.win.adoption ∧ (roadEvent s).win.lastTake = s.win.lastTake ∧
    (roadEvent s).win.sdo = s.win.sdo ∧ (roadEvent s).image = s.image ∧ (roadEvent s).pending = s.pending := by
  simp [roadEvent]

@[simp] theorem gaugeEvent_frame (s : State) :
    (gaugeEvent s).time = s.time ∧ (gaugeEvent s).sense = s.sense ∧
    (gaugeEvent s).dist.live = s.dist.live ∧ (gaugeEvent s).dist.lost = s.dist.lost ∧
    (gaugeEvent s).dist.retained = s.dist.retained ∧ (gaugeEvent s).dist.ticks = s.dist.ticks ∧
    (gaugeEvent s).dist.nextSlot = s.dist.nextSlot ∧ (gaugeEvent s).dist.writeCounts = s.dist.writeCounts ∧
    (gaugeEvent s).dist.tripA = s.dist.tripA ∧ (gaugeEvent s).dist.tripB = s.dist.tripB ∧
    (gaugeEvent s).dist.preset = s.dist.preset ∧ (gaugeEvent s).dist.kfactor = s.dist.kfactor ∧
    (gaugeEvent s).analog.lateAt = s.analog.lateAt ∧ (gaugeEvent s).door = s.door ∧
    (gaugeEvent s).out.supervision = s.out.supervision ∧ (gaugeEvent s).faults.clear = s.faults.clear ∧
    (gaugeEvent s).store.array = s.store.array ∧ (gaugeEvent s).store.job = s.store.job ∧
    (gaugeEvent s).store.notRetained = s.store.notRetained ∧
    (gaugeEvent s).store.configCount = s.store.configCount ∧ (gaugeEvent s).link.inFrame = s.link.inFrame ∧
    (gaugeEvent s).link.counter = s.link.counter ∧ (gaugeEvent s).link.shift = s.link.shift ∧
    (gaugeEvent s).link.kind = s.link.kind ∧ (gaugeEvent s).link.progress = s.link.progress ∧
    (gaugeEvent s).link.answer = s.link.answer ∧ (gaugeEvent s).link.holdNext = s.link.holdNext ∧
    (gaugeEvent s).link.request = s.link.request ∧ (gaugeEvent s).link.session = s.link.session ∧
    (gaugeEvent s).link.sessionTimer = s.link.sessionTimer ∧
    (gaugeEvent s).win.attention = s.win.attention ∧ (gaugeEvent s).win.claims = s.win.claims ∧
    (gaugeEvent s).win.enable = s.win.enable ∧ (gaugeEvent s).win.capture = s.win.capture ∧
    (gaugeEvent s).win.faultCount = s.win.faultCount ∧ (gaugeEvent s).win.softCause = s.win.softCause ∧
    (gaugeEvent s).win.source = s.win.source ∧ (gaugeEvent s).win.adoption = s.win.adoption ∧
    (gaugeEvent s).win.lastTake = s.win.lastTake ∧ (gaugeEvent s).win.sdo = s.win.sdo ∧
    (gaugeEvent s).image = s.image ∧ (gaugeEvent s).pending = s.pending := by
  simp [gaugeEvent]

@[simp] theorem tickOutputs_frame (s : State) :
    (tickOutputs s).time = s.time ∧ (tickOutputs s).sense = s.sense ∧ (tickOutputs s).pulse = s.pulse ∧
    (tickOutputs s).dist = s.dist ∧ (tickOutputs s).analog = s.analog ∧ (tickOutputs s).door = s.door ∧
    (tickOutputs s).warn = s.warn ∧ (tickOutputs s).out.lamps = s.out.lamps ∧
    (tickOutputs s).out.lastResult = s.out.lastResult ∧ (tickOutputs s).faults = s.faults ∧
    (tickOutputs s).store = s.store ∧ (tickOutputs s).link = s.link ∧ (tickOutputs s).win = s.win ∧
    (tickOutputs s).image = s.image ∧ (tickOutputs s).pending = s.pending := by
  simp [tickOutputs]

@[simp] theorem tickWatch_frame (s : State) :
    (tickWatch s).time = s.time ∧ (tickWatch s).sense = s.sense ∧ (tickWatch s).pulse = s.pulse ∧
    (tickWatch s).dist.live = s.dist.live ∧ (tickWatch s).dist.lost = s.dist.lost ∧
    (tickWatch s).dist.retained = s.dist.retained ∧ (tickWatch s).dist.ticks = s.dist.ticks ∧
    (tickWatch s).dist.nextSlot = s.dist.nextSlot ∧ (tickWatch s).dist.writeCounts = s.dist.writeCounts ∧
    (tickWatch s).dist.tripA = s.dist.tripA ∧ (tickWatch s).dist.tripB = s.dist.tripB ∧
    (tickWatch s).dist.preset = s.dist.preset ∧ (tickWatch s).dist.kfactor = s.dist.kfactor ∧
    (tickWatch s).analog = s.analog ∧ (tickWatch s).door = s.door ∧ (tickWatch s).warn = s.warn ∧
    (tickWatch s).out = s.out ∧ (tickWatch s).faults = s.faults ∧ (tickWatch s).store = s.store ∧
    (tickWatch s).link = s.link ∧ (tickWatch s).win = s.win ∧ (tickWatch s).image = s.image ∧
    (tickWatch s).pending = s.pending := by
  unfold tickWatch
  (repeat' split) <;> simp

end Sys2Proof.Machine
end

