-- ==== Sys2Proof/Laws/ImageBytes.lean ====
section
/-! SUPPORT. The content of each image is what the layouts of R176 say, byte by byte: one lemma for each image, and
one for what each address of the window reads. -/

namespace Sys2Proof.Machine

open Sys2Proof.Safety

theorem flag_bit (b : Bool) (i : Nat) : bit b i = 2 ^ i * flag b := by cases b <;> simp [bit, flag]

theorem bcdOdometer_eq (n : Nat) : bcdOdometer n = bcdFive n := by
  simp [bcdOdometer, bcdFive, digits, packBcd, digit, octet, List.range_succ]

theorem bcdTrip_eq (n : Nat) : bcdTrip n = bcdThree n := by
  simp [bcdTrip, bcdThree, digits, packBcd, digit, octet, List.range_succ]

theorem sweptValue_eq (k : Nat) (low high : Int) : sweptValue k low high = sweptAt k low high := by
  simp only [sweptValue, sweptAt, roundAway]
  generalize (high - low) * ((if k % 30 ≤ 15 then k % 30 else 30 - k % 30 : Nat) : Int) = x
  split <;> omega

theorem shownValue_eq (s : State) (c : Fin 6) : shownValue s c = shownNow s c := by
  simp only [shownValue, shownNow, noValue]
  cases s.analog.channels[c].status <;> simp

theorem shownStatus_eq (s : State) (c : Fin 6) : shownStatus s c = statusNow s c := by
  simp only [shownStatus, statusNow]
  cases s.analog.channels[c].status <;> simp

theorem senseContent_eq (s : State) : senseContent s = senseBytes s := by
  simp only [senseContent, senseBytes, flag_bit]
  congr 1
  congr 1
  simp [byte, octet]

theorem doorContent_eq (s : State) : doorContent s = doorBytes s := by
  simp only [doorContent, doorFields, doorBytes, flag_bit]
  congr 1
  · congr 1
    · congr 1
      simp only [byte, octet]
      cases s.door.cycle <;> simp [Cycle.code]
    · simp only [openSequence]
      cases s.door.stop <;> rfl
  · simp only [runningDwell]
    cases s.door.stop <;> cases s.door.cycle <;> rfl

theorem outputContent_eq (s : State) : outputContent s = outputBytes s := by
  simp only [outputContent, outputBytes, flag_bit, buzzPin, remainingSeconds]
  congr 1
  · congr 1
    · congr 1
      cases s.out.test <;> simp [byte, octet] <;> rfl
    · cases s.out.test with
      | none => rfl
      | some x => simp [byte, octet]; rfl

theorem listContent_eq (s : State) : listContent s = listBytes s := by
  simp only [listContent, listBytes, listFields, listSeconds, List.zipWith_map_left, List.zipWith_map_right,
    List.zipWith_self, onsetSeconds]
  rfl

theorem journalContent_eq (s : State) : journalContent s = journalBytes s := by
  simp only [journalContent, journalBytes]
  congr 2
  apply List.map_congr_left
  intro r _
  simp only [recordBytes, bcdOdometer_eq]
  rfl

theorem doorSummary_eq (d : DoorSummary) :
    d.code = flag d.present + 2 * doorCode d.state + 16 * flag d.obstructed + 32 * flag d.emergency := by
  simp only [DoorSummary.code, flag_bit]
  cases d.state <;> simp [DoorState.code, doorCode]

theorem placeBytes_eq (p : Place) : placeBytes p = placeLaid id p := by
  cases p with
  | free => rfl
  | erasing r => rfl
  | stored r =>
    have h : summaryCode r.frame.doorways = doorwayBits r := by
      simp only [summaryCode, doorwayBits, doorSummary_eq]
    have hn : packBcd (digits 9 r.firstOdometer ++ digits 9 r.lastOdometer) =
        bcdNine r.firstOdometer r.lastOdometer := by
      simp [bcdNine, digits, packBcd, digit, octet, List.range_succ]
    have hh : byte (1 + bit r.active 2 + 8 * r.frame.speedStatus.code + 32 * r.frame.coolantStatus.code) =
        recordHead r := by
      simp only [recordHead, flag_bit, byte, octet]
      rfl
    simp only [placeBytes, storedBytes, placeLaid, id, h, hn, hh]
    rfl

theorem faultContent_eq (s : State) : faultContent s = faultBytes s := by
  simp only [faultContent, faultBytes, flag_bit]
  congr 2
  · simp [byte, octet]
  · congr 1
    exact funext placeBytes_eq

theorem gaugeChannel_eq (s : State) (c : Fin 6) : gaugeChannel s c =
    match sweeping s with
    | none => two (signed (shownNow s c)) ++ [octet (statusCode (statusNow s c))]
    | some k =>
      if h : c.val < 5 then
        let values := (senderEntry s.image ⟨c.val, h⟩).table.map (·.2)
        two (signed (sweptAt k (values.headD 0) (values.getLastD 0))) ++ [3]
      else two (signed (shownNow s c)) ++ [octet (statusCode (statusNow s c))] := by
  have ends : ∀ e : SenderEntry,
      tableEnds e = ((e.table.map (·.2)).headD 0, (e.table.map (·.2)).getLastD 0) := by
    intro e
    simp only [tableEnds]
    cases e.table with
    | nil => rfl
    | cons a l => simp [List.getLast?_cons]
  have h1 : leInt16 (shownValue s c) ++ [byte (shownStatus s c).code] =
      two (signed (shownNow s c)) ++ [octet (statusCode (statusNow s c))] := by
    rw [shownValue_eq, shownStatus_eq]
    rfl
  simp only [gaugeChannel, ends, sweptValue_eq, h1]
  cases sweeping s <;> rfl

theorem gaugeContent_eq (s : State) : gaugeContent s = gaugeBytes s := by
  have hs : s.out.test.bind (fun x => if x.pattern = .gaugeSweep then some x.cycles else none) = sweeping s := by
    simp only [sweeping]
    cases s.out.test <;> rfl
  have hc : gaugeChannel s = _ := funext (gaugeChannel_eq s)
  simp only [gaugeContent, gaugeBytes, gaugeSpeeds, hs, flag_bit, bcdOdometer_eq, bcdTrip_eq]
  rw [hc]
  cases sweeping s <;> cases s.pulse.motion <;> cases s.pulse.status <;>
    simp [byte, octet, motionCode, speedCode, Motion.code, SpeedStatus.code, sweptValue_eq] <;> rfl

/-! ## The window's bytes -/

theorem bits_getLsbD (b0 b1 b2 b3 b4 b5 b6 b7 : Bool) (i : Nat) (h : i < 8) :
    (bits [b0, b1, b2, b3, b4, b5, b6, b7]).getLsbD i = [b0, b1, b2, b3, b4, b5, b6, b7].getD i false := by
  revert i
  revert b0 b1 b2 b3 b4 b5 b6 b7
  decide

theorem bits_five (b0 b1 b2 b3 b4 : Bool) :
    bits [b0, b1, b2, b3, b4] = bits [b0, b1, b2, b3, b4, false, false, false] := by
  revert b0 b1 b2 b3 b4
  decide

/-- The low byte of a notice word, bit by bit. -/
theorem bits_low (w : NoticeWord) : w.setWidth 8 =
    bits [w.getLsbD 0, w.getLsbD 1, w.getLsbD 2, w.getLsbD 3, w.getLsbD 4, w.getLsbD 5, w.getLsbD 6,
      w.getLsbD 7] := by
  apply BitVec.eq_of_getLsbD_eq
  intro i hi
  rw [bits_getLsbD _ _ _ _ _ _ _ _ i hi]
  have : i = 0 ∨ i = 1 ∨ i = 2 ∨ i = 3 ∨ i = 4 ∨ i = 5 ∨ i = 6 ∨ i = 7 := by omega
  rcases this with rfl | rfl | rfl | rfl | rfl | rfl | rfl | rfl <;> simp

/-- The high byte of a notice word, bit by bit: bits 13 to 15 read 0. -/
theorem bits_high (w : NoticeWord) : (w >>> 8).setWidth 8 =
    bits [w.getLsbD 8, w.getLsbD 9, w.getLsbD 10, w.getLsbD 11, w.getLsbD 12] := by
  rw [bits_five]
  apply BitVec.eq_of_getLsbD_eq
  intro i hi
  rw [bits_getLsbD _ _ _ _ _ _ _ _ i hi]
  have : i = 0 ∨ i = 1 ∨ i = 2 ∨ i = 3 ∨ i = 4 ∨ i = 5 ∨ i = 6 ∨ i = 7 := by omega
  rcases this with rfl | rfl | rfl | rfl | rfl | rfl | rfl | rfl <;> simp

theorem attentionByte_eq (s : State) :
    attentionByte s = bits (s.win.attention.toList.map Option.isSome) := by
  have key : ∀ b0 b1 b2 b3 b4 b5 b6 b7 : Bool,
      (List.finRange 8).foldl (fun b n =>
        if [b0, b1, b2, b3, b4, b5, b6, b7].getD n.val false = true then b ||| BitVec.twoPow 8 n.val else b)
        (0 : Byte) = bits [b0, b1, b2, b3, b4, b5, b6, b7] := by decide
  have hl : s.win.attention.toList.map Option.isSome =
      [s.win.attention[0].isSome, s.win.attention[1].isSome, s.win.attention[2].isSome,
       s.win.attention[3].isSome, s.win.attention[4].isSome, s.win.attention[5].isSome,
       s.win.attention[6].isSome, s.win.attention[7].isSome] := by
    apply List.ext_getElem
    · simp
    · intro i h _
      have hi : i < 8 := by simpa using h
      have : i = 0 ∨ i = 1 ∨ i = 2 ∨ i = 3 ∨ i = 4 ∨ i = 5 ∨ i = 6 ∨ i = 7 := by omega
      rcases this with rfl | rfl | rfl | rfl | rfl | rfl | rfl | rfl <;> simp
  rw [hl, ← key]
  simp only [attentionByte]
  rfl

/-- The port words as their bytes (R165, R176). -/
theorem portByte_eq (s : State) (a : Nat) (h : a < 0x0020) : portByte s a = (portBytes s).getD a 0 := by
  have hr : runState s = (portBytes s).getD 4 0 := by
    have hs : storeFault s = decide (s.store.notRetained ≠ []) := by
      simp only [storeFault]
      cases s.store.notRetained <;> rfl
    simp only [runState, hs, flag_bit, Nat.pow_zero, Nat.one_mul]
    rfl
  have hc : byte (s.win.capture.getD 0).toNat = (portBytes s).getD 20 0 ∧
      byte ((s.win.capture.getD 0).toNat / 256) = (portBytes s).getD 21 0 := by
    simp only [portBytes]
    cases s.win.capture <;> exact ⟨rfl, rfl⟩
  have hn : (s.win.notice.setWidth 8 : Byte) = (portBytes s).getD 10 0 := bits_low _
  have hm : ((s.win.notice >>> 8).setWidth 8 : Byte) = (portBytes s).getD 11 0 := bits_high _
  have he : (s.win.enable.setWidth 8 : Byte) = (portBytes s).getD 14 0 := bits_low _
  have hf : ((s.win.enable >>> 8).setWidth 8 : Byte) = (portBytes s).getD 15 0 := bits_high _
  have ha : attentionByte s = (portBytes s).getD 6 0 := attentionByte_eq s
  have hp : ∀ b : Bool, byte (bit b 0) = octet (flag b) := by decide
  simp only [portByte, hr, hc.1, hc.2, hn, hm, he, hf, ha, hp]
  revert a
  intro a h
  interval_cases a <;> rfl

/-- A read that takes nothing gives the window's byte (R164). -/
theorem readByte_eq (s : State) (a : Nat) : readByte s a = windowByte s a := by
  by_cases h : a < 0x0020
  · simp only [readByte, windowByte, h, if_true, portByte_eq s a h]
  by_cases hc : a < 0x0024
  · have : a = 32 ∨ a = 33 ∨ a = 34 ∨ a = 35 := by omega
    rcases this with rfl | rfl | rfl | rfl <;> rfl
  have hn : claimAt a = none := by
    simp only [claimAt, claimOfNumber]
    repeat' split
    all_goals first | rfl | omega
  by_cases hs : 0x0100 ≤ a ∧ a < 0x0300
  · have hi : isSlot a = true := by simp [isSlot, hs]
    simp only [readByte, windowByte, h, hc, hs, hn, hi, if_true, if_false, and_self]
    split
    · have hg : ∀ (v : Vector SlotState 8) (n : Fin 8) (k : Nat), n.val = k → v[k]? = some v[n] := by
        rintro v n k rfl
        exact Vector.getElem?_eq_getElem n.isLt
      have hv : (slotAt a).val = (a - 0x0100) / 64 := by
        simp only [slotAt, finOf, Fin.val_ofNat]
        omega
      rw [hg s.win.slots (slotAt a) _ hv]
      generalize s.win.slots[slotAt a] = x
      cases x <;> rfl
    · rfl
  · have hi : isSlot a = false := by
      simp only [isSlot, Bool.and_eq_false_iff, decide_eq_false_iff_not]
      omega
    have ha : (isFreeRam a || isImage a) =
        ramAreas.any (fun r => decide (r.1 ≤ a) && decide (a < r.1 + r.2)) := by
      rw [Bool.eq_iff_iff]
      simp only [isFreeRam, isImage, ramAreas, gaugeArea, senseArea, doorArea, outputArea, listArea, journalArea,
        faultArea, List.any_cons, List.any_nil, Bool.or_eq_true, Bool.and_eq_true, decide_eq_true_eq,
        Bool.false_eq_true, or_false]
      omega
    simp only [readByte, windowByte, h, hc, hs, hn, hi, ha, if_false, Bool.false_eq_true]

end Sys2Proof.Machine
end

