-- ==== Sys2Proof/Laws/Judge.lean ====
section
/-! SUPPORT. The judging of the warnings: what `judgeAll` does, once, and the tables of the sources, the qualifiers
and the gauge truths. -/

namespace Sys2Proof.Machine

open Sys2Proof.Safety

/-! ## Sources that stand alike -/

/-- The blocks that sources and qualifiers read (R90 to R94) stand alike. -/
structure SameSources (r s : State) : Prop where
  sense : r.sense = s.sense
  pulse : r.pulse = s.pulse
  door : r.door = s.door
  analog : r.analog = s.analog
  notRetained : r.store.notRetained = s.store.notRetained
  source : r.win.source = s.win.source
  supervision : r.out.supervision = s.out.supervision
  image : r.image = s.image

theorem sourceTruth_same {r s : State} (h : SameSources r s) (x : Option Source) (kept : Bool) :
    sourceTruth r x kept = sourceTruth s x kept := by
  obtain ⟨h1, h2, h3, h4, h5, h6, h7, h8⟩ := h
  have hl : lineState r = lineState s := funext fun n => by simp only [lineState, h1]
  have ho : doorwayOpen r = doorwayOpen s := funext fun n => by simp only [doorwayOpen, h3, h8]
  cases x with
  | none => rfl
  | some x =>
    cases x <;> simp only [sourceTruth, hl, doorOpenMoving, anyOpen, ho, doorwayIn,
      doorEmergency, senderFault, wireFault, storeFault, configDefaults, supervisionFallback, h2, h3, h4, h5, h6,
      h7, h8]

theorem qualifierHolds_same {r s : State} (h : SameSources r s) (q : Qualifier) :
    qualifierHolds r q = qualifierHolds s q := by
  have hl : lineState r = lineState s := funext fun n => by simp only [lineState, h.sense]
  cases q <;> simp only [qualifierHolds, ignitionOn, hl, h.pulse]

theorem conditionIn_same {r s : State} (h : SameSources r s) (w : Fin 48) (kept : Bool) :
    conditionIn r w kept = conditionIn s w kept := by
  simp only [conditionIn, sourceTruth_same h, qualifierHolds_same h, h.image]

theorem onsetIn_same {r s : State} (h : SameSources r s) (u : WarningUnit) (w : Fin 48) :
    onsetIn r u w = onsetIn s u w := by simp only [onsetIn, conditionIn_same h, h.image]

theorem leavesIn_same {r s : State} (h : SameSources r s) (u : WarningUnit) (w : Fin 48) :
    leavesIn r u w = leavesIn s u w := by simp only [leavesIn, conditionIn_same h, h.image]

/-! ## One judgement -/

/-- What one judgement makes of a warning whose onset would take `number` (R95). -/
def movedTo (r : State) (now number : Nat) (w : Fin 48) (x : Warning) : Warning :=
  let d := warningDef r.image w
  let y : Warning := { x with truth := sourceTruth r d.source x.truth }
  let onset : Warning :=
    { y with state := .activeUnack, timer := none, age := 0, onsetAt := now, number := some number }
  if d.enabled = false then x
  else match x.state, conditionIn r w x.truth with
    | .inactive, false => y
    | .inactive, true =>
      if d.delay = 0 then onset
      else { y with state := .pending, timer := some { left := 10 * d.delay, since := now } }
    | .pending, false => returned y
    | .pending, true => y
    | .activeUnack, false => if d.latch = true then { y with state := .latched } else returned y
    | .activeUnack, true => y
    | .activeAck, false => returned y
    | .activeAck, true => y
    | .latched, false => y
    | .latched, true => onset

theorem newTimer_tenths (now d : Nat) : newTimer now (100 * d) = { left := 10 * d, since := now } := by
  simp only [newTimer, stepsOf, Timer.mk.injEq, and_true]; omega

theorem onset_warn (w : Fin 48) (s : State) : (onset w s).warn = (enterList w s).warn := by
  simp only [onset]
  (repeat' split) <;> simp

theorem leaveList_warn (w : Fin 48) (s : State) :
    (leaveList w s).warn =
      { s.warn with
        warnings := s.warn.warnings.set w.val (returned s.warn.warnings[w]) w.isLt
        list := s.warn.list.erase w } := by
  simp only [leaveList]
  split <;> simp [setWarning, setList, returned, Warning.toInactive]

theorem restate_warn (w : Fin 48) (st : WarnState) (s : State) :
    (restate w st s).warn =
      { s.warn with
        warnings := s.warn.warnings.set w.val { s.warn.warnings[w] with state := st } w.isLt } := by
  simp [restate, setWarning]

/-- A warning of the unit is replaced. -/
def putWarning (w : Fin 48) (x : Warning) (u : WarningUnit) : WarningUnit :=
  { u with warnings := u.warnings.set w.val x w.isLt }

theorem enterList_warn (w : Fin 48) (s : State) :
    (enterList w s).warn =
      { putWarning w
          { s.warn.warnings[w] with
            state := .activeUnack, timer := none, number := some s.warn.nextNumber, age := 0
            onsetAt := s.time.now } s.warn with
        nextNumber := min (s.warn.nextNumber + 1) 4294967295
        list := insertOnset (classRank s) w (s.warn.list.erase w) } := rfl

theorem moveWarning_warn (w : Fin 48) (d : WarningDef) (c : Bool) (s : State) :
    (moveWarning w d c s).warn =
      let x := s.warn.warnings[w]
      match x.state, c with
      | .inactive, false => s.warn
      | .inactive, true =>
        if d.delay = 0 then (enterList w s).warn
        else putWarning w
          { x with state := .pending, timer := some { left := 10 * d.delay, since := s.time.now } } s.warn
      | .pending, false => putWarning w (returned x) s.warn
      | .pending, true => s.warn
      | .activeUnack, false =>
        if d.latch = true then putWarning w { x with state := .latched } s.warn
        else { putWarning w (returned x) s.warn with list := s.warn.list.erase w }
      | .activeUnack, true => s.warn
      | .activeAck, false => { putWarning w (returned x) s.warn with list := s.warn.list.erase w }
      | .activeAck, true => s.warn
      | .latched, false => s.warn
      | .latched, true => (enterList w s).warn := by
  unfold moveWarning
  cases hx : s.warn.warnings[w].state <;> cases c <;> simp only [hx, if_true, if_false, Bool.false_eq_true]
  · split
    · exact onset_warn w s
    · rw [newTimer_tenths]; rfl
  · rfl
  · split
    · exact restate_warn w .latched s
    · exact leaveList_warn w s
  · exact leaveList_warn w s
  · exact onset_warn w s

/-- One judgement, as the Warning Unit alone shows it. -/
theorem judgeWarning_warn (s : State) (w : Fin 48) :
    (judgeWarning s w).warn =
      { putWarning w (movedTo s s.time.now s.warn.nextNumber w s.warn.warnings[w]) s.warn with
        nextNumber :=
          if onsetIn s s.warn w = true then min (s.warn.nextNumber + 1) 4294967295 else s.warn.nextNumber
        list :=
          if onsetIn s s.warn w = true then insertOnset (classRank s) w (s.warn.list.erase w)
          else if leavesIn s s.warn w = true then s.warn.list.erase w else s.warn.list } := by
  simp only [judgeWarning]
  split
  · rename_i he
    have hx : ∀ x, (setWarning w x s).warn.warnings[w] = x := fun x => by simp
    have hs : ∀ x, (setWarning w x s).warn = putWarning w x s.warn := fun _ => rfl
    have hp : ∀ x y, putWarning w y (putWarning w x s.warn) = putWarning w y s.warn := fun x y => by
      simp [putWarning]
    have hc : condition s (warningDef s.image w)
        (sourceTruth s (warningDef s.image w).source s.warn.warnings[w].truth) =
        conditionIn s w s.warn.warnings[w].truth := rfl
    rw [moveWarning_warn, hc]
    simp only [hs, hp, enterList_warn, onsetIn, leavesIn, movedTo, he]
    generalize conditionIn s w s.warn.warnings[w].truth = c
    cases hw : s.warn.warnings[w].state <;> cases c <;> simp [putWarning]
    · split
      · simp; rfl
      · simp
    · split <;> rename_i h <;> simp [h]
    · rfl
  · rename_i he
    simp [onsetIn, leavesIn, movedTo, he, putWarning]

/-! ## All of them -/

/-- The warnings of a list judged one after the other, as the Warning Unit alone shows it. -/
def judgedUnit (s : State) (u : WarningUnit) (w : Fin 48) : WarningUnit :=
  { putWarning w (movedTo s s.time.now u.nextNumber w u.warnings[w]) u with
    nextNumber := if onsetIn s u w = true then min (u.nextNumber + 1) 4294967295 else u.nextNumber
    list :=
      if onsetIn s u w = true then insertOnset (classRank s) w (u.list.erase w)
      else if leavesIn s u w = true then u.list.erase w else u.list }

theorem movedTo_same {r s : State} (h : SameSources r s) (now n : Nat) (w : Fin 48) (x : Warning) :
    movedTo r now n w x = movedTo s now n w x := by
  simp only [movedTo, conditionIn_same h, sourceTruth_same h, h.image]

theorem judgedUnit_same {r s : State} (h : SameSources r s) (ht : r.time = s.time) :
    judgedUnit r = judgedUnit s := by
  funext u w
  have hr : classRank r = classRank s := funext fun v => by simp only [classRank, h.image]
  simp only [judgedUnit, movedTo_same h, onsetIn_same h, leavesIn_same h, ht, hr]

theorem judgeWarning_sources (s : State) (w : Fin 48) : SameSources (judgeWarning s w) s := by
  constructor <;> simp

theorem judge_fold (l : List (Fin 48)) : ∀ s : State,
    (l.foldl judgeWarning s).warn = l.foldl (judgedUnit s) s.warn ∧ SameSources (l.foldl judgeWarning s) s := by
  induction l with
  | nil => exact fun s => ⟨rfl, by constructor <;> rfl⟩
  | cons w l ih =>
    intro s
    have h := judgeWarning_sources s w
    obtain ⟨h1, h2⟩ := ih (judgeWarning s w)
    refine ⟨?_, ?_⟩
    · rw [List.foldl_cons, h1, judgedUnit_same h (by simp), judgeWarning_warn]; rfl
    · exact ⟨h2.sense.trans h.sense, h2.pulse.trans h.pulse, h2.door.trans h.door, h2.analog.trans h.analog,
        h2.notRetained.trans h.notRetained, h2.source.trans h.source, h2.supervision.trans h.supervision,
        h2.image.trans h.image⟩

theorem counterAfter_counterAfter (n a b : Nat) : counterAfter (counterAfter n a) b = counterAfter n (a + b) := by
  simp only [counterAfter]
  split <;> split <;> (try split) <;> omega

theorem insertOnset_perm (rank : Fin 48 → Nat) (w : Fin 48) (l : List (Fin 48)) :
    (insertOnset rank w l).Perm (w :: l) := by
  simp only [insertOnset]
  refine List.perm_middle.trans (List.Perm.cons w ?_)
  rw [List.takeWhile_append_dropWhile]

theorem insertOnset_filter (rank : Fin 48 → Nat) (w : Fin 48) (l : List (Fin 48)) (p : Fin 48 → Bool)
    (h : p w = false) : (insertOnset rank w l).filter p = l.filter p := by
  simp only [insertOnset, List.filter_append, List.filter_cons, h]
  rw [if_neg (by simp), ← List.filter_append, List.takeWhile_append_dropWhile]

theorem onsetIn_leavesIn (s : State) (u : WarningUnit) (w : Fin 48) (h : onsetIn s u w = true) :
    leavesIn s u w = false := by
  simp only [onsetIn, Bool.and_eq_true] at h
  have hc : conditionIn s w u.warnings[w].truth = true := h.1.2
  simp only [leavesIn, hc, Bool.not_true, Bool.and_false, Bool.false_and]

theorem judgedUnit_list (s : State) (u : WarningUnit) (a : Fin 48) (hnd : u.list.Nodup) :
    (judgedUnit s u a).list.Nodup ∧
    (∀ w, w ∈ (judgedUnit s u a).list ↔
      (w = a ∧ onsetIn s u w = true) ∨ (w ∈ u.list ∧ ¬ (w = a ∧ leavesIn s u w = true))) ∧
    (judgedUnit s u a).list.filter (fun w => !(decide (w = a) && onsetIn s u w)) =
      u.list.filter (fun w => !(decide (w = a) && onsetIn s u w) && !(decide (w = a) && leavesIn s u w)) := by
  have hout : ∀ p : Fin 48 → Bool, p a = false → (u.list.erase a).filter p = u.list.filter p := by
    intro p hpa
    rw [hnd.erase_eq_filter, List.filter_filter]
    apply List.filter_congr
    intro w _
    by_cases hw : w = a
    · subst hw; simp [hpa]
    · simp [hw]
  have hl : (judgedUnit s u a).list = if onsetIn s u a = true then insertOnset (classRank s) a (u.list.erase a)
      else if leavesIn s u a = true then u.list.erase a else u.list := rfl
  rw [hl]
  by_cases ho : onsetIn s u a = true
  · have hf := onsetIn_leavesIn s u a ho
    have hpm := insertOnset_perm (classRank s) a (u.list.erase a)
    rw [if_pos ho]
    refine ⟨hpm.nodup_iff.mpr (List.nodup_cons.mpr ⟨hnd.not_mem_erase, hnd.erase a⟩), ?_, ?_⟩
    · intro w
      rw [hpm.mem_iff, List.mem_cons, hnd.mem_erase_iff]
      by_cases hw : w = a
      · subst hw; simp [ho]
      · simp [hw]
    · rw [insertOnset_filter _ _ _ _ (by simp [ho]), hout _ (by simp [ho])]
      apply List.filter_congr
      intro w _
      by_cases hw : w = a
      · subst hw; simp [ho]
      · simp [hw]
  · rw [if_neg ho]
    by_cases hv : leavesIn s u a = true
    · rw [if_pos hv]
      refine ⟨hnd.erase a, ?_, ?_⟩
      · intro w
        rw [hnd.mem_erase_iff]
        by_cases hw : w = a
        · subst hw; simp [ho, hv]
        · simp [hw]
      · rw [hnd.erase_eq_filter, List.filter_filter]
        apply List.filter_congr
        intro w _
        by_cases hw : w = a
        · subst hw; simp [hv]
        · simp [hw]
    · rw [if_neg hv]
      refine ⟨hnd, ?_, ?_⟩
      · intro w
        by_cases hw : w = a
        · subst hw; simp [ho, hv]
        · simp [hw]
      · apply List.filter_congr
        intro w _
        by_cases hw : w = a
        · subst hw; simp [ho, hv]
        · simp [hw]

/-- Several warnings judged in ascending order: what each becomes, the counter and the list. -/
theorem judgedUnit_fold (s : State) (l : List (Fin 48)) : ∀ u : WarningUnit, l.Pairwise (· < ·) →
    let v := l.foldl (judgedUnit s) u
    (∀ w, w ∉ l → v.warnings[w] = u.warnings[w]) ∧
    (∀ w ∈ l, v.warnings[w] = movedTo s s.time.now
      (counterAfter u.nextNumber ((l.filter (onsetIn s u)).filter (fun z => decide (z < w))).length) w
      u.warnings[w]) ∧
    v.nextNumber = counterAfter u.nextNumber (l.filter (onsetIn s u)).length ∧ v.handed = u.handed ∧
    (u.list.Nodup → v.list.Nodup ∧
      (∀ w, w ∈ v.list ↔ (w ∈ l ∧ onsetIn s u w = true) ∨ (w ∈ u.list ∧ ¬ (w ∈ l ∧ leavesIn s u w = true))) ∧
      v.list.filter (fun w => !(decide (w ∈ l) && onsetIn s u w)) =
        u.list.filter (fun w => !(decide (w ∈ l) && onsetIn s u w) && !(decide (w ∈ l) && leavesIn s u w))) := by
  induction l with
  | nil =>
    intro u _
    refine ⟨fun _ _ => rfl, by simp, by simp [counterAfter], rfl, fun h => ⟨h, by simp, by simp⟩⟩
  | cons a l ih =>
    intro u hp
    obtain ⟨ha, hl⟩ := List.pairwise_cons.mp hp
    have han : a ∉ l := fun h => absurd (ha a h) (lt_irrefl a)
    have hne : ∀ w, w ≠ a → (judgedUnit s u a).warnings[w] = u.warnings[w] := by
      intro w hw
      have : a.val ≠ w.val := fun h => hw (Fin.ext h.symm)
      simp [judgedUnit, putWarning, this]
    have heq : (judgedUnit s u a).warnings[a] = movedTo s s.time.now u.nextNumber a u.warnings[a] := by
      simp [judgedUnit, putWarning]
    have hon : ∀ w ∈ l, onsetIn s (judgedUnit s u a) w = onsetIn s u w := by
      intro w hw
      simp only [onsetIn, hne w (fun h => han (h ▸ hw))]
    have hle : ∀ w ∈ l, leavesIn s (judgedUnit s u a) w = leavesIn s u w := by
      intro w hw
      simp only [leavesIn, hne w (fun h => han (h ▸ hw))]
    have hfil : l.filter (onsetIn s (judgedUnit s u a)) = l.filter (onsetIn s u) :=
      List.filter_congr hon
    have hnum : (judgedUnit s u a).nextNumber = counterAfter u.nextNumber (if onsetIn s u a = true then 1 else 0) := by
      simp only [judgedUnit, counterAfter]
      split <;> simp
    obtain ⟨i1, i2, i3, i4, i5⟩ := ih (judgedUnit s u a) hl
    rw [hfil, hnum] at i3
    rw [List.foldl_cons]
    refine ⟨?_, ?_, ?_, i4, ?_⟩
    · intro w hw
      simp only [List.mem_cons, not_or] at hw
      rw [i1 w hw.2, hne w hw.1]
    · intro w hw
      by_cases hwa : w = a
      · subst hwa
        rw [i1 w han, heq]
        have : ((w :: l).filter (onsetIn s u)).filter (fun z => decide (z < w)) = [] := by
          apply List.filter_eq_nil_iff.mpr
          intro z hz
          have hz' := (List.mem_filter.mp hz).1
          simp only [List.mem_cons] at hz'
          rcases hz' with rfl | hz'
          · simp
          · simp [le_of_lt (ha z hz')]
        rw [this]; rfl
      · have hwl : w ∈ l := by simpa [hwa] using hw
        rw [i2 w hwl, hne w hwa, hfil, hnum, counterAfter_counterAfter]
        congr 2
        rw [List.filter_cons]
        by_cases ho : onsetIn s u a = true
        · simp [ho, ha w hwl]; omega
        · simp [ho]
    · rw [i3, counterAfter_counterAfter, List.filter_cons]
      congr 1
      split
      · simp; omega
      · simp
    · intro hnd
      obtain ⟨m1, m2, m3⟩ := judgedUnit_list s u a hnd
      obtain ⟨j1, j2, j3⟩ := i5 m1
      refine ⟨j1, ?_, ?_⟩
      · intro w
        rw [j2, m2]
        by_cases hwa : w = a
        · subst hwa
          simp [han]
        · by_cases hwl : w ∈ l
          · simp [hwa, hwl, hon w hwl, hle w hwl]
          · simp [hwa, hwl]
      · have e1 : ∀ w ∈ (l.foldl (judgedUnit s) (judgedUnit s u a)).list,
            (!(decide (w ∈ a :: l) && onsetIn s u w)) =
            ((!(decide (w = a) && onsetIn s u w)) &&
              !(decide (w ∈ l) && onsetIn s (judgedUnit s u a) w)) := by
          intro w _
          by_cases hwa : w = a
          · subst hwa
            simp [han]
          · by_cases hwl : w ∈ l
            · simp [hwa, hwl, hon w hwl]
            · simp [hwa, hwl]
        rw [List.filter_congr e1, ← List.filter_filter, j3, List.filter_filter]
        have e2 : ∀ w ∈ (judgedUnit s u a).list,
            ((!(decide (w = a) && onsetIn s u w)) &&
              (!(decide (w ∈ l) && onsetIn s (judgedUnit s u a) w) &&
                !(decide (w ∈ l) && leavesIn s (judgedUnit s u a) w))) =
            ((!(decide (w ∈ l) && onsetIn s u w) && !(decide (w ∈ l) && leavesIn s u w)) &&
              !(decide (w = a) && onsetIn s u w)) := by
          intro w _
          by_cases hwl : w ∈ l
          · simp only [hon w hwl, hle w hwl, Bool.and_comm]
          · simp [hwl]
        rw [List.filter_congr e2, ← List.filter_filter, m3, List.filter_filter]
        apply List.filter_congr
        intro w _
        by_cases hwa : w = a
        · subst hwa
          simp [han]
        · by_cases hwl : w ∈ l
          · simp [hwa, hwl]
          · simp [hwa, hwl]

/-- What `judgeAll` does (R94, R95, R97, R99), where `r` stands as the state does for all that the sources and the
qualifiers read. -/
theorem judgeAll_judges {r s : State} (h : SameSources r s) :
    warningsJudged r s.time.now s.warn (judgeAll s).warn := by
  obtain ⟨hw, -⟩ := judge_fold (List.finRange 48) s
  obtain ⟨-, h2, h3, h4, h5⟩ := judgedUnit_fold s (List.finRange 48) s.warn (List.pairwise_lt_finRange 48)
  have ho : onsetIn r s.warn = onsetIn s s.warn := funext (onsetIn_same h s.warn)
  have hl : leavesIn r s.warn = leavesIn s s.warn := funext (leavesIn_same h s.warn)
  have hm : ∀ w, w ∈ List.finRange 48 := List.mem_finRange
  simp only [hm, decide_true, Bool.true_and, true_and] at h5
  simp only [judgeAll, hw]
  refine ⟨?_, ?_, h4, ?_⟩
  · intro w
    refine (h2 w (hm w)).trans ?_
    rw [← movedTo_same h, ← ho]
    rfl
  · simp only [onsetsIn, ho]; exact h3
  · intro hnd
    obtain ⟨-, b, c⟩ := h5 hnd
    rw [ho, hl]
    refine ⟨fun w => ?_, c⟩
    rw [b w]; simp

/-! ## The tables of sources, qualifiers and gauge truths -/

theorem notClosed_eq (s : State) (n : Fin 4) : notClosed s n = doorwayOpen s n := by
  simp only [notClosed, doorwayOpen, DoorState.notClosed]
  congr 1
  cases s.door.doorways[n].state <;> rfl

theorem sourceTruth_iff (r : State) (x : Option Source) (kept : Bool) :
    sourceTruth r x kept = true ↔ truthOf r kept x := by
  cases x with
  | none => simp [sourceTruth, truthOf]
  | some x =>
    cases x with
    | doorOpenMoving =>
      simp only [sourceTruth, truthOf, doorOpenMoving, anyOpen, Bool.and_eq_true, List.any_eq_true,
        decide_eq_true_eq, notClosed_eq, List.mem_finRange, true_and]
      exact and_comm
    | wireFault l =>
      simp only [sourceTruth, truthOf, wireFault, lineState]
      cases r.sense.lines[l].debounced <;> simp [LineState.isFault]
    | senseActive l => exact decide_eq_true_iff
    | senseInactive l => exact decide_eq_true_iff
    | rampMoving => simp [sourceTruth, truthOf, and_comm]
    | kneelMoving => simp [sourceTruth, truthOf, and_comm]
    | speedSourceFault => simp [sourceTruth, truthOf, sourceValid]
    | storeFault => simp [sourceTruth, truthOf, storeFault]
    | _ =>
      simp [sourceTruth, truthOf, doorwayIn, doorEmergency, senderFault, configDefaults,
        supervisionFallback]

theorem qualifierHolds_iff (r : State) (q : Qualifier) : qualifierHolds r q = true ↔ qualified r q := by
  cases q with
  | ignitionOn => exact decide_eq_true_iff
  | _ => simp [qualifierHolds, qualified]

theorem gaugeTruth_eq (d : WarningDef) (handed : Vector (Option Handed) 8) (kept : Bool) :
    gaugeTruth d handed kept = gaugeJudged d handed kept := by
  simp only [gaugeTruth, gaugeJudged]
  cases d.source with
  | none => rfl
  | some x =>
    cases x with
    | gaugeAbove c =>
      simp only [judgeAbove]
      rcases handed[c] with _ | ⟨v, ⟨_ | _ | _⟩ | ⟨_ | _ | _⟩ | _⟩ <;> rfl
    | gaugeBelow c =>
      simp only [judgeBelow]
      rcases handed[c] with _ | ⟨v, ⟨_ | _ | _⟩ | ⟨_ | _ | _⟩ | _⟩ <;> rfl
    | _ => rfl

end Sys2Proof.Machine
end

