-- ==== Sys2Proof/Laws/Memory.lean ====
section
/-! SUPPORT. The byte memory: what a read gives after a write or a fill, and that both keep the canonical
form; and the frame of a rewrite of an image. -/

namespace Sys2Proof.Machine

/-- A read of a byte that no cell lists gives 0. -/
theorem Mem.read_eq_zero (m : Mem) (a : Nat) (h : ∀ c ∈ m, c.1 ≠ a) : m.read a = 0 := by
  induction m with
  | nil => rfl
  | cons c m ih =>
    obtain ⟨b, v⟩ := c
    rw [Mem.read, if_neg (fun e => h (b, v) (by simp) e.symm)]
    exact ih (fun d hd => h d (by simp [hd]))

/-- A read of two memories joined reads the first one's cells first. -/
theorem Mem.read_append (m n : Mem) (a : Nat) :
    (m ++ n : Mem).read a = if ∃ c ∈ m, c.1 = a then m.read a else n.read a := by
  induction m with
  | nil => simp
  | cons c m ih =>
    obtain ⟨b, v⟩ := c
    by_cases hb : a = b
    · simp [Mem.read, hb]
    · have hb' : b ≠ a := fun e => hb e.symm
      simp [Mem.read, hb, hb', ih]

/-- A read after a write elsewhere. -/
theorem Mem.read_write_ne (m : Mem) (a b : Nat) (v : Byte) (h : b ≠ a) : (m.write a v).read b = m.read b := by
  induction m with
  | nil =>
    unfold Mem.write
    split <;> simp [Mem.read, h]
  | cons c m ih =>
    obtain ⟨d, w⟩ := c
    unfold Mem.write
    (repeat' split) <;> simp_all [Mem.read]

/-- The canonical form of a memory's tail. -/
theorem Mem.wf_tail (c : Host.Cell) (m : Mem) (h : Mem.wf (c :: m)) : Mem.wf m :=
  ⟨(List.pairwise_cons.mp h.1).2, fun d hd => h.2 d (by simp [hd])⟩

/-- A read of the byte just written. -/
theorem Mem.read_write_self (m : Mem) (a : Nat) (v : Byte) (h : m.wf) : (m.write a v).read a = v := by
  induction m with
  | nil =>
    unfold Mem.write
    split <;> simp_all [Mem.read]
  | cons c m ih =>
    obtain ⟨d, w⟩ := c
    have above : ∀ e ∈ m, d < e.1 := (List.pairwise_cons.mp h.1).1
    unfold Mem.write
    split
    · rename_i hlt
      split
      · rename_i hv
        rw [hv, Mem.read_eq_zero]
        intro e he
        rcases List.mem_cons.mp he with rfl | he
        · simp; omega
        · have := above e he; omega
      · simp [Mem.read]
    · split
      · rename_i heq
        split
        · rename_i hv
          rw [hv, Mem.read_eq_zero]
          intro e he
          have := above e he
          omega
        · simp [Mem.read]
      · rename_i hne
        simp [Mem.read, hne, ih (Mem.wf_tail _ _ h)]

/-- Every cell of a memory after a write is a cell of the memory or the one written. -/
theorem Mem.mem_write (m : Mem) (a : Nat) (v : Byte) (c : Host.Cell) (h : c ∈ m.write a v) :
    c ∈ m ∨ (c = (a, v) ∧ v ≠ 0) := by
  induction m with
  | nil =>
    unfold Mem.write at h
    split at h <;> simp_all
  | cons d m ih =>
    obtain ⟨b, w⟩ := d
    unfold Mem.write at h
    (repeat' split at h) <;> simp only [List.mem_cons] at h ⊢ <;> tauto

/-- A write keeps the canonical form. -/
theorem Mem.write_wf (m : Mem) (a : Nat) (v : Byte) (h : m.wf) : (m.write a v).wf := by
  induction m with
  | nil =>
    unfold Mem.write
    split <;> simp_all [Mem.wf]
  | cons c m ih =>
    obtain ⟨d, w⟩ := c
    have above : ∀ e ∈ m, d < e.1 := (List.pairwise_cons.mp h.1).1
    have tail := Mem.wf_tail _ _ h
    have hw : w ≠ 0 := h.2 (d, w) (by simp)
    unfold Mem.write
    split
    · rename_i hlt
      split
      · exact h
      · rename_i hv
        refine ⟨List.pairwise_cons.mpr ⟨?_, h.1⟩, ?_⟩
        · intro e he
          rcases List.mem_cons.mp he with rfl | he
          · exact hlt
          · have := above e he; simp; omega
        · intro e he
          rcases List.mem_cons.mp he with rfl | he
          · exact hv
          · exact h.2 e he
    · split
      · rename_i heq
        subst heq
        split
        · exact tail
        · rename_i hv
          refine ⟨List.pairwise_cons.mpr ⟨above, tail.1⟩, ?_⟩
          intro e he
          rcases List.mem_cons.mp he with rfl | he
          · exact hv
          · exact tail.2 e he
      · rename_i hge hne
        refine ⟨List.pairwise_cons.mpr ⟨?_, (ih tail).1⟩, ?_⟩
        · intro e he
          rcases Mem.mem_write m a v e he with h' | ⟨rfl, -⟩
          · exact above e h'
          · simp; omega
        · intro e he
          rcases List.mem_cons.mp he with rfl | he
          · exact hw
          · exact (ih tail).2 e he

/-- The cells of a run of bytes lie in its range and hold no 0. -/
theorem Mem.mem_cells (a : Nat) (bytes : List Byte) (c : Host.Cell) (h : c ∈ Mem.cells a bytes) :
    a ≤ c.1 ∧ c.1 < a + bytes.length ∧ c.2 ≠ 0 := by
  induction bytes generalizing a with
  | nil => simp [Mem.cells] at h
  | cons v vs ih =>
    unfold Mem.cells at h
    split at h
    · have := ih (a + 1) h
      simp only [List.length_cons]
      refine ⟨?_, ?_, this.2.2⟩ <;> omega
    · rename_i hv
      rcases List.mem_cons.mp h with rfl | h
      · exact ⟨Nat.le_refl a, by simp, hv⟩
      · have := ih (a + 1) h
        simp only [List.length_cons]
        refine ⟨?_, ?_, this.2.2⟩ <;> omega

/-- The cells of a run of bytes are in canonical form. -/
theorem Mem.cells_wf (a : Nat) (bytes : List Byte) : (Mem.cells a bytes).wf := by
  induction bytes generalizing a with
  | nil => simp [Mem.cells, Mem.wf]
  | cons v vs ih =>
    unfold Mem.cells
    split
    · exact ih (a + 1)
    · rename_i hv
      refine ⟨List.pairwise_cons.mpr ⟨?_, (ih (a + 1)).1⟩, ?_⟩
      · intro c hc
        have := Mem.mem_cells (a + 1) vs c hc
        simp; omega
      · intro c hc
        rcases List.mem_cons.mp hc with rfl | hc
        · exact hv
        · exact (ih (a + 1)).2 c hc

/-- A read of a run of bytes. -/
theorem Mem.read_cells (a : Nat) (bytes : List Byte) (k : Nat) :
    (Mem.cells a bytes).read (a + k) = bytes.getD k 0 := by
  induction bytes generalizing a k with
  | nil => simp [Mem.cells, Mem.read]
  | cons v vs ih =>
    unfold Mem.cells
    cases k with
    | zero =>
      split
      · rename_i hv
        rw [Mem.read_eq_zero]
        · simp [hv]
        · intro c hc
          have := Mem.mem_cells (a + 1) vs c hc
          omega
      · simp [Mem.read]
    | succ k =>
      have e : a + (k + 1) = (a + 1) + k := by omega
      split
      · rw [e, ih]; simp
      · rw [Mem.read, if_neg (by omega), e, ih]; simp

/-- A read outside a fill. -/
theorem Mem.read_fill_outside (m : Mem) (base size : Nat) (bytes : List Byte) (a : Nat)
    (h : a < base ∨ base + size ≤ a) : (m.fill base size bytes).read a = m.read a := by
  have key : ∀ (n : Mem) (p : Host.Cell → Bool), (∀ c ∈ n, c.1 = a → p c = true) →
      Mem.read (n.filter p) a = n.read a := by
    intro n p hp
    induction n with
    | nil => rfl
    | cons c n ih =>
      obtain ⟨b, v⟩ := c
      have ih' := ih (fun d hd => hp d (by simp [hd]))
      by_cases hb : a = b
      · have := hp (b, v) (by simp) hb.symm
        simp [List.filter, this, Mem.read, hb]
      · cases hpc : p (b, v) <;> simp [List.filter, hpc, Mem.read, hb, ih']
  have none_mid : ∀ c ∈ Mem.cells base (bytes.take size), c.1 ≠ a := by
    intro c hc
    have := Mem.mem_cells base (bytes.take size) c hc
    have hl : (bytes.take size).length ≤ size := by simp
    omega
  unfold Mem.fill
  rw [Mem.read_append, Mem.read_append]
  rcases h with h | h
  · rw [key m (fun c => decide (c.1 < base)) (by intro c _ e; simp; omega)]
    split
    · rfl
    · rename_i hn
      rw [if_neg (by rintro ⟨c, hc, e⟩; exact none_mid c hc e)]
      have h1 : m.read a = 0 := by
        apply Mem.read_eq_zero
        intro c hc e
        exact hn ⟨c, by simp [hc]; omega, e⟩
      rw [h1]
      apply Mem.read_eq_zero
      intro c hc e
      simp at hc
      omega
  · rw [if_neg (by rintro ⟨c, hc, e⟩; simp at hc; omega),
      if_neg (by rintro ⟨c, hc, e⟩; exact none_mid c hc e),
      key m (fun c => decide (base + size ≤ c.1)) (by intro c _ e; simp; omega)]

/-- A read inside a fill. -/
theorem Mem.read_fill_inside (m : Mem) (base size : Nat) (bytes : List Byte) (k : Nat) (h : k < size) :
    (m.fill base size bytes).read (base + k) = bytes.getD k 0 := by
  unfold Mem.fill
  rw [Mem.read_append, if_neg (by rintro ⟨c, hc, e⟩; simp at hc; omega), Mem.read_append]
  have e1 : (bytes.take size).getD k 0 = bytes.getD k 0 := by
    simp [List.getD_eq_getElem?_getD, h]
  split
  · rw [Mem.read_cells, e1]
  · rename_i hn
    rw [Mem.read_eq_zero]
    · rw [← e1, ← Mem.read_cells base, Mem.read_eq_zero]
      intro c hc e
      exact hn ⟨c, hc, e⟩
    · intro c hc e
      simp at hc
      omega

/-- A fill keeps the canonical form. -/
theorem Mem.fill_wf (m : Mem) (base size : Nat) (bytes : List Byte) (h : m.wf) :
    (m.fill base size bytes).wf := by
  have hc := Mem.cells_wf base (bytes.take size)
  have hl : (bytes.take size).length ≤ size := by simp
  refine ⟨?_, ?_⟩
  · unfold Mem.fill
    rw [List.pairwise_append, List.pairwise_append]
    refine ⟨h.1.filter _, ⟨hc.1, h.1.filter _, ?_⟩, ?_⟩
    · intro c hcm d hd
      have := Mem.mem_cells base (bytes.take size) c hcm
      simp at hd
      omega
    · intro c hcm d hd
      simp at hcm
      rcases List.mem_append.mp hd with hd | hd
      · have := Mem.mem_cells base (bytes.take size) d hd
        omega
      · simp at hd
        omega
  · unfold Mem.fill
    intro c hcm
    rcases List.mem_append.mp hcm with hcm | hcm
    · exact h.2 c (List.mem_filter.mp hcm).1
    · rcases List.mem_append.mp hcm with hcm | hcm
      · exact (Mem.mem_cells _ _ c hcm).2.2
      · exact h.2 c (List.mem_filter.mp hcm).1

/-- The window RAM after a rewrite of an image. -/
theorem rewriteImage_ram (base size : Nat) (content : List Byte) (s : State) :
    (rewriteImage base size content s).win.ram =
      (s.win.ram.fill base size ((ramRead s base + 1) :: content)).write (base + size - 1)
        (ramRead s base + 1) := rfl

/-- A rewrite of an image leaves every byte outside it. -/
theorem ramRead_rewriteImage_outside (base size : Nat) (content : List Byte) (s : State) (a : Nat)
    (hs : size ≠ 0) (h : a < base ∨ base + size ≤ a) :
    ramRead (rewriteImage base size content s) a = ramRead s a := by
  unfold ramRead
  rw [rewriteImage_ram, Mem.read_write_ne _ _ _ _ (by omega), Mem.read_fill_outside _ _ _ _ _ h]

/-- A rewrite of an image keeps the canonical form of window RAM. -/
theorem rewriteImage_wf (base size : Nat) (content : List Byte) (s : State) (h : s.win.ram.wf) :
    (rewriteImage base size content s).win.ram.wf := by
  rw [rewriteImage_ram]
  exact Mem.write_wf _ _ _ (Mem.fill_wf _ _ _ _ h)

/-- Window RAM right after reset is in its canonical form. -/
theorem reset_ram_wf : State.reset.win.ram.wf := by decide +kernel

end Sys2Proof.Machine
end

