-- ==== Sys2Proof/Laws/Pages.lean ====
section
/-! SUPPORT. The check byte of a page (R140): what passes, whatever the check computes. -/

namespace Sys2Proof.Machine

/-- A page passes its check exactly where the stored check byte matches the stored content. -/
theorem Page.good_iff {α : Type} (check : α → Byte) (p : Page α) :
    p.good check = true ↔ p.checkByte check = check p.content := by
  simp [Page.good]

/-- Whether a page passes is read from the held difference. -/
theorem Page.good_eq {α : Type} (check : α → Byte) (p : Page α) :
    p.good check = decide (p.checkError = 0) := by
  rw [Bool.eq_iff_iff, Page.good_iff, decide_eq_true_iff, Page.checkByte_matches]

/-- A page written keeps its content. -/
@[simp] theorem Page.written_content {α : Type} (c : α) : (Page.written c).content = c := rfl

/-- A page written holds the check byte computed over its content. -/
@[simp] theorem Page.written_checkByte {α : Type} (check : α → Byte) (c : α) :
    (Page.written c).checkByte check = check c := by
  simp [Page.written, Page.checkByte]

/-- A page written passes its check. -/
@[simp] theorem Page.written_good {α : Type} (check : α → Byte) (c : α) :
    (Page.written c).good check = true := by
  simp [Page.good_iff]

/-- A spoiled page fails its check. -/
@[simp] theorem Page.spoiled_good {α : Type} (check : α → Byte) (p : Page α) :
    p.spoiled.good check = false := by
  simp [Page.good_eq, Page.spoiled, Config.failedCheck]

end Sys2Proof.Machine
end

