-- ==== Sys2Proof/WellFormed.lean ====
section
/-! DEFINITION. What makes a command one that the lines can carry. `exec` is total on the others
too; these checks say which operands an SPI transaction, the link or a sender can spell. -/

namespace Sys2Proof

/-- The bits of a character that is not finished are fewer than nine clocks (R150). -/
def unfinished (clocks : Nat) : Bool := decide (clocks < 9)

/-- A gap between two edges that the 32-bit counter measures correctly (R1). -/
def withinOneWrap (gap : Nat) : Bool := decide (gap < 4294967296)

/-- A data byte of an SPI transaction lies no further past its start than one whole window
(R163: past 0x1FFF the address does not wrap). -/
def burstIndex (index : Nat) : Bool := decide (index < 8192)

/-- The checks of a command. -/
def Instr.wellFormed : Instr → Bool
  | .pulseVEdge gap => withinOneWrap gap
  | .pulseEEdge gap => withinOneWrap gap
  | .requestFrame _ _ bits => unfinished bits.length
  | .fetchFrame _ _ clocks => unfinished clocks
  | .claimTakeRead _ index => burstIndex index
  | .windowWrite _ index _ => burstIndex index
  | .fullRestart | .senseSample _ _ _ | .timerStep | .standstillMature | .lampRefresh
  | .phaseEdge _ | .gaugeCycle | .holdTimerExpiry _ | .lowSupplyWatchExpiry
  | .travelTimerExpiry _ | .conflictTimerExpiry _ | .onsetTimerExpiry _ | .repeatHalfExpiry
  | .burstIntervalExpiry | .testDurationExpiry | .lampWalkStep | .testBuzzerHalf
  | .supvPeriodExpiry | .hrstnTimerExpiry | .jobStart | .pageStart | .pageCompletion _
  | .markClose | .linkHoldExpiry | .sessionTimerExpiry | .openSession | .closeSession
  | .keepSession | .readIdent | .readChannels | .readSense | .readDoors | .readWarnings
  | .readFaultSummary | .readFault | .readOdometer | .readKFactor | .readStopJournal
  | .takeClaim | .giveClaim | .writeKFactor | .unknownKind _ | .adoptConfig | .ackWarnings
  | .tripControl | .clearFaults _ | .presetOdometer _ | .setKFactor | .outputTest _
  | .outputTestStop _ | .claimReleaseWrite _ _ | .slotPost _ | .slotFree _ | .attnSet _
  | .attnClear _ | .noticeClear _ _ | .noticeEnable _ _ | .supvControlPeriod _
  | .supvControlMode _ | .supvRefresh _ | .softRestart _ | .portFaultClear _ _ => true

end Sys2Proof
end

