-- ==== Sys2Proof/Laws/PerInstr.lean ====
section
/-! SUPPORT. A law of every command as syntax: which of its operands the checks constrain, and how. -/

namespace Sys2Proof.Laws.WellFormed

/-- The operands that the checks constrain: each with the bound it must stay under. -/
def bounded : Instr → List (Nat × Nat)
  | .pulseVEdge gap => [(gap, 4294967296)]
  | .pulseEEdge gap => [(gap, 4294967296)]
  | .requestFrame _ _ bits => [(bits.length, 9)]
  | .fetchFrame _ _ clocks => [(clocks, 9)]
  | .claimTakeRead _ index => [(index, 8192)]
  | .windowWrite _ index _ => [(index, 8192)]
  | _ => []

/-- A command is well formed exactly when each constrained operand stays under its bound. -/
def Statement (i : Instr) : Prop := i.wellFormed = true ↔ ∀ p ∈ bounded i, p.1 < p.2

/-- A command with no constrained operand. -/
theorem unconstrained {i : Instr} (h : i.wellFormed = true) (hb : bounded i = []) : Statement i := by
  simp [Statement, h, hb]

/-- A command with one constrained operand. -/
theorem constrained {i : Instr} (a b : Nat) (h : i.wellFormed = decide (a < b)) (hb : bounded i = [(a, b)]) :
    Statement i := by
  simp [Statement, h, hb]

theorem fullRestart : Statement .fullRestart := unconstrained rfl rfl

theorem senseSample (ratios : Vector Sample 32) (wireOpen : Bool) (inputs : Vector Sample 6) : Statement (.senseSample ratios wireOpen inputs) :=
  unconstrained rfl rfl

theorem timerStep : Statement .timerStep := unconstrained rfl rfl

theorem standstillMature : Statement .standstillMature := unconstrained rfl rfl

theorem lampRefresh : Statement .lampRefresh := unconstrained rfl rfl

theorem phaseEdge (phase : Phase) : Statement (.phaseEdge phase) := unconstrained rfl rfl

theorem gaugeCycle : Statement .gaugeCycle := unconstrained rfl rfl

theorem pulseVEdge (gap : Nat) : Statement (.pulseVEdge gap) := constrained _ _ rfl rfl

theorem pulseEEdge (gap : Nat) : Statement (.pulseEEdge gap) := constrained _ _ rfl rfl

theorem holdTimerExpiry (channel : Fin 5) : Statement (.holdTimerExpiry channel) := unconstrained rfl rfl

theorem lowSupplyWatchExpiry : Statement .lowSupplyWatchExpiry := unconstrained rfl rfl

theorem travelTimerExpiry (doorway : Fin 4) : Statement (.travelTimerExpiry doorway) :=
  unconstrained rfl rfl

theorem conflictTimerExpiry (doorway : Fin 4) : Statement (.conflictTimerExpiry doorway) :=
  unconstrained rfl rfl

theorem onsetTimerExpiry (warning : Fin 48) : Statement (.onsetTimerExpiry warning) := unconstrained rfl rfl

theorem repeatHalfExpiry : Statement .repeatHalfExpiry := unconstrained rfl rfl

theorem burstIntervalExpiry : Statement .burstIntervalExpiry := unconstrained rfl rfl

theorem testDurationExpiry : Statement .testDurationExpiry := unconstrained rfl rfl

theorem lampWalkStep : Statement .lampWalkStep := unconstrained rfl rfl

theorem testBuzzerHalf : Statement .testBuzzerHalf := unconstrained rfl rfl

theorem supvPeriodExpiry : Statement .supvPeriodExpiry := unconstrained rfl rfl

theorem hrstnTimerExpiry : Statement .hrstnTimerExpiry := unconstrained rfl rfl

theorem jobStart : Statement .jobStart := unconstrained rfl rfl

theorem pageStart : Statement .pageStart := unconstrained rfl rfl

theorem pageCompletion (verified : Bool) : Statement (.pageCompletion verified) := unconstrained rfl rfl

theorem requestFrame (opens : Bool) (chars : List Byte) (bits : List Bool) : Statement (.requestFrame opens chars bits) :=
  constrained _ _ rfl rfl

theorem fetchFrame (head : Option (BitVec 7)) (answers : List Bool) (clocks : Nat) : Statement (.fetchFrame head answers clocks) :=
  constrained _ _ rfl rfl

theorem markClose : Statement .markClose := unconstrained rfl rfl

theorem linkHoldExpiry : Statement .linkHoldExpiry := unconstrained rfl rfl

theorem sessionTimerExpiry : Statement .sessionTimerExpiry := unconstrained rfl rfl

theorem openSession : Statement .openSession := unconstrained rfl rfl

theorem closeSession : Statement .closeSession := unconstrained rfl rfl

theorem keepSession : Statement .keepSession := unconstrained rfl rfl

theorem readIdent : Statement .readIdent := unconstrained rfl rfl

theorem readChannels : Statement .readChannels := unconstrained rfl rfl

theorem readSense : Statement .readSense := unconstrained rfl rfl

theorem readDoors : Statement .readDoors := unconstrained rfl rfl

theorem readWarnings : Statement .readWarnings := unconstrained rfl rfl

theorem readFaultSummary : Statement .readFaultSummary := unconstrained rfl rfl

theorem readFault : Statement .readFault := unconstrained rfl rfl

theorem readOdometer : Statement .readOdometer := unconstrained rfl rfl

theorem readKFactor : Statement .readKFactor := unconstrained rfl rfl

theorem readStopJournal : Statement .readStopJournal := unconstrained rfl rfl

theorem takeClaim : Statement .takeClaim := unconstrained rfl rfl

theorem giveClaim : Statement .giveClaim := unconstrained rfl rfl

theorem writeKFactor : Statement .writeKFactor := unconstrained rfl rfl

theorem unknownKind (side : Side) : Statement (.unknownKind side) := unconstrained rfl rfl

theorem adoptConfig : Statement .adoptConfig := unconstrained rfl rfl

theorem ackWarnings : Statement .ackWarnings := unconstrained rfl rfl

theorem tripControl : Statement .tripControl := unconstrained rfl rfl

theorem clearFaults (side : Side) : Statement (.clearFaults side) := unconstrained rfl rfl

theorem presetOdometer (side : Side) : Statement (.presetOdometer side) := unconstrained rfl rfl

theorem setKFactor : Statement .setKFactor := unconstrained rfl rfl

theorem outputTest (side : Side) : Statement (.outputTest side) := unconstrained rfl rfl

theorem outputTestStop (side : Side) : Statement (.outputTestStop side) := unconstrained rfl rfl

theorem claimTakeRead (start : BitVec 16) (index : Nat) : Statement (.claimTakeRead start index) :=
  constrained _ _ rfl rfl

theorem claimReleaseWrite (claim : Claim) (value : Byte) : Statement (.claimReleaseWrite claim value) :=
  unconstrained rfl rfl

theorem slotPost (slot : Fin 8) : Statement (.slotPost slot) := unconstrained rfl rfl

theorem slotFree (slot : Fin 8) : Statement (.slotFree slot) := unconstrained rfl rfl

theorem attnSet (mask : Byte) : Statement (.attnSet mask) := unconstrained rfl rfl

theorem attnClear (mask : Byte) : Statement (.attnClear mask) := unconstrained rfl rfl

theorem noticeClear (high : Bool) (value : Byte) : Statement (.noticeClear high value) :=
  unconstrained rfl rfl

theorem noticeEnable (high : Bool) (value : Byte) : Statement (.noticeEnable high value) :=
  unconstrained rfl rfl

theorem supvControlPeriod (value : Byte) : Statement (.supvControlPeriod value) := unconstrained rfl rfl

theorem supvControlMode (value : Byte) : Statement (.supvControlMode value) := unconstrained rfl rfl

theorem supvRefresh (value : Byte) : Statement (.supvRefresh value) := unconstrained rfl rfl

theorem softRestart (value : Byte) : Statement (.softRestart value) := unconstrained rfl rfl

theorem portFaultClear (offset : Fin 4) (value : Byte) : Statement (.portFaultClear offset value) :=
  unconstrained rfl rfl

theorem windowWrite (start : BitVec 16) (index : Nat) (value : Byte) : Statement (.windowWrite start index value) :=
  constrained _ _ rfl rfl

end Sys2Proof.Laws.WellFormed
end

