-- ==== Sys2Proof/Laws/Reach.lean ====
section
/-! SUPPORT. What the consequences of an event reach in the window and on the link: window RAM, the notices, the
slot or the reply of an output test that ends. One lemma for each shared operation, each built from those of
the operations it is made of. -/

namespace Sys2Proof.Machine

open Sys2Proof.Safety

/-! ## The relation -/

/-- From `s` to `t` window RAM is rewritten only in the areas and in the result of an output test's slot, no
notice is cleared and only those listed are set, the window's operations in flight stay but for an output
test's, and with no test running nothing is delivered. -/
structure Reach (areas : List Area) (may : List Notice) (s t : State) : Prop where
  ram : ramKept (areas ++ slotResultArea s.win.ops.test) s t
  notices : noticesKept may s t
  op : t.win.ops = s.win.ops ∨ t.win.ops = { s.win.ops with test := .idle }
  quiet : s.out.test = none → noDelivery s t

variable {areas more : List Area} {may also : List Notice} {s t u : State}

/-- A step that leaves the window, the link and the test as they were. -/
theorem Reach.plain (h : t.win.ram = s.win.ram ∧ t.win.notice = s.win.notice ∧ t.win.ops = s.win.ops ∧
    t.win.slots = s.win.slots ∧ t.link = s.link ∧ t.out.test = s.out.test) : Reach areas may s t := by
  obtain ⟨h1, h2, h3, h4, h5, h6⟩ := h
  refine ⟨?_, ?_, .inl h3, fun q => ⟨by rw [h6, q], h4, h3, h5⟩⟩
  · intro a _
    simp [ramRead, h1]
  · intro n
    simp [noticeSet, h2]

/-- A step that only counts in a running test. -/
theorem Reach.counted (h : t.win.ram = s.win.ram ∧ t.win.notice = s.win.notice ∧ t.win.ops = s.win.ops ∧
    t.win.slots = s.win.slots ∧ t.link = s.link) (q : s.out.test = none → t.out.test = none) :
    Reach areas may s t := by
  obtain ⟨h1, h2, h3, h4, h5⟩ := h
  refine ⟨?_, ?_, .inl h3, fun q' => ⟨q q', h4, h3, h5⟩⟩
  · intro a _
    simp [ramRead, h1]
  · intro n
    simp [noticeSet, h2]

/-- Nothing happens. -/
theorem Reach.refl : Reach areas may s s := .plain ⟨rfl, rfl, rfl, rfl, rfl, rfl⟩

/-- One step after another. -/
theorem Reach.trans (h : Reach areas may s t) (g : Reach areas may t u) : Reach areas may s u := by
  refine ⟨?_, ?_, ?_, ?_⟩
  · intro a ha
    rw [g.ram a ?_, h.ram a ha]
    intro r hr
    rcases List.mem_append.mp hr with hr | hr
    · exact ha r (List.mem_append.mpr (.inl hr))
    · rcases h.op with e | e
      · rw [e] at hr
        exact ha r (List.mem_append.mpr (.inr hr))
      · rw [e] at hr
        exact absurd hr (by simp [slotResultArea])
  · intro n
    exact ⟨fun x => (g.notices n).1 ((h.notices n).1 x),
      fun x => by rw [(g.notices n).2 x, (h.notices n).2 x]⟩
  · rcases g.op with e | e <;> rcases h.op with e' | e' <;> simp [e, e']
  · intro q
    obtain ⟨a1, a2, a3, a4⟩ := h.quiet q
    obtain ⟨b1, b2, b3, b4⟩ := g.quiet a1
    exact ⟨b1, b2.trans a2, b3.trans a3, b4.trans a4⟩

/-- Fewer areas and notices are also at most more of them. -/
theorem Reach.mono (h : Reach areas may s t) (ha : areas ⊆ more) (hm : may ⊆ also) :
    Reach more also s t := by
  refine ⟨?_, ?_, h.op, h.quiet⟩
  · intro a hx
    refine h.ram a fun r hr => hx r ?_
    rcases List.mem_append.mp hr with hr | hr
    · exact List.mem_append.mpr (.inl (ha hr))
    · exact List.mem_append.mpr (.inr hr)
  · intro n
    exact ⟨(h.notices n).1, fun x => (h.notices n).2 fun y => x (hm y)⟩

/-- A fold of steps. -/
theorem Reach.fold {β : Type} (f : State → β → State) (h : ∀ s b, Reach areas may s (f s b)) (l : List β) :
    ∀ s, Reach areas may s (l.foldl f s) := by
  induction l with
  | nil => exact fun _ => .refl
  | cons b l ih => exact fun s => (h s b).trans (ih (f s b))

/-- A notice set. -/
theorem noticeSet_setNotice (n m : Notice) (s : State) :
    noticeSet (setNotice n s) m = (noticeSet s m || decide (n = m)) := by
  simp only [noticeSet, setNotice_notice, Notice.mask]
  cases n <;> cases m <;> simp [Notice.bit, BitVec.getLsbD_or, BitVec.getLsbD_twoPow]

/-- Setting a notice reaches nothing else. -/
theorem setNotice_reach (n : Notice) (h : n ∈ may) (s : State) : Reach areas may s (setNotice n s) := by
  refine ⟨?_, ?_, .inl (by simp), fun q => ⟨by simp [q], by simp, by simp, by simp⟩⟩
  · intro a _
    simp [ramRead]
  · intro m
    rw [noticeSet_setNotice]
    refine ⟨fun x => by simp [x], fun x => ?_⟩
    have : n ≠ m := fun e => x (e ▸ h)
    simp [this]

/-- A rewrite of an image reaches its area. -/
theorem rewriteImage_reach (base size : Nat) (h : (base, size) ∈ areas) (hs : size ≠ 0) (content : List Byte)
    (s : State) : Reach areas may s (rewriteImage base size content s) := by
  refine ⟨?_, ?_, .inl (by simp), fun q => ⟨by simp [q], by simp, by simp, by simp⟩⟩
  · intro a ha
    exact ramRead_rewriteImage_outside _ _ _ _ _ hs (ha (base, size) (by simp [h]))
  · intro n
    simp [noticeSet]

/-! ## Images -/

/-- The images rewritten at an event. -/
theorem publishAll_reach (f g : Bool) (b s : State) :
    Reach eventAreas [.doorsChanged, .warningsChanged, .faultMemoryChanged] s (publishAll f g b s) := by
  have h1 : ∀ s, Reach eventAreas [.doorsChanged, .warningsChanged, .faultMemoryChanged] s
      (publishSense b s) := by
    intro s
    unfold publishSense
    split
    · exact .refl
    · exact rewriteImage_reach _ _ (by simp [eventAreas, senseArea]) (by simp) _ _
  have h2 : ∀ s, Reach eventAreas [.doorsChanged, .warningsChanged, .faultMemoryChanged] s
      (publishDoor g b s) := by
    intro s
    unfold publishDoor
    (repeat' split)
    · exact (rewriteImage_reach _ _ (by simp [eventAreas, doorArea]) (by simp) _ _).trans
        (setNotice_reach _ (by simp) _)
    · exact rewriteImage_reach _ _ (by simp [eventAreas, doorArea]) (by simp) _ _
    · exact .refl
  have h3 : ∀ s, Reach eventAreas [.doorsChanged, .warningsChanged, .faultMemoryChanged] s
      (publishWarnings f b s) := by
    intro s
    unfold publishWarnings
    (repeat' split)
    · exact (rewriteImage_reach _ _ (by simp [eventAreas, listArea]) (by simp) _ _).trans
        (setNotice_reach _ (by simp) _)
    · exact rewriteImage_reach _ _ (by simp [eventAreas, listArea]) (by simp) _ _
    · exact .refl
  have h4 : ∀ s, Reach eventAreas [.doorsChanged, .warningsChanged, .faultMemoryChanged] s
      (publishJournal b s) := by
    intro s
    unfold publishJournal
    split
    · exact .refl
    · exact rewriteImage_reach _ _ (by simp [eventAreas, journalArea]) (by simp) _ _
  have h5 : ∀ s, Reach eventAreas [.doorsChanged, .warningsChanged, .faultMemoryChanged] s
      (publishFaults false b s) := by
    intro s
    unfold publishFaults
    split
    · exact (rewriteImage_reach _ _ (by simp [eventAreas, faultArea]) (by simp) _ _).trans
        (setNotice_reach _ (by simp) _)
    · exact .refl
  have h6 : ∀ s, Reach eventAreas [.doorsChanged, .warningsChanged, .faultMemoryChanged] s
      (publishOutput b s) := by
    intro s
    unfold publishOutput
    split
    · exact .refl
    · exact rewriteImage_reach _ _ (by simp [eventAreas, outputArea]) (by simp) _ _
  exact (h1 _).trans ((h2 _).trans ((h3 _).trans ((h4 _).trans ((h5 _).trans (h6 _)))))

/-- An event that changed nothing rewrites nothing. -/
theorem publish_self (s : State) : publish s s = s := by
  simp [publish, publishAll, publishSense, publishDoor, publishWarnings, publishJournal, publishFaults,
    publishOutput]

/-! ## The output test -/

/-- The notices of a test's end. -/
abbrev testNotices : List Notice := [.outputTest, .slotDone]

/-- The result of a test. -/
theorem deliver_reach (side : Side) (res : Result) (d : Byte) (l : List Byte) (hq : s.out.test ≠ none)
    (hr : t.win.ram = s.win.ram) (ho : t.win.ops = s.win.ops)
    (hn : ∀ n, noticeSet t n = (noticeSet s n || decide (Notice.outputTest = n))) :
    Reach [] testNotices s (deliver .test side res d l t) := by
  have keep : ∀ u : State, u.win.ram = t.win.ram → u.win.notice = t.win.notice →
      (u.win.ops = t.win.ops ∨ u.win.ops = { t.win.ops with test := .idle }) → Reach [] testNotices s u := by
    intro u h1 h2 h3
    refine ⟨fun a _ => by simp [ramRead, h1, hr], fun n => ?_, by rwa [ho] at h3, fun q => (hq q).elim⟩
    have e : noticeSet u n = noticeSet t n := by simp [noticeSet, h2]
    rw [e, hn]
    cases n <;> simp
  cases side with
  | workshop => exact keep _ (by simp [deliver]) (by simp [deliver]) (.inl (by simp [deliver]))
  | window =>
    simp only [deliver, deliverWindow]
    split
    · rename_i n h
      simp only [WindowOps.get] at h
      refine ⟨fun a ha => ?_, fun m => ?_, .inr (by simp [setWindowOp, WindowOps.put, ← ho]), fun q => (hq q).elim⟩
      · have := ha (slotBase n + 3, 2) (by simp [← ho, h, slotResultArea])
        simp only [ramRead, setWindowOp_win_ram, finishSlot, setNotice_win_ram, setSlotState_win_ram,
          setSlotResult, ramWrite]
        rw [Mem.read_write_ne _ _ _ _ (by omega), Mem.read_write_ne _ _ _ _ (by omega), hr]
      · have e : noticeSet (setWindowOp .test .idle (finishSlot n res d t)) m =
            noticeSet (setNotice .slotDone t) m := by
          simp [noticeSet, finishSlot]
        rw [e, noticeSet_setNotice, hn]
        cases m <;> simp
    · exact keep _ (by simp) (by simp) (.inr (by simp [setWindowOp, WindowOps.put]))

/-- A test's end. -/
theorem endTest_reach (r : Option AbortReason) (s : State) : Reach [] testNotices s (endTest r s) := by
  have key : ∀ (side : Side) (res : Result) (d : Byte) (l : List Byte) (x : State),
      x.win = s.win → s.out.test ≠ none →
      Reach [] testNotices s (deliver .test side res d l (setNotice .outputTest (computeLamps x))) := by
    intro side res d l x hw hq
    refine deliver_reach side res d l hq (by simp [hw]) (by simp [hw]) fun n => ?_
    rw [noticeSet_setNotice]
    simp [noticeSet, hw]
  unfold endTest
  split
  · exact .refl
  · rename_i x hx
    dsimp only
    split <;> exact key _ _ _ _ _ rfl (by simp [hx])

/-- An abort. -/
theorem abortTest_reach (r : AbortReason) (s : State) : Reach [] testNotices s (abortTest r s) :=
  endTest_reach _ s

/-- An abort of one side's test. -/
theorem abortTestOf_reach (x : Side) (r : AbortReason) (s : State) :
    Reach [] testNotices s (abortTestOf x r s) := by
  unfold abortTestOf
  (repeat' split)
  · exact abortTest_reach _ _
  · exact .refl
  · exact .refl

/-! ## Warnings -/

/-- An onset. -/
theorem onset_reach (w : Fin 48) (s : State) : Reach [] testNotices s (onset w s) := by
  have h1 : Reach [] testNotices s (onsetBuzz (warningDef s.image w) (enterList w s)) := .plain (by simp)
  have h2 : Reach [] testNotices s (if (warningDef s.image w).record then
      occurrence w (warningDef s.image w).code (onsetBuzz (warningDef s.image w) (enterList w s))
      else onsetBuzz (warningDef s.image w) (enterList w s)) := by
    split
    · exact h1.trans (.plain (by simp))
    · exact h1
  simp only [onset]
  split
  · exact h2.trans (abortTest_reach _ _)
  · exact h2
  · exact h2

/-- A warning moves. -/
theorem moveWarning_reach (w : Fin 48) (d : WarningDef) (c : Bool) (s : State) :
    Reach [] testNotices s (moveWarning w d c s) := by
  simp only [moveWarning]
  (repeat' split) <;> first
    | exact onset_reach _ _
    | exact .refl
    | exact .plain (by simp)

/-- A warning is judged. -/
theorem judgeWarning_reach (s : State) (w : Fin 48) : Reach [] testNotices s (judgeWarning s w) := by
  simp only [judgeWarning]
  split
  · exact .trans (.plain (by simp)) (moveWarning_reach _ _ _ _)
  · exact .refl

/-- Every warning is judged. -/
theorem judgeAll_reach (s : State) : Reach [] testNotices s (judgeAll s) :=
  Reach.fold judgeWarning judgeWarning_reach _ s

/-! ## Doorways, motion and lines -/

/-- The notices of an event that a line or a motion change makes, before its images. -/
abbrev eventNotices : List Notice := [.outputTest, .slotDone, .stopRecorded, .ignition]

/-- A test's end as part of an event. -/
theorem Reach.event (h : Reach [] testNotices s t) : Reach [] eventNotices s t :=
  h.mono (by simp) (by simp)

/-- The doorway record replaced. -/
theorem setDoor_reach (d : DoorMonitor) (s : State) : Reach areas may s (setDoor d s) := .plain (by simp)

/-- The pulse record replaced. -/
theorem setPulse_reach (p : PulseUnit) (s : State) : Reach areas may s (setPulse p s) := .plain (by simp)

/-- The permit judged. -/
theorem judgePermit_reach (s : State) : Reach areas may s (judgePermit s) := .plain (by simp)

/-- The quick timer. -/
theorem resetQuick_reach (s : State) : Reach areas may s (resetQuick s) := .plain (by simp)

/-- A stop closes. -/
theorem closeStop_reach (f : OpenStop → Nat) (b : BitVec 8) (s : State) :
    Reach [] eventNotices s (closeStop f b s) := by
  unfold closeStop
  split
  · exact .refl
  · exact (setDoor_reach _ s).trans (setNotice_reach .stopRecorded (by simp) _)

/-- The stop cycle. -/
theorem cycleStep_reach (s t : State) (h : cycleStep s = some t) : Reach [] eventNotices s t := by
  simp only [cycleStep] at h
  split at h <;> (repeat' split at h) <;> simp only [Option.some.injEq, reduceCtorEq] at h <;> subst h <;>
    first
    | exact (closeStop_reach _ _ _).trans (setDoor_reach _ _)
    | exact .plain (by simp)

/-- A judgement of the stop cycle. -/
theorem judgeCycle_reach (s : State) : Reach [] eventNotices s (judgeCycle s) := by
  have key : ∀ k s, Reach [] eventNotices s (cycleSteps k s) := by
    intro k
    induction k with
    | zero => exact fun _ => .refl
    | succ k ih =>
      intro s
      unfold cycleSteps
      split
      · exact .refl
      · rename_i t h
        exact (cycleStep_reach s t h).trans (ih t)
  exact key 4 s

/-- The Doorway Monitor takes a motion change. -/
theorem doorMotion_reach (s : State) : Reach [] eventNotices s (doorMotion s) :=
  ((setDoor_reach _ s).trans (judgeCycle_reach _)).trans (judgePermit_reach _)

/-- A motion change. -/
theorem setMotion_reach (m : Motion) (s : State) : Reach [] eventNotices s (setMotion m s) := by
  unfold setMotion
  split
  · exact .refl
  · simp only [handMotion]
    split
    · exact (((setPulse_reach _ s).trans (doorMotion_reach _)).trans (resetQuick_reach _)).trans
        (abortTest_reach _ _).event
    · exact (setPulse_reach _ s).trans (doorMotion_reach _)

/-- The source is lost. -/
theorem sourceLost_reach (s : State) : Reach [] eventNotices s (sourceLost s) :=
  ((setPulse_reach _ s).trans (setMotion_reach _ _)).trans (judgePermit_reach _)

/-- The source returns. -/
theorem sourceReturn_reach (s : State) : Reach [] eventNotices s (sourceReturn s) :=
  ((setPulse_reach _ s).trans (setMotion_reach _ _)).trans (judgePermit_reach _)

/-- A sample of the wire. -/
theorem sampleWire_reach (b : Bool) (s : State) : Reach [] eventNotices s (sampleWire b s) := by
  simp only [sampleWire]
  (repeat' split)
  · exact (setPulse_reach _ s).trans (sourceLost_reach _)
  · exact (setPulse_reach _ s).trans (sourceReturn_reach _)
  · exact setPulse_reach _ s

/-- A new k-factor. -/
theorem takeK_reach (k : Nat) (s : State) : Reach [] eventNotices s (takeK k s) := by
  have h : ∀ p : PulseUnit, Reach [] eventNotices s (if sourceValid s.pulse = false ∧ sourceValid p = true then
      sourceReturn (setPulse p s) else setPulse p s) := by
    intro p
    split
    · exact (setPulse_reach _ s).trans (sourceReturn_reach _)
    · exact setPulse_reach _ s
  simpa [takeK] using h _

/-- The road speed of a gauge cycle. -/
theorem evaluateRoad_reach (s : State) : Reach [] eventNotices s (evaluateRoad s) := by
  simp only [evaluateRoad]
  split
  · exact (setPulse_reach _ s).trans (setMotion_reach _ _)
  · exact setPulse_reach _ s

/-- A doorway moves. -/
theorem moveDoorway_reach (n : Fin 4) (d : Doorway) (s : State) : Reach areas may s (moveDoorway n d s) :=
  .plain (by simp)

/-- A doorway judged. -/
theorem judgeDoorway_reach (n : Fin 4) (s : State) : Reach [] eventNotices s (judgeDoorway n s) := by
  simp only [judgeDoorway]
  split
  · exact (moveDoorway_reach _ _ s).trans (judgeCycle_reach _)
  · exact .refl

/-- The Doorway Monitor takes an ignition change. -/
theorem doorIgnition_reach (s : State) : Reach [] eventNotices s (doorIgnition s) :=
  (judgeCycle_reach s).trans (judgePermit_reach _)

/-- The ignition changes. -/
theorem ignitionChange_reach (b : Bool) (s : State) : Reach [] eventNotices s (ignitionChange b s) := by
  have h1 : Reach [] eventNotices s (setNotice .ignition s) := setNotice_reach _ (by simp) s
  have h2 : ∀ x, Reach [] eventNotices x (ageRecords x) := fun x => .plain (by simp)
  have h3 : ∀ x, Reach [] eventNotices x (saveTrigger x) := fun x => .plain (by simp)
  simp only [ignitionChange]
  split
  · exact (h1.trans (h2 _)).trans (doorIgnition_reach _)
  · exact (((h1.trans (h3 _)).trans (doorIgnition_reach _)).trans (abortTest_reach _ _).event).trans
      (resetQuick_reach _)

/-- The PARKING_BRAKE line's consumers beside the motion proxy. -/
theorem brakeConsumers_reach (x : LineState) (s : State) : Reach [] eventNotices s (brakeConsumers x s) := by
  simp only [brakeConsumers]
  split
  · exact (judgePermit_reach s).trans (abortTest_reach _ _).event
  · exact judgePermit_reach s

/-- The PARKING_BRAKE line changes. -/
theorem brakeChange_reach (x : LineState) (s : State) : Reach [] eventNotices s (brakeChange x s) := by
  have h : Reach [] eventNotices s (brakeProxy s) := by
    unfold brakeProxy
    split
    · exact .refl
    · exact setMotion_reach _ _
  exact h.trans (brakeConsumers_reach x _)

/-- A change delivered to a role. -/
theorem deliverChange_reach (role : Role) (old new : LineState) (s : State) :
    Reach [] eventNotices s (deliverChange role old new s) := by
  cases role <;> simp only [deliverChange] <;> (repeat' split) <;> first
    | exact .refl
    | exact ignitionChange_reach _ _
    | exact brakeChange_reach _ _
    | exact judgeDoorway_reach _ _
    | exact .plain (by simp)

/-- A line's change delivered. -/
theorem deliverLine_reach (b : Vector Line 32) (s : State) (n : Fin 32) :
    Reach [] eventNotices s (deliverLine b s n) := by
  simp only [deliverLine]
  split
  · exact .refl
  · exact deliverChange_reach _ _ _ _

/-- A line that an adoption changed delivered. -/
theorem adoptedLine_reach (b : Vector Line 32) (s : State) (n : Fin 32) :
    Reach [] eventNotices s (adoptedLine b s n) := by
  simp only [adoptedLine, deliverAdopted]
  (repeat' split) <;> first
    | exact .refl
    | exact brakeConsumers_reach _ _
    | exact deliverChange_reach _ _ _ _

/-- All lines that an adoption changed delivered. -/
theorem adoptedLines_reach (b : Vector Line 32) (s : State) :
    Reach [] eventNotices s (adoptedLines b s) :=
  Reach.fold (adoptedLine b) (adoptedLine_reach b) _ s

/-! ## Whole events -/

/-- The notices that an event's images and consequences set. -/
abbrev allEventNotices : List Notice :=
  [.warningsChanged, .faultMemoryChanged, .outputTest, .slotDone, .doorsChanged, .stopRecorded, .ignition]

/-- An event's end. -/
theorem finish_reach (b s : State) : Reach eventAreas allEventNotices s (finish b s) :=
  ((judgeAll_reach s).mono (by simp) (by simp [allEventNotices])).trans
    ((publishAll_reach _ _ _ _).mono (by simp) (by simp [allEventNotices]))

/-- An event's end where one source may have changed. -/
theorem settle_reach (c : Bool) (b s : State) : Reach eventAreas allEventNotices s (settle c b s) := by
  unfold settle
  split
  · exact finish_reach b s
  · exact (publishAll_reach _ _ _ _).mono (by simp) (by simp [allEventNotices])

/-- What an event's delivery reaches, as part of the event. -/
theorem Reach.delivery (h : Reach [] eventNotices s t) : Reach eventAreas allEventNotices s t :=
  h.mono (by simp) (by simp [allEventNotices])

/-- The images rewritten, as part of an event. -/
theorem publishAll_event (f g : Bool) (b s : State) :
    Reach eventAreas allEventNotices s (publishAll f g b s) :=
  (publishAll_reach f g b s).mono (by simp) (by simp [allEventNotices])

/-- One changed line's event. -/
theorem lineEvent_reach (b : Vector Line 32) (s : State) (n : Fin 32) :
    Reach eventAreas allEventNotices s (lineEvent b s n) := by
  unfold lineEvent
  split
  · exact .refl
  · exact (deliverLine_reach b s n).delivery.trans (finish_reach _ _)

/-- The 32 lines' samples and the events of those that changed. -/
theorem takeLines_reach (r : Vector Sample 32) (s : State) :
    Reach eventAreas allEventNotices s (takeLines r s) := by
  have h1 : Reach eventAreas allEventNotices s (sampleLines r s) := .plain (by simp)
  have h2 : Reach eventAreas allEventNotices (sampleLines r s) (publishSense s (sampleLines r s)) := by
    unfold publishSense
    split
    · exact .refl
    · exact rewriteImage_reach _ _ (by simp [eventAreas, senseArea]) (by simp) _ _
  exact (h1.trans h2).trans (Reach.fold _ (lineEvent_reach s.sense.lines) _ _)

/-- The wire class's event. -/
theorem wireEvent_reach (b : Bool) (s : State) : Reach eventAreas allEventNotices s (wireEvent b s) :=
  (sampleWire_reach b s).delivery.trans (settle_reach _ _ _)

/-- A sense sample. -/
theorem sensed_reach (r : Vector Sample 32) (b : Bool) (v : Vector Sample 6) (s : State) :
    Reach eventAreas allEventNotices s (sensed r b v s) := by
  have h : ∀ x, Reach eventAreas allEventNotices x (sampleInputs v x) := fun x => .plain (by simp)
  exact ((takeLines_reach r s).trans (wireEvent_reach b _)).trans (h _)

/-- The dwell count's event. -/
theorem dwellEvent_reach (b : Bool) (s : State) : Reach eventAreas allEventNotices s (dwellEvent b s) :=
  have h : Reach eventAreas allEventNotices s (countDwell s) := .plain (by simp)
  h.trans (publishAll_event _ _ _ _)

/-- The road speed's event. -/
theorem roadEvent_reach (s : State) : Reach eventAreas allEventNotices s (roadEvent s) :=
  (evaluateRoad_reach s).delivery.trans (finish_reach _ _)

/-- The event of the channels and the hand-over. -/
theorem gaugeEvent_reach (s : State) : Reach eventAreas allEventNotices s (gaugeEvent s) := by
  have h1 : Reach eventAreas allEventNotices s (handOver (judgeAnalog (evaluateEngine s))) :=
    .plain (by simp)
  have h2 : ∀ x, Reach eventAreas allEventNotices x (countSweep x) := by
    intro x
    refine .counted (by simp) fun q => ?_
    simp [countSweep, q]
  exact (h1.trans (h2 _)).trans (finish_reach _ _)

end Sys2Proof.Machine
end

