-- ==== Sys2Proof/Tests/Slice0.lean ====
section
/-! SUPPORT. Tests: the checks of WellFormed, small steps whose results the manual states, and a witness for
every statement that has hypotheses. -/

set_option Elab.async false

namespace Sys2Proof.Tests

open Sys2Proof Sys2Proof.Machine Sys2Proof.Safety

/-! ## Helpers -/

/-- The state after a command. -/
def after (c : Instr) (s : State) : State :=
  match exec c s with
  | .next t => t
  | .fault _ => s
  | .refused _ => s

/-- A line's debounced state is set. -/
def withLine (n : Fin 32) (st : LineState) (s : State) : State :=
  { s with sense := { lines := s.sense.lines.set n.val { s.sense.lines[n] with debounced := st } n.isLt } }

/-- The default image with a few bytes replaced. -/
def imageWith (l : List (Nat × Byte)) : Mem := l.foldl (fun m p => m.write p.1 p.2) defaultImage

/-- A bus at standstill, ignition ON, PARKING_BRAKE on SENSE1 ACTIVE, K = 8,000, the supply at 24 V. -/
def parked : State :=
  { withLine 1 .active (withLine 0 .active State.reset) with
    image := imageWith [(0x012, 6)]
    pulse := { State.reset.pulse with
      calValid := true, k := 8000, status := .valid, motion := .standstill, standstillAt := some 0 }
    analog := { State.reset.analog with
      channels := State.reset.analog.channels.set 5
        { State.reset.analog.channels[5] with y := some 2400, status := .valid } } }

/-- A slot posted with a kind and parameters, its attention bit set at the present instant. -/
def posting (n : Fin 8) (kind : Byte) (ps : List Byte) (s : State) : State :=
  { s with
    win := { s.win with
      slots := s.win.slots.set n.val .posted n.isLt
      attention := s.win.attention.set n.val (some s.time.now) n.isLt
      ram := s.win.ram.fill (slotBase n) 64 ([0, kind, 0, 0, 0, 0] ++ ps) } }

/-- A request buffered with the session OPEN. -/
def asking (payload : List Byte) (s : State) : State :=
  { s with
    link := { s.link with
      request := some { tag := 5, payload := payload, acceptedAt := s.time.now }
      reply := .waiting 5 none, session := true
      sessionTimer := some { left := 500, since := s.time.now } } }

/-- A test running from a side that holds OUTPUTS. -/
def testing (side : Side) (p : Pattern) (s : State) : State :=
  let s1 := setClaim .outputs (sideHolder side) s
  { s1 with
    out := { s.out with
      test := some
        { side := side, pattern := p, duration := { left := 0, since := 0 }, startedAt := 0, cycles := 0
          step := 15, half := some { left := 0, since := 0 }, buzzOn := true } } }

/-- The supervision in a stage, its timer expired. -/
def staged (st : Stage) (s : State) : State :=
  { s with
    out := { s.out with supervision := { s.out.supervision with
      period := 25, resets := true, stage := st, timer := some { left := 0, since := 0 } } } }

/-- Every sample group holds one sample of a value. -/
def sampled (raw : Nat) (s : State) : State :=
  { s with analog := { s.analog with
      channels := s.analog.channels.map fun c => { c with sum := raw, count := 1 } } }

/-- A place's record. -/
def recordAt (i : Fin 40) (s : State) : Option FaultRecord :=
  match s.faults.places[i] with
  | .stored q => some q
  | _ => none

/-- The reply after a command. -/
def replyOf (c : Instr) (s : State) : Reply := (after c s).link.reply

/-- Line `n` holds a role, and a candidate that one more equal sample completes (N is 4, diagnosis OFF). -/
def nearChange (n : Fin 32) (role : Byte) (old new : LineState) (s : State) : State :=
  let l : Line := { debounced := old, candidate := some new, run := 3, lastClass := none }
  { s with
    image := s.image.write (0x010 + 2 * n.val) role
    sense := { lines := s.sense.lines.set n.val l n.isLt } }

/-- The state after a sense sample: lines OPENED from a list, every other CLOSED, PULSE_V as given. -/
def sensing (opened : List (Fin 32)) (wire : Bool) (s : State) : State :=
  after (.senseSample (Vector.ofFn fun n => if n ∈ opened then 1023 else 0) wire (Vector.replicate 6 0)) s

/-- Line `n` alone changed its debounced state, and the speed source is as it was. -/
abbrev aloneChanged (n : Fin 32) (s t : State) : Prop :=
  (∀ m : Fin 32, t.sense.lines[m].debounced = s.sense.lines[m].debounced ↔ m ≠ n) ∧
    sourceValid t.pulse = sourceValid s.pulse

/-- A take is due: decided. -/
theorem takeDue_of (s : State) (i : Nat) (n : Fin 8) (kind : Byte) (a : Nat)
    (h : i = nextInstant Config.stepPeriod s.win.lastTake s.time.now ∧ slotByte s n 1 = kind ∧
      s.win.slots[n] = .posted ∧ s.win.attention[n] = some a ∧ a < i ∧
      ∀ m : Fin 8, m < n → s.win.slots[m] ≠ .posted) : takeDue s i n kind := by
  obtain ⟨h1, h2, h3, h4, h5, h6⟩ := h
  exact ⟨h1, h2, h3, ⟨a, h4, h5⟩, fun m hm hp => absurd hp (h6 m hm)⟩

/-! ## WellFormed refuses -/

theorem test_pulseVEdge_gap : (Instr.pulseVEdge 4294967296).wellFormed = false := by decide
theorem test_pulseEEdge_gap : (Instr.pulseEEdge 4294967296).wellFormed = false := by decide
theorem test_requestFrame_bits :
    (Instr.requestFrame true [] (List.replicate 9 true)).wellFormed = false := by decide
theorem test_fetchFrame_clocks : (Instr.fetchFrame none [] 9).wellFormed = false := by decide
theorem test_claimTakeRead_index : (Instr.claimTakeRead 0x20 8192).wellFormed = false := by decide
theorem test_windowWrite_index : (Instr.windowWrite 0x400 8192 0).wellFormed = false := by decide
theorem test_wellFormed_accepts : (Instr.pulseVEdge 4294967295).wellFormed = true ∧
    (Instr.requestFrame true [] (List.replicate 8 true)).wellFormed = true ∧
    (Instr.fetchFrame none [] 8).wellFormed = true ∧ (Instr.windowWrite 0x400 8191 0).wellFormed = true := by
  decide

/-! ## Reset and the step -/

theorem test_reset_is_full_restart : restart State.reset = State.reset := by decide +kernel
theorem test_step_takes_front :
    step { State.reset with pending := [.slotPost 3, .timerStep] } =
      exec (.slotPost 3) { State.reset with pending := [.timerStep] } := by rfl
theorem test_no_row_has_bits : State.reset.withFetchWord 16 1 = State.reset := by rfl

/-! ## The cadences -/

/-- The first lines of 1.2's example: N = 3, a bounce, then three samples OPENED. -/
theorem test_debounce_example :
    let e : LineEntry := { role := .switchClosed 1, openedActive := false, diagnosis := true, n := 3 }
    let l : Line := { debounced := .active, candidate := none, run := 0, lastClass := none }
    let run := fun (rs : List Sample) => rs.foldl (fun x r => x.sample e false r) l
    run [250, 520, 240, 530, 545] =
        { debounced := .active, candidate := some .inactive, run := 2, lastClass := some .opened } ∧
      (run [250, 520, 240, 530, 545, 560]).debounced = .inactive := by decide

/-- The class bands at their ends (R6). -/
theorem test_bands :
    [0, 63, 64, 399, 400, 799, 800, 1023].map (rawClass true) =
        [.short, .short, .closed, .closed, .opened, .opened, .broken, .broken] ∧
      [0, 511, 512, 1023].map (rawClass false) = [.closed, .closed, .opened, .opened] := by decide

/-- The sense sample at 5 ms classifies the lines and takes the analog samples (R6, R56). -/
theorem test_senseSample :
    let t := after (.senseSample (Vector.replicate 32 512) false (Vector.replicate 6 412)) State.reset
    t.time.now = 5000 ∧ t.sense.lines[7].lastClass = some .opened ∧ t.analog.channels[0].sum = 412 := by
  decide +kernel

/-- A timer not started at this step loses one step (R3). -/
theorem test_timerStep :
    let t := after .timerStep (asking [3] parked)
    t.time.now = 10000 ∧ t.link.sessionTimer = some { left := 499, since := 0 } := by decide +kernel

/-- Source INVALID, driving by the proxy with a door open; PARKING_BRAKE completes to ACTIVE and the wire its
return. -/
def twoJudgements : State :=
  let s := nearChange 1 6 .inactive .active parked
  { s with
    pulse := { s.pulse with motion := .moving, standstillAt := none, wireBroken := true, wireRun := 39 }
    image := s.image.write 0x212 1
    door := { s.door with
      cycle := .driving, doorways := s.door.doorways.set 1 { Doorway.reset with state := .moving } } }

/-- The stop opens by the brake and closes by the return in one sample: each judgement rewrites the door image
(R76), and the record has MOVED_OPEN (R81). -/
theorem test_two_judgements_in_one_sample :
    let t := sensing [] false twoJudgements
    ramRead t 0x1080 = 2 ∧ t.door.cycle = .driving ∧ t.door.journal.map (·.flags) = [flagMoved] := by
  decide +kernel

/-- 30 steps of standstill mature at the default delay of 300 ms (R84, R85). -/
theorem test_standstillMature :
    (after .standstillMature
      { parked with door := { parked.door with age := some 30, matureDue := true } }).door.dpermit = true := by
  decide +kernel

/-- The lamp of the default image's warnings: CAUTION and INFO in ACTIVE_UNACK give SLOW (R112). -/
theorem test_lampRefresh :
    let t := after .lampRefresh State.reset
    t.time.now = 20000 ∧ t.out.lamps[0] = { appearance := .slow, owner := .normal, pin := true } := by
  decide +kernel

/-- The FAST phase goes OFF at 125 ms (R4). -/
theorem test_phaseEdge :
    let s := { parked with
      out := { parked.out with
        lamps := parked.out.lamps.set 4 { appearance := .fast, owner := .normal, pin := true } } }
    (after (.phaseEdge .fast) s).out.lamps[4].pin = false ∧ (after (.phaseEdge .fast) s).time.now = 125000 := by
  decide +kernel

/-- 2.3's example at cruising speed: 20 edges over 100,250 µs, K = 8,000, displayed 8,800. -/
theorem test_gaugeCycle_speed :
    let s := { sampled 500 parked with
      time := { parked.time with now := 99000 }
      pulse := { parked.pulse with
        motion := .moving, standstillAt := none, count := 20, reference := some 0, lastEdge := 100250
        displayed := 8800 } }
    let t := after .gaugeCycle s
    t.pulse.raw = 8978 ∧ t.pulse.displayed = 8844 ∧ t.pulse.count = 0 := by decide +kernel

/-- 2.8's example: 12 edges over 95,000 µs at 6 pulses a revolution; then 250 rpm after 40 ms. -/
theorem test_engine_example : engineOf 12 60 95000 = 1263 ∧ engineOf 1 60 40000 = 250 := by decide

/-- 4.2's FUEL and COOLANT tables. -/
theorem test_table_example :
    [80, 412, 413, 700, 950].map (tableValue [(100, 0), (300, 250), (700, 750), (900, 1000)]) =
        [0, 390, 391, 750, 1000] ∧
      [430, 641, 1000].map (tableValue [(80, 1300), (240, 1000), (640, 600), (960, -200)]) =
        [810, 597, -200] := by decide

/-- R64's example: d = -109 at shift 3. -/
theorem test_filter_example : 500 + filterStep (391 - 500) 3 = 487 := by decide

/-- 4.3's scalings, on a group of one sample. -/
theorem test_gaugeCycle_supply :
    let t := after .gaugeCycle (sampled 461 parked)
    t.analog.channels[5].y = some 1803 ∧ t.analog.channels[5].mean = some 461 := by decide +kernel

/-! ## Pulse edges -/

/-- R40's example: 0345678.99 and one tick; R20: 7,950 of K = 8,000 and one edge. -/
theorem test_pulseVEdge :
    let s := { parked with
      pulse := { parked.pulse with acc := 7950 }, dist := { parked.dist with live := 34567899 } }
    let t := after (.pulseVEdge 40) s
    t.dist.live = 34567900 ∧ t.pulse.acc = 50 ∧ t.pulse.lastEdge = 40 := by decide +kernel

/-- The glitch filter: an edge under 40 µs after the last is dropped (R18). -/
theorem test_edge_filter :
    (after (.pulseVEdge 39) parked).pulse.count = 0 ∧ (after (.pulseEEdge 39) parked).pulse.engineCount = 0 ∧
      (after (.pulseEEdge 40) parked).pulse.engineCount = 1 := by decide +kernel

/-! ## Expiries -/

/-- 4.6's example: the hold timer's expiry. -/
theorem test_holdTimerExpiry :
    let s := { parked with
      analog := { parked.analog with
        channels := parked.analog.channels.set 2
          { parked.analog.channels[2] with status := .held, y := some 410, hold := some ⟨0, 0⟩ } } }
    let c := (after (.holdTimerExpiry 2) s).analog.channels[2]
    c.status = .invalid ∧ c.fault = true ∧ c.y = some 410 := by decide +kernel

/-- The low-supply watch saves once (R44). -/
theorem test_lowSupplyWatchExpiry :
    let s := { parked with
      dist := { parked.dist with watch := .timing ⟨0, 0⟩, ticks := 17 }, store := { parked.store with queue := [] } }
    let t := after .lowSupplyWatchExpiry s
    t.store.queue = [.ring, .tripA, .tripB] ∧ t.dist.ticks = 0 ∧ t.dist.watch = .spent := by decide +kernel

/-- A doorway in MOVING, with both timers at their end. -/
def movingDoor : State :=
  { parked with
    door := { parked.door with
      doorways := parked.door.doorways.set 1
        { parked.door.doorways[1] with state := .moving, travel := some ⟨0, 0⟩, conflict := some ⟨0, 0⟩ } } }

theorem test_travelTimerExpiry :
    (after (.travelTimerExpiry 1) movingDoor).door.doorways[1].state = .stalled := by decide +kernel
theorem test_conflictTimerExpiry :
    (after (.conflictTimerExpiry 1) movingDoor).door.doorways[1].state = .conflict := by decide +kernel

/-- Warning 1 (the default image's SUPPLY_LOW, CAUTION with chime and record) in PENDING, its timer at its
end, the list and the places empty and 118 the next number, as in chapter 6's example. -/
def pendingOnset : State :=
  { parked with
    warn := { parked.warn with
      warnings := (Vector.replicate 48 Warning.reset).set 1
        { Warning.reset with state := .pending, timer := some ⟨0, 0⟩ }
      list := [], nextNumber := 118 }
    out := { parked.out with arbiter := { level := false, repeatTimer := none, current := none, pending := none } }
    faults := { parked.faults with places := Vector.replicate 40 .free }
    store := { parked.store with queue := [] } }

theorem test_onsetTimerExpiry :
    let t := after (.onsetTimerExpiry 1) pendingOnset
    t.warn.warnings[1].number = some 118 ∧ t.warn.nextNumber = 119 ∧ t.warn.list = [1] ∧
      t.out.arbiter.current.map (·.cls) = some .caution ∧ t.store.queue = [.place 0, .header] := by
  decide +kernel

/-- Chapter 8's example: the place that a full memory gives up. -/
theorem test_full_memory_example :
    let r := fun (code : Fin 48) (active : Bool) (aging count first : Nat) =>
      Place.stored { FaultRecord.reset code 133 with
        active := active, aging := aging, count := count, firstOdometer := first }
    let places := ((((((Vector.replicate 40 (r 0 true 0 1 0)).set 3 (r 17 false 6 4 39810020)).set 9
      (r 22 false 11 2 40122005)).set 14 (r 8 false 11 1 40587133)).set 21 (r 31 false 11 1 40201090)).set 27
      (r 40 false 2 9 41000418)).set 35 (r 26 false 11 1 40201090)
    let t := after (.onsetTimerExpiry 1) { pendingOnset with
      faults := { pendingOnset.faults with places := places.set 0 (r 2 true 0 1 0) } }
    (recordAt 21 t).map (·.code) = some 1 ∧ t.store.queue = [.place 21] := by decide +kernel

/-- An occurrence that leaves its record as it is: no job (R131), and the view is rewritten (R137, log entry 42). -/
theorem test_occurrence_without_change :
    let r : FaultRecord := { FaultRecord.reset 1 133 with active := true, count := 255, lastOdometer := 0 }
    let t := after (.onsetTimerExpiry 1) { pendingOnset with
      faults := { pendingOnset.faults with places := (Vector.replicate 40 .free).set 9 (.stored r) } }
    t.store.queue = [] ∧ ramRead t 0x1400 = ramRead pendingOnset 0x1400 + 1 := by decide +kernel

/-- R176: a fault record page is its place's 25 bytes, then 7 bytes of 0. -/
theorem test_recordPage :
    let page := recordPage (some (FaultRecord.reset 47 133))
    page.length = 32 ∧ page.take 25 = placeBytes (.stored (FaultRecord.reset 47 133)) ∧
      page.drop 25 = [0, 0, 0, 0, 0, 0, 0] ∧ recordPage none = 0 :: 0xFF :: List.replicate 30 0 := by decide

/-- The repeat's and a burst's timers (R106, R107). -/
theorem test_buzzer_timers :
    let s := fun (a : Arbiter) => { parked with out := { parked.out with arbiter := a } }
    (after .repeatHalfExpiry (s ⟨true, some ⟨0, 0⟩, none, none⟩)).out.arbiter.level = false ∧
      (after .burstIntervalExpiry (s ⟨true, none, some ⟨.info, 0, ⟨0, 0⟩⟩, none⟩)).out.arbiter.level = false ∧
      (after .burstIntervalExpiry (s ⟨false, none, some ⟨.info, 1, ⟨0, 0⟩⟩, some .caution⟩)).out.arbiter.current =
        some ⟨.caution, 0, ⟨20, 0⟩⟩ := by decide +kernel

/-- A test's timers (R118, R120). -/
theorem test_test_timers :
    (after .testDurationExpiry (testing .window .allLamps parked)).out.lastResult = .ok ∧
      (after .lampWalkStep (testing .window .lampWalk parked)).out.test.map (·.step) = some 0 ∧
      (after .testBuzzerHalf (testing .window .buzzer parked)).out.test.map (·.buzzOn) = some false := by
  decide +kernel

/-- 7.5's example: the period timer's expiries, and HRSTn. -/
theorem test_supervision_example :
    (after .supvPeriodExpiry (staged .watching parked)).out.supervision.stage = .warned ∧
      (after .supvPeriodExpiry (staged .warned (setClaim .faults .window parked))).win.claims.faults = .free ∧
      (after .supvPeriodExpiry (staged .warned parked)).out.supervision.hrst = some ⟨10, 0⟩ := by decide +kernel
theorem test_hrstnTimerExpiry :
    let s := staged .fallback parked
    (after .hrstnTimerExpiry { s with
      out := { s.out with supervision := { s.out.supervision with hrst := some ⟨0, 0⟩ } } }).out.supervision.hrst =
      none := by decide +kernel


/-- An entry to FALLBACK restarts a pulse that runs, in either mode, and lamp 3 of HOST_REQUEST falls back
(R124). -/
theorem test_fallback_entry :
    let s := staged .warned { parked with image := imageWith [(0x012, 6), (0x538, 1)] }
    let t := after .supvPeriodExpiry { s with
      out := { s.out with supervision := { s.out.supervision with resets := false, hrst := some ⟨3, 0⟩ } } }
    t.out.supervision.hrst = some ⟨10, 0⟩ ∧ t.out.lamps[3].owner = .fallback := by decide +kernel

/-! ## The Retained Store -/

/-- A job in the engine with its page in flight. -/
def working (j : Job) : State := { parked with store := { parked.store with job := some j } }

/-- The odometer ring goes first, whatever was enqueued before it (R142, 9.4's example). -/
theorem test_jobStart :
    let s := { parked with store := { parked.store with queue := [.tripA, .tripB, .place 17, .ring] } }
    let t := after .jobStart s
    t.store.job.map (·.object) = some .ring ∧ t.store.queue = [.tripA, .tripB, .place 17] ∧ t.dist.nextSlot = 1 := by
  decide +kernel
theorem test_pageStart :
    (after .pageStart (working ⟨.tripA, .tripA ⟨0, true⟩, 0, true, .waiting⟩)).store.job =
      some ⟨.tripA, .tripA ⟨0, true⟩, 0, true, .inFlight 0⟩ := by decide +kernel

/-- A first attempt that fails is retried, a retry that fails ends the job, 6 ms after its start (R143). -/
theorem test_pageCompletion :
    let j : Job := ⟨.tripA, .tripA ⟨0, true⟩, 0, false, .inFlight 80206000⟩
    (after (.pageCompletion false) (working j)).store.job.map (·.retry) = some true ∧
      (after (.pageCompletion false) (working { j with retry := true })).store.notRetained.contains .tripA = true ∧
      (after (.pageCompletion true) (working j)).time.now = 80212000 := by decide +kernel

/-! ## The Workshop Link -/

/-- A request of one payload byte (KEEP_SESSION, tag 0x14): its check is 0x14 xor 0x01 xor 0x03. -/
theorem test_requestFrame :
    let t := after (.requestFrame true [0x14, 0x01, 0x03, 0x16] []) parked
    t.link.request = some ⟨0x14, [3], 0⟩ ∧ t.link.hold = some ⟨2, 0⟩ ∧
      (after (.requestFrame true [0x14, 0x01, 0x03, 0x17] []) parked).link.request = none := by decide +kernel

/-- A fetch of a READY reply, all four characters and a payload byte answered low (R156). -/
theorem test_fetchFrame :
    let s := { parked with link := { parked.link with reply := .ready 0x14 [3] } }
    (after (.fetchFrame (some 0x14) (List.replicate 5 false) 0) s).link.reply = .delivered 0x14 [3] ∧
      (after (.fetchFrame (some 0x14) (List.replicate 4 false) 0) s).link.reply = .ready 0x14 [3] := by
  decide +kernel
theorem test_markClose :
    (after .markClose { parked with link := { parked.link with inFrame := true, counter := 5 } }).link.inFrame =
      false := by decide +kernel

/-- A fetch during a hold sends PENDING, the tag echo and no payload once the hold has ended (chapter 10's
example, tag 0x13). -/
theorem test_linkHoldExpiry :
    (after .linkHoldExpiry { parked with
      link := { parked.link with
        inFrame := true, kind := .fetch, reply := .waiting 0x13 (some .clear), hold := some ⟨0, 0⟩ } }).link.out =
      .sending false [2, 0x13, 0, 0x11] 0 := by decide +kernel

/-- Chapter 10's example: the session's timer runs out on a clear that waits. -/
theorem test_sessionTimerExpiry :
    let s := setClaim .faults .workshop parked
    let t := after .sessionTimerExpiry { s with
      link := { s.link with session := true, sessionTimer := some ⟨0, 0⟩, reply := .waiting 0x13 (some .clear) } }
    t.link.reply = .discarded 0x13 ∧ t.win.claims.faults = .free ∧ t.link.session = false ∧
      noticeSet t .workshop = true := by decide +kernel

/-- Chapter 10's example: OPEN_SESSION accepted at 1,000 ms is taken at 1,010 ms, its timer to 6,010 ms. -/
theorem test_openSession :
    let s := asking [1] { parked with time := { parked.time with now := 1000000 } }
    let t := after .openSession { s with link := { s.link with session := false } }
    t.link.reply = .ready 5 [1, 0] ∧ t.link.sessionTimer = some ⟨500, 1010000⟩ := by decide +kernel
theorem test_closeSession : replyOf .closeSession (asking [2] parked) = .ready 5 [2, 0] ∧
    (after .closeSession (asking [2] parked)).link.session = false := by decide +kernel
theorem test_keepSession : replyOf .keepSession (asking [3] parked) = .ready 5 [3, 0] := by decide +kernel

/-- READ_IDENT: the family code, the revision, an OPEN session, the configuration DEFAULTS (R178). -/
theorem test_readIdent :
    replyOf .readIdent (asking [4] parked) = .ready 5 [4, 0, 0x4B, 0x31, 0x01, 1, 2] := by decide +kernel

/-- The reply lengths of the readings (R178): result and code beside the data. -/
theorem test_reading_lengths :
    let len := fun (c : Instr) (p : List Byte) => match replyOf c (asking p parked) with
      | .ready _ l => l.length
      | _ => 0
    len .readChannels [5] = 49 ∧ len .readSense [6] = 51 ∧ len .readDoors [7] = 14 ∧
      len .readFaultSummary [9] = 85 := by decide +kernel
theorem test_readWarnings :
    replyOf .readWarnings (asking [8, 48] parked) = .ready 5 [8, 4] := by decide +kernel
theorem test_readFault : replyOf .readFault (asking [10, 40] parked) = .ready 5 [10, 4] := by decide +kernel
theorem test_readStopJournal :
    replyOf .readStopJournal (asking [13, 8] parked) = .ready 5 [13, 4] := by decide +kernel

/-- READ_ODOMETER shows 0412307.77 as 04 12 30 77 7 in BCD. -/
theorem test_readOdometer :
    (match replyOf .readOdometer (asking [11] { parked with dist := { parked.dist with live := 41230777 } }) with
     | .ready _ l => (l.drop 2).take 5
     | _ => []) = [0x00, 0x41, 0x23, 0x07, 0x77] := by decide +kernel
theorem test_readKFactor :
    replyOf .readKFactor (asking [12] parked) = .ready 5 [12, 0, 0x1F, 0x40, 1] := by decide +kernel

/-- Chapter 10's example: TAKE_CLAIM FAULTS gives OK and holder 2. -/
theorem test_takeClaim : replyOf .takeClaim (asking [14, 0] parked) = .ready 5 [14, 0, 2] ∧
    (after .takeClaim (asking [14, 0] parked)).win.claims.faults = .workshop := by decide +kernel
theorem test_giveClaim :
    replyOf .giveClaim (asking [15, 1] (setClaim .odometer .workshop parked)) = .ready 5 [15, 0, 0] ∧
      replyOf .giveClaim (asking [15, 1] parked) = .ready 5 [15, 2, 0] := by decide +kernel

/-- R33's example: 8,000 to 8,400 with 6,130 in the accumulator; 8,400 is 0x20D0. -/
theorem test_writeKFactor :
    let s := { parked with pulse := { parked.pulse with acc := 6130 } }
    let t := after .writeKFactor (asking [18, 0x20, 0xD0] (setClaim .odometer .workshop s))
    t.pulse.acc = 6436 ∧ t.pulse.k = 8400 ∧ t.link.reply = .waiting 5 (some .kfactor) := by decide +kernel
theorem test_setKFactor :
    let s := { parked with pulse := { parked.pulse with acc := 6130 } }
    let t := after .setKFactor (posting 0 6 [0xD0, 0x20] (setClaim .odometer .window s))
    t.pulse.acc = 6436 ∧ t.win.slots[0] = .taken := by decide +kernel

/-! ## Requests -/

theorem test_unknownKind :
    (after (.unknownKind .window) (posting 2 9 [] parked)).win.slots[2] = .done ∧
      replyOf (.unknownKind .workshop) (asking [21] parked) = .ready 5 [21, 6] := by decide +kernel

/-- The default image passes every item; one whose role byte is 24 fails item 2, and zeros fail item 1 (R179). -/
theorem test_validation : firstFailing defaultImage = none ∧ firstFailing (imageWith [(0x012, 24)]) = some 2 := by
  decide +kernel
theorem test_adoptConfig :
    let t := after .adoptConfig (posting 1 1 [] (setClaim .config .window parked))
    slotByte t 1 3 = 8 ∧ slotByte t 1 4 = 1 ∧ t.win.slots[1] = .done := by decide +kernel

/-- Chapter 6's example: an acknowledgement of all. -/
theorem test_ackWarnings :
    let t := after .ackWarnings (posting 0 2 [1] parked)
    t.warn.warnings[0].state = .activeAck ∧ t.win.slots[0] = .done := by decide +kernel
theorem test_tripControl :
    let s := { parked with dist := { parked.dist with tripA := ⟨123456, false⟩ } }
    let t := after .tripControl (posting 7 3 [4, 0] s)
    t.dist.tripA = ⟨0, true⟩ ∧ Object.tripA ∈ t.store.queue ∧ slotByte t 7 3 = 0 := by decide +kernel

/-- CLEAR_FAULTS with ALL: the three records of the default image's onsets become ERASING (R134). -/
theorem test_clearFaults :
    let t := after (.clearFaults .workshop) (asking [16, 0, 0] (setClaim .faults .workshop parked))
    t.faults.clear.isSome = true ∧ t.link.reply = .waiting 5 (some .clear) ∧ recordCount t = 0 := by
  decide +kernel

/-- Chapter 11's example: a preset of 0412500.00 through slot 2 with the odometer lost. -/
theorem test_presetOdometer :
    let s := posting 2 5 [0x00, 0x41, 0x25, 0x00, 0x00] (setClaim .odometer .window parked)
    let t := after (.presetOdometer .window) s
    t.dist.live = 41250000 ∧ t.dist.lost = false ∧ t.win.slots[2] = .taken ∧ t.win.attention[2] = none := by
  decide +kernel
theorem test_outputTest :
    let t := after (.outputTest .window) (posting 0 7 [0, 60] (setClaim .outputs .window parked))
    t.out.test.map (·.duration.left) = some 6000 ∧ t.out.lamps[0].appearance = .fast ∧
      t.out.lamps[1] = { appearance := .off, owner := .test, pin := false } := by decide +kernel
theorem test_outputTestStop :
    let s := testing .window .allLamps parked
    (after (.outputTestStop .window) (posting 0 8 [] s)).out.lastResult = .aborted .stopped ∧
      slotByte (after (.outputTestStop .window) (posting 0 8 [] parked)) 0 3 = 2 := by decide +kernel

/-! ## The window -/

/-- Chapter 11's example: the ODOMETER claim byte read alone; and read in the middle of a burst. -/
theorem test_claimTakeRead :
    (after (.claimTakeRead 0x0021 0) parked).win.claims.odometer = .window ∧
      (after (.claimTakeRead 0x0021 0) parked).win.sdo = 0 ∧
      (after (.claimTakeRead 0x0020 1) parked).win.claims.odometer = .free := by decide +kernel

/-- R163: SDO is 0xFF during the opcode, the address bytes, the turnaround and another opcode's transaction. -/
theorem test_spiOut :
    spiOut [0x61, 0x00, 0x21, 0x00, 0x00] (setClaim .odometer .workshop parked) =
        [0xFF, 0xFF, 0xFF, 0xFF, 2] ∧
      spiOut [0x60, 0x00, 0x21, 0x00, 0x00] parked = List.replicate 5 0xFF ∧
      spiOut [0x62, 0x04] parked = [0xFF, 0xFF] := by decide +kernel
theorem test_claimReleaseWrite :
    (after (.claimReleaseWrite .odometer 0) (setClaim .odometer .window parked)).win.claims.odometer = .free ∧
      (after (.claimReleaseWrite .odometer 0) parked).win.faultCount = 1 := by decide +kernel
theorem test_slotPost : (after (.slotPost 2) parked).win.slots[2] = .posted := by decide +kernel
theorem test_slotFree : (after (.slotFree 2) (posting 2 5 [] parked)).win.slots[2] = .free ∧
    (after (.slotFree 2) (posting 2 5 [] parked)).win.attention[2] = none := by decide +kernel
theorem test_attn : (after (.attnSet 4) (after (.slotPost 2) parked)).win.attention[2] = some 0 ∧
    (after (.attnSet 4) parked).win.faultCount = 1 ∧
    (after (.attnClear 4) (posting 2 5 [] parked)).win.attention[2] = none := by decide +kernel
theorem test_notices : noticeSet (after (.noticeClear false 0x02) parked) .warningsChanged = false ∧
    noticeSet (after (.noticeClear true 0x02) parked) .warningsChanged = true ∧
    noteLow (after (.noticeEnable false 0x02) parked) = true := by decide +kernel
theorem test_supvControl :
    (after (.supvControlPeriod 25) parked).out.supervision.stage = .watching ∧
      (after (.supvControlPeriod 251) parked).win.capture = some 0x0010 ∧
      (after (.supvControlMode 1) parked).out.supervision.resets = true := by decide +kernel

/-- 7.5's example: 0x5A is good, and 0xA5 is expected next. -/
theorem test_supvRefresh :
    (after (.supvRefresh 0x5A) (staged .watching parked)).out.supervision.expected = 0xA5 ∧
      (after (.supvRefresh 0x00) (staged .warned parked)).out.supervision.stage = .fallback := by decide +kernel
theorem test_softRestart : (after (.softRestart 0xC3) (posting 2 5 [] parked)).win.slots[2] = .free ∧
    (after (.softRestart 0xC2) parked).win.capture = some 0x0013 := by decide +kernel
theorem test_portFaultClear :
    (after (.portFaultClear 2 0) (after (.softRestart 0) parked)).win.faultCount = 0 := by decide +kernel
theorem test_windowWrite :
    ramRead (after (.windowWrite 0x0400 0 0x5A) parked) 0x0400 = 0x5A ∧
      (after (.windowWrite 0x1000 0 0x5A) parked).win.capture = some 0x1000 ∧
      (after (.windowWrite 0x1FFF 1 0x5A) parked).win.faultCount = 0 := by decide +kernel

/-! ## Witnesses: states that meet the hypotheses of the statements, clause by clause -/

theorem witness_StepRunsFrontCommand :
    { State.reset with pending := [.slotPost 3, .timerStep] }.pending = .slotPost 3 :: [.timerStep] := rfl

theorem witness_EmptyQueueIdles : State.reset.pending = [] ∧ ownEventDue State.reset = false ∧
    ownEventDue { State.reset with time := { State.reset.time with now := 5000 } } = true := by decide +kernel

/-- A ring whose greatest value stands in two slots, the last one among them. -/
def ringTwice : State :=
  let page : Page RingSlot := .written { value := word40 (bcdOdometer 41230777), count := 12 }
  { State.reset with store := { State.reset.store with array := { NvArray.blank with
      ring := (NvArray.blank.ring.set 3 page).set 7 page } } }

theorem witness_FullRestartRecoversOdometer :
    (ringValue ringTwice.store.array.ring[7] = some 41230777 ∧
      ∀ (j : Fin 8) (w : Nat), ringValue ringTwice.store.array.ring[j] = some w →
        w < 41230777 ∨ (w = 41230777 ∧ j ≤ 7)) ∧
    ∀ i : Fin 8, ringValue State.reset.store.array.ring[i] = none := by
  refine ⟨⟨by decide +kernel, fun j w h => ?_⟩, by decide +kernel⟩
  have k : ∀ j : Fin 8, ((ringValue ringTwice.store.array.ring[j]).all fun w =>
      decide (w < 41230777 ∨ (w = 41230777 ∧ j ≤ 7))) = true := by decide +kernel
  have kj := k j
  rw [h] at kj
  exact of_decide_eq_true kj

/-- An array with trip A, the fault header at its greatest overflow count, and two records of one code. -/
def recordsTwice : State :=
  let r : FaultRecord := FaultRecord.reset 7 133
  { State.reset with store := { State.reset.store with array := { NvArray.blank with
      tripA := .written { value := 41, running := true }
      header := .written (2, 255)
      places := (NvArray.blank.places.set 4 (.written (some { r with lastOdometer := 8 }))).set 9
        (.written (some { r with lastOdometer := 9 })) } } }

/-- Of two records of one code the one with the greater last odometer is recovered, and the trip as stored (R50,
R139). -/
theorem test_fullRestart_recovers :
    let t := after .fullRestart recordsTwice
    t.faults.places[4] = .free ∧ (recordAt 9 t).map (·.code) = some 7 ∧
      t.dist.tripA = { value := 41, running := true } ∧ t.faults.overflow = 255 := by decide +kernel

/-- The clauses of the pages, the warnings and the buzzer: enabled warnings with an onset, with a delay and without
a true condition, and chimes of each class. -/
theorem witness_FullRestartValues :
    recordsTwice.store.array.header.content.2 ≤ 255 ∧ recordsTwice.store.array.tripA.good tripCheck = true ∧
      recordsTwice.store.array.tripB.good tripCheck = false ∧
      conditionAfter State.reset 0 = true ∧ (warningDef State.reset.image 0).delay = 0 ∧
      conditionAfter State.reset 47 = false ∧
      (let image := imageWith [(0x227, 1)]
       conditionAfter { State.reset with image := image } 0 = true ∧ (warningDef image 0).delay ≠ 0) ∧
      (let chimes := fun s => (restartOnsets s).filter (fun w => (warningDef s.image w).chime)
       (chimes State.reset).map (fun w => (warningDef State.reset.image w).cls) ≠ [] ∧
       (chimes { State.reset with image := imageWith [(0x228, 0)] }).head? = some 0 ∧
       (warningDef (imageWith [(0x228, 0)]) 0).cls = .stop ∧
       chimes { State.reset with image := imageWith [(0x220, 0), (0x240, 0), (0x250, 0)] } = []) := by
  decide +kernel

/-- SENSE0 with a candidate INACTIVE and three samples counted; N is 4. -/
def candidates (run : Nat) : State :=
  let l : Line := { parked.sense.lines[0] with candidate := some .inactive, run := run }
  { parked with sense := { lines := parked.sense.lines.set 0 l } }

theorem witness_SenseSampleDebounces :
    (let e := lineEntry parked.image 0
     e.role ≠ .unused ∧ e.n = 4 ∧ sampleState e.openedActive (rawClass e.diagnosis 0) = .active ∧
       parked.sense.lines[0].debounced = .active ∧
       sampleState e.openedActive (rawClass e.diagnosis 512) = .inactive) ∧
    (candidates 3).sense.lines[0].run + 1 = 4 ∧ (candidates 2).sense.lines[0].run + 1 < 4 ∧
    (candidates 3).sense.lines[0].candidate = some .inactive ∧
    (lineEntry parked.image 31).role = .unused ∧ parked.analog.channels[0].late = none ∧
    nextInstant Config.sensePeriod parked.time.lastSense parked.time.now % 100000 ≠ 0 ∧
    (sourceValid twoJudgements.pulse = false ∧ sourceValid (sensing [] false twoJudgements).pulse = true) ∧
    (sourceValid parked.pulse = true ∧ sourceValid (sensing [] true
      { parked with pulse := { parked.pulse with wireRun := 39 } }).pulse = false) := by decide +kernel

/-- A group with one sample of `raw`, then one taken at 100 ms, ahead of the gauge cycle of that instant. -/
def heldOver (raw : Nat) : State :=
  sensing [] false { sampled raw parked with time := { parked.time with now := 99000 } }

/-- The sample of a gauge cycle's own instant: aside at the sense sample, left out of that cycle's group and first in
the next one (R56); at any later event it is part of its group. -/
theorem witness_heldOverSample :
    (let i := nextInstant Config.sensePeriod parked.time.lastSense 99000
     i % 100000 = 0 ∧ parked.time.lastGauge ≠ i) ∧
    (heldOver 461).analog.channels[5].late = some 0 ∧ (heldOver 461).analog.lateAt = 100000 ∧
    (let i := nextInstant Config.gaugePeriod (heldOver 461).time.lastGauge (heldOver 461).time.now
     openGroup (heldOver 461) i 5 = (461, 1) ∧ nextGroup (heldOver 461) i 5 = (0, 1) ∧
       openGroup (heldOver 461) (i + 5000) 5 = (461, 2)) ∧
    (let t := after .gaugeCycle (heldOver 461)
     t.analog.channels[5].mean = some 461 ∧ t.analog.channels[5].count = 1 ∧ t.analog.channels[5].late = none) := by
  decide +kernel

/-- The sense image changes at a sample, or stays as it is. -/
theorem witness_SenseSampleDebounces_image :
    senseBytes (sensing [] false parked) ≠ senseBytes parked ∧
      (let s := sensing [] false parked; senseBytes (sensing [] false s) = senseBytes s) ∧
      ramRead (sensing [] false parked) 0x1042 = 0x21 := by decide +kernel

theorem witness_DebounceNeedsFullRun :
    let e : LineEntry := { role := .kneel, openedActive := false, diagnosis := true, n := 15 }
    let l : Line := { debounced := .active, candidate := none, run := 0, lastClass := none }
    e.role ≠ .unused ∧ l.candidate = none ∧
      (∀ r ∈ List.replicate 20 (30 : Sample), sampleState e.openedActive (rawClass e.diagnosis r) = .short) ∧
      (∀ r ∈ List.replicate 15 (400 : Sample), sampleState e.openedActive (rawClass e.diagnosis r) = .inactive) ∧
      max e.n 20 = 20 ∧ LineState.short ≠ l.debounced ∧ LineState.inactive ≠ l.debounced := by decide

/-- A standstill of 300 ms with its maturity due. -/
def maturing : State := { parked with door := { parked.door with age := some 30, matureDue := true } }

theorem witness_MaturityJudgesPermit : State.reset.door.matureDue = false ∧ maturing.door.matureDue = true ∧
    (after .standstillMature maturing).door.dpermit ≠ maturing.door.dpermit ∧
    (let s := { maturing with door := { maturing.door with age := some 29 } }
     (after .standstillMature s).door.dpermit = s.door.dpermit) ∧
    ramRead (after .standstillMature maturing) 0x1085 = 8 := by decide +kernel

/-- A listed warning 10 ms before the first whole second of its age. -/
def secondsDue : State :=
  { State.reset with warn := { State.reset.warn with
      warnings := State.reset.warn.warnings.set 0 { State.reset.warn.warnings[0] with age := 99, onsetAt := 1 } } }

/-- A test with this many timer steps left. -/
def remaining (left : Nat) : State :=
  let s := testing .window .allLamps parked
  { s with out := { s.out with test := s.out.test.map fun x => { x with duration := { left := left, since := 1 } } } }

/-- The clauses of the images: the seconds since onset of a listed warning change, or stay, and so do a test's
remaining seconds, rounded up; the first entry of the list image shows its second at +5, with no notice (R100, R101,
R116, R176). -/
theorem witness_TimerStepCountsEveryTimer_images :
    let seconds : State → List Nat := fun u => u.warn.list.map (fun w => min (u.warn.warnings[w].age / 100) 65535)
    seconds (after .timerStep secondsDue) ≠ seconds secondsDue ∧
      seconds (after .timerStep parked) = seconds parked ∧ secondsDue.warn.list.head? = some 0 ∧
      ramRead (after .timerStep secondsDue) 0x1105 = 1 ∧
      (after .timerStep secondsDue).win.notice = secondsDue.win.notice ∧
      outputBytes (after .timerStep (remaining 100)) = outputBytes (remaining 100) ∧
      outputBytes (after .timerStep (remaining 101)) ≠ outputBytes (remaining 101) ∧
      ramRead (after .timerStep (remaining 101)) 0x10D3 = 1 := by decide +kernel

/-- Lamp 3 of HOST_REQUEST while supervision is in FALLBACK. -/
def hostLamp : State := staged .fallback { parked with image := imageWith [(0x012, 6), (0x538, 1)] }

theorem witness_LampRefreshDecidesLamps :
    hostLamp.out.supervision.stage = .fallback ∧ lampNormal hostLamp.image 3 = .hostRequest ∧
      hostLamp.out.test.bind (fun x => testAppearance x 3) = none ∧
      (testing .window .allLamps parked).out.test.bind (fun x => testAppearance x 3) = some .on ∧
      outputBytes (after .lampRefresh parked) ≠ outputBytes parked ∧
      (let s := after .lampRefresh parked; outputBytes (after .lampRefresh s) = outputBytes s) := by
  decide +kernel

/-- Warning 0 made a STOP warning, in ACTIVE_UNACK, its lamp 0. -/
def stopWarning : State := { State.reset with image := imageWith [(0x012, 6), (0x228, 0)] }

theorem witness_LampRefreshDecidesLamps_stop :
    stopWarning.out.test = none ∧ (warningDef stopWarning.image 0).enabled = true ∧
      (warningDef stopWarning.image 0).cls = .stop ∧ (warningDef stopWarning.image 0).lamp = some 0 ∧
      lampNormal stopWarning.image 0 = .warnings ∧ stopWarning.warn.warnings[0].state = .activeUnack := by
  decide +kernel

/-- With no valid calibration record, as the reset state has it: a state whose warnings are all judged. -/
def uncalibrated : State := { parked with pulse := State.reset.pulse }

theorem witness_SenseSampleReachesRoles_ignition :
    let on := nearChange 0 1 .inactive .active parked
    (lineEntry parked.image 0).role = .ignition ∧ aloneChanged 0 (candidates 3) (sensing [0] false (candidates 3)) ∧
      ignitionOn (candidates 3) = true ∧ ignitionOn (sensing [0] false (candidates 3)) = false ∧
      aloneChanged 0 on (sensing [] false on) ∧ ignitionOn on = false ∧ ignitionOn (sensing [] false on) = true := by
  decide +kernel

theorem witness_SenseSampleReachesRoles_buttons :
    let stop := nearChange 5 5 .inactive .active { parked with door := { parked.door with cycle := .driving } }
    let ack := nearChange 5 7 .inactive .active uncalibrated
    let t := sensing [] false ack
    (lineEntry stop.image 5).role = .stopRequest ∧ aloneChanged 5 stop (sensing [] false stop) ∧
      stop.door.latch = false ∧
    (lineEntry ack.image 5).role = .ackButton ∧ aloneChanged 5 ack t ∧
      ack.warn.list = [] ++ 0 :: [3, 2] ∧ ack.warn.warnings[0].state = .activeUnack ∧
      ∀ w : Fin 48, (warningDef ack.image w).enabled = true →
        ((sourceTruth t (warningDef ack.image w).source ack.warn.warnings[w].truth &&
            qualifierHolds t (warningDef ack.image w).qualifier) = true ↔
          ack.warn.warnings[w].state = .pending ∨ ack.warn.warnings[w].state = .activeUnack ∨
            ack.warn.warnings[w].state = .activeAck) := by decide +kernel

theorem witness_SenseSampleReachesRoles_lines :
    let brake := nearChange 1 6 .active .inactive (testing .window .allLamps parked)
    let general := nearChange 5 2 .active .inactive parked
    (lineEntry brake.image 1).role = .parkingBrake ∧ aloneChanged 1 brake (sensing [1] false brake) ∧
      brake.out.test ≠ none ∧ (lineEntry general.image 5).role = .general ∧
      aloneChanged 5 general (sensing [5] false general) := by decide +kernel

/-- Warning 1 a STOP warning with chime, record and source SENSE_ACTIVE of line 5, its record in place 7; the line is
about to leave ACTIVE. -/
def leaving (flags : Byte) (st : WarnState) : State :=
  let s := nearChange 5 2 .active .inactive uncalibrated
  { s with
    image := (((s.image.write 0x230 flags).write 0x231 5).write 0x237 0).write 0x238 0
    warn := { s.warn with
      warnings := s.warn.warnings.set 1 { s.warn.warnings[0] with state := st, number := some 3 }
      list := 1 :: s.warn.list }
    out := { s.out with
      arbiter := { s.out.arbiter with repeatTimer := some ⟨50, 0⟩, current := none, pending := some .info } }
    faults := { s.faults with
      places := s.faults.places.set 7 (.stored { FaultRecord.reset 1 5 with active := true }) } }

/-- A change of a condition at a sense sample: SELF_CLEAR ends the warning, the repeat and the record's ACTIVE status,
a pending burst starts; LATCH_UNTIL_ACK leaves it LATCHED in the list, and its record as it was (R95, R106, R130). -/
theorem witness_SenseSampleReachesRoles_return :
    let s := leaving 13 .activeUnack
    let t := sensing [5] false s
    let l := sensing [5] false (leaving 15 .activeUnack)
    aloneChanged 5 s t ∧ (lineEntry s.image 5).role = .general ∧ stopCalls s ∧ ¬ stopCalls t ∧ s.warn.list.Nodup ∧
      (∀ w : Fin 48, t.warn.warnings[w].state = .activeUnack → s.warn.warnings[w].state = .activeUnack) ∧
      t.warn.warnings[1].state = .inactive ∧ t.warn.list = [0, 3, 2] ∧
      t.out.arbiter = { level := true, repeatTimer := none, pending := none, current := some ⟨.info, 0, ⟨20, 5000⟩⟩ } ∧
      (recordAt 7 t).map (·.active) = some false ∧
      l.warn.warnings[1].state = .latched ∧ l.warn.list = [1, 0, 3, 2] ∧ (recordAt 7 l).map (·.active) = some true := by
  unfold stopCalls
  decide +kernel

/-- The button with nothing to acknowledge, and the states of 6.4 that a condition moves: INACTIVE with and without a
delay, PENDING, LATCHED. -/
theorem witness_SenseSampleReachesRoles_table :
    (let ack := nearChange 5 7 .inactive .active { uncalibrated with warn := { uncalibrated.warn with list := [] } }
     (lineEntry ack.image 5).role = .ackButton ∧ aloneChanged 5 ack (sensing [] false ack)) ∧
    (let on := fun (flags delay : Byte) (st : WarnState) =>
       let s := leaving flags st
       (sensing [] false
         (nearChange 5 2 .inactive .active { s with image := s.image.write 0x237 delay })).warn.warnings[1]
     (on 13 0 .inactive).state = .activeUnack ∧ (on 13 0 .inactive).number = some 4 ∧
       (on 13 2 .inactive).state = .pending ∧ (on 13 2 .inactive).timer = some ⟨20, 5000⟩ ∧
       (on 15 2 .latched).state = .activeUnack ∧ (on 13 0 .activeAck).state = .activeAck ∧
       (sensing [5] false (leaving 13 .pending)).warn.warnings[1].state = .inactive) := by decide +kernel

/-- Doorway 1 present, its line 8 of a role about to change. -/
def nearDoor (role : Byte) : State :=
  let s := nearChange 8 role .active .inactive parked
  { s with
    image := s.image.write 0x212 1
    door := { s.door with
      cycle := .arrived, doorways := s.door.doorways.set 1 { Doorway.reset with state := .closed, combo := .shut } } }

theorem witness_SenseSampleMovesDoorways :
    [9, 13, 17, 21, 3, 4].map (fun r => (lineEntry (nearDoor r).image 8).role) =
        [.switchClosed 1, .openEnd 1, .edge 1, .emergency 1, .kneel, .ramp] ∧
      (∀ k : Fin 6, let s := nearDoor ([9, 13, 17, 21, 3, 4].getD k.val 0)
        aloneChanged 8 s (sensing [8] false s)) ∧
      doorwayPresent (nearDoor 9).image 1 = true ∧ doorwayPresent (nearDoor 9).image 0 = false ∧
      (nearDoor 9).door.doorways[1].combo = .shut := by decide +kernel

theorem witness_StopCycleIsJudged :
    (sensing [8] false (nearDoor 9)).door.doorways ≠ (nearDoor 9).door.doorways ∧
    (let s := nearChange 1 6 .inactive .active uncalibrated
     aloneChanged 1 s (sensing [] false s) ∧ (sensing [] false s).pulse.motion ≠ s.pulse.motion) ∧
    (let s := nearChange 1 6 .active .inactive parked
     aloneChanged 1 s (sensing [1] false s) ∧ (sensing [1] false s).pulse.motion = s.pulse.motion) ∧
    (let s := { parked with pulse := { parked.pulse with wireRun := 39 } }
     (∀ m : Fin 32, (sensing [] true s).sense.lines[m].debounced = s.sense.lines[m].debounced) ∧
       sourceValid (sensing [] true s).pulse ≠ sourceValid s.pulse ∧
       (sensing [] true s).pulse.motion = s.pulse.motion) ∧
    (let s := { parked with pulse := { parked.pulse with wireBroken := true, wireRun := 39 } }
     sourceValid (sensing [] false s).pulse ≠ sourceValid s.pulse ∧
       (sensing [] false s).pulse.motion ≠ s.pulse.motion) := by decide +kernel

theorem witness_GaugeCycleJudgesSupply :
    (openGroup (sampled 409 parked) 100000 5).2 ≠ 0 ∧
      [409, 410, 562, 563, 588, 589].map (fun raw => (2 * raw * 4000 + 1023) / 2046) =
        [1599, 1603, 2197, 2201, 2299, 2303] := by decide +kernel

/-- `parked` with the pulse channels replaced. -/
def pulsing (p : PulseUnit) : State := { parked with pulse := p }

theorem witness_GaugeCycleEvaluatesRoadSpeed :
    let i := nextInstant Config.gaugePeriod parked.time.lastGauge parked.time.now
    let p := parked.pulse
    let timeout := (pulseParams parked.image).timeout * 1000
    let fast : PulseUnit := { p with count := 20, reference := some 0, lastEdge := 100250 }
    let first : PulseUnit := { p with count := 1 }
    let atTimeout : PulseUnit := { p with reference := some 7, lastEdge := BitVec.ofNat 32 (i + 4292967296) }
    let before : PulseUnit := { p with reference := some 7, lastEdge := BitVec.ofNat 32 (i + 4292967297) }
    (sourceValid fast = true ∧ fast.count ≠ 0 ∧ fast.reference = some 0) ∧
    (sourceValid first = true ∧ first.count ≠ 0 ∧ first.reference = none) ∧
    (sourceValid p = true ∧ p.count = 0 ∧ p.motion = .standstill ∧ p.reference = none) ∧
    (sourceValid atTimeout = true ∧ atTimeout.count = 0 ∧ atTimeout.reference ≠ none ∧
      (BitVec.ofNat 32 i - atTimeout.lastEdge).toNat = timeout) ∧
    (sourceValid before = true ∧ before.count = 0 ∧ before.reference ≠ none ∧
      (BitVec.ofNat 32 i - before.lastEdge).toNat + 1 = timeout) ∧
    sourceValid State.reset.pulse = false := by decide +kernel

theorem witness_GaugeCycleEvaluatesEngineSpeed :
    let i := nextInstant Config.gaugePeriod parked.time.lastGauge parked.time.now
    let p := parked.pulse
    let atLimit : PulseUnit := { p with engineRef := some 7, engineEdge := BitVec.ofNat 32 (i + 4294467296) }
    let before : PulseUnit := { p with engineRef := some 7, engineEdge := BitVec.ofNat 32 (i + 4294467297) }
    (({ p with engineCount := 12, engineRef := some 0 } : PulseUnit).engineCount ≠ 0) ∧
    (p.engineCount = 0 ∧ p.engineRef = none) ∧
    (atLimit.engineCount = 0 ∧ atLimit.engineRef ≠ none ∧
      (BitVec.ofNat 32 i - atLimit.engineEdge).toNat = 500000) ∧
    (BitVec.ofNat 32 i - before.engineEdge).toNat = 499999 := by decide +kernel

/-- `parked` with the FUEL channel replaced. -/
def fuelled (c : Channel) : State :=
  { parked with analog := { parked.analog with channels := parked.analog.channels.set 0 c } }

theorem witness_GaugeCycleJudgesSenders :
    let c : Channel := { Channel.reset with sum := 8249, count := 20, y := some 210, status := .valid }
    let img := imageWith [(0x081, 0x9C), (0x082, 0x01), (0x087, 50)]
    openGroup (fuelled c) 100000 0 = (8249, 20) ∧ (c.sum + c.count / 2) / c.count = 412 ∧
      (senderEntry img 0).shortLimit = 412 ∧ (senderEntry img 0).margin = 50 ∧ (senderEntry img 0).hold ≠ 0 ∧
      (senderEntry parked.image 0).openLimit = 1023 ∧ parked.analog.crankHold = false ∧
      ignitionOn parked = true ∧ parked.pulse.motion = .standstill := by decide +kernel

theorem witness_SenderTableInterpolates :
    rawsAscend ([(100, 0)] ++ (300, 250) :: (700, 750) :: [(900, 1000)]) = true ∧
      rawsAscend ([] ++ (0, 0) :: (1023, 1000) :: []) = true ∧
      (∀ e ∈ [((0 : Nat), (-32767 : Int)), (1023, 32767)], e.1 ≤ 1023 ∧ |e.2| ≤ 32767) := by decide

theorem witness_SenderTableInterpolates_cycle :
    let s := sampled 500 parked
    let t := after .gaugeCycle s
    s.analog.channels[0].late = none ∧ s.analog.channels[0].count ≠ 0 ∧ s.analog.crankHold = false ∧
      t.analog.crankHold = false ∧ t.analog.channels[0].mean = some 500 ∧
      (senderEntry s.image 0).shortLimit ≤ 500 ∧ 500 ≤ (senderEntry s.image 0).openLimit := by decide +kernel

/-- A stop opened earlier, at standstill. -/
def atStop : State :=
  { sampled 500 parked with
    door := { parked.door with
      cycle := .atStop, doorways := parked.door.doorways.set 1 { Doorway.reset with state := .moving }
      stop := some { record := openingRecord parked, openedAt := 0, lastClose := 0 } } }

theorem witness_GaugeCycleWritesImage :
    atStop.time.lastGauge = 0 ∧ (after .gaugeCycle atStop).pulse.motion = atStop.pulse.motion ∧
      atStop.door.stop.map (·.openedAt) = some 0 := by decide +kernel

theorem witness_GaugeCycleWritesImage_motion :
    let s := sampled 500 (pulsing { parked.pulse with count := 20, reference := some 0, lastEdge := 100250 })
    (after .gaugeCycle s).pulse.motion = .moving ∧ s.pulse.motion = .standstill := by decide +kernel

/-- With a GAUGE_SWEEP test running, DISPLAYED_SPEED and FUEL are swept and marked (R68): at k = 15 they stand at their
highest values; L and H of the default FUEL table are 0 and 1000. -/
theorem witness_GaugeCycleWritesImage_sweep :
    let s := testing .window .gaugeSweep (sampled 500 parked)
    let t := after .gaugeCycle { s with out := { s.out with test := s.out.test.map (fun x => { x with cycles := 14 }) } }
    t.out.test.map (·.cycles) = some 15 ∧ ramRead t 0x1003 = 0xA8 ∧ ramRead t 0x1004 = 0x61 ∧
      ramRead t 0x100C = 0xE8 ∧ ramRead t 0x100D = 3 ∧ ramRead t 0x100E = 3 ∧
      [0, 1, 15, 29, 30].map (fun k => sweptAt k 0 1000) = [0, 67, 1000, 67, 0] := by decide +kernel

/-- The value handed over at a cycle is the one its condition compares: FUEL above a threshold (R91, R92). -/
theorem test_gaugeCycle_judges :
    let s := sampled 500 { parked with
      image := ((parked.image.write 0x231 64).write 0x237 0).write 0x232 100 }
    let t := after .gaugeCycle s
    t.warn.handed[0] = some { value := 489, status := .channel .valid } ∧ t.warn.warnings[1].state = .activeUnack ∧
      t.warn.warnings[1].truth = true := by decide +kernel

/-- DISPLAYED_SPEED is handed over with OVER and with INVALID, ENGINE_RPM without a status; a GAUGE_BELOW source judges an
INVALID speed as the value 0 (R37, R92). -/
theorem test_gaugeCycle_handsSpeedStatus :
    let swift := sampled 500 (pulsing { parked.pulse with count := 60, reference := some 0, lastEdge := 100250 })
    let lost := sampled 500 { parked with
      pulse := { parked.pulse with calValid := false }
      image := ((parked.image.write 0x231 78).write 0x237 0).write 0x232 100 }
    (after .gaugeCycle swift).warn.handed[6].map (·.status) = some (.speed .over) ∧
      (after .gaugeCycle lost).warn.handed[6] = some { value := 0, status := .speed .invalid } ∧
      (after .gaugeCycle lost).warn.handed[7].map (·.status) = some .none ∧
      (after .gaugeCycle lost).warn.warnings[1].truth = true := by decide +kernel

theorem witness_PulseEdges :
    let d := parked.dist
    40 ≤ (BitVec.ofNat 32 40 - parked.pulse.lastEdge).toNat ∧
      ¬ 40 ≤ (BitVec.ofNat 32 39 - parked.pulse.lastEdge).toNat ∧
      sourceValid State.reset.pulse = false ∧ sourceValid parked.pulse = true ∧
      parked.pulse.k = 8000 ∧ 7899 + 100 < 8000 ∧ 8000 ≤ 7900 + 100 ∧
      ({ d with live := 999999999, ticks := 99 } : Distance).ticks < 100 ∧
      ({ d with live := 999999998, ticks := 98 } : Distance).ticks ≠ 99 ∧ d.live ≠ 999999999 := by decide +kernel

theorem witness_AnalogTimerExpiries :
    expired (some { left := 0, since := 0 }) = true ∧ expired (some { left := 1, since := 0 }) = false ∧
      ({ parked.dist with watch := .timing { left := 0, since := 0 } } : Distance).watch =
        .timing { left := 0, since := 0 } := by decide +kernel

theorem witness_DoorTimerExpiries :
    expired movingDoor.door.doorways[1].travel = true ∧ movingDoor.door.doorways[1].state = .moving ∧
      expired movingDoor.door.doorways[1].conflict = true ∧ expired parked.door.doorways[1].travel = false := by
  decide +kernel

/-- `movingDoor` with doorway 1 present and a stop open in DEPARTING, the ignition ON. -/
def movingStop : State :=
  { movingDoor with
    image := imageWith [(0x212, 1)]
    door := { movingDoor.door with
      cycle := .departing
      stop := some { record := { sequence := 41, openStamp := 1, closeStamp := 0, odometer := 41231146, dwell := 7
                                 mask := 1, obstructions := 0, flags := 0 }
                     openedAt := 1, lastClose := 5 } } }

/-- A doorway that becomes STALLED enters the open record's mask, and the same record goes on (R76, R79); the door
image shows the STALLED doorway and AT_STOP (R86, R176). -/
theorem test_travelTimerExpiry_stop :
    let t := after (.travelTimerExpiry 1) movingStop
    t.door.cycle = .atStop ∧ t.door.stop.map (·.record.mask) = some 3 ∧
      t.door.stop.map (·.record.sequence) = some 41 ∧ noticeSet t .doorsChanged = true ∧
      ramRead t 0x1082 = 0x84 ∧ ramRead t 0x1086 = 3 := by decide +kernel

/-- A doorway in CONFLICT is not CLOSED, so it keeps an AT_STOP stop from DEPARTING, and it enters no mask (R72, R76,
R79). -/
theorem test_conflictTimerExpiry_stop :
    let s := { movingStop with door := { movingStop.door with cycle := .atStop } }
    let t := after (.conflictTimerExpiry 1) s
    t.door.cycle = .atStop ∧ t.door.stop = s.door.stop ∧ ramRead t 0x1082 = 0x85 := by decide +kernel

theorem witness_OnsetTimerExpiryIsOnset :
    pendingOnset.warn.warnings[1].state = .pending ∧ expired pendingOnset.warn.warnings[1].timer = true ∧
      (warningDef pendingOnset.image 1).cls = .caution ∧ (warningDef pendingOnset.image 1).chime = true ∧
      pendingOnset.out.arbiter.repeatTimer = none ∧ pendingOnset.out.arbiter.current = none ∧
      (warningDef (imageWith [(0x238, 0)]) 1).cls = .stop ∧ parked.warn.warnings[1].state ≠ .pending := by
  decide +kernel

/-- `pendingOnset` with the class of warning 1, its flags and the buzzer as given. -/
def onsetOf (cls flags : Byte) (a : Arbiter) : State :=
  { pendingOnset with
    image := (pendingOnset.image.write 0x238 cls).write 0x230 flags
    out := { pendingOnset.out with arbiter := a } }

/-- The buzzer at an onset (R105 to R107): a STOP onset cuts a burst and keeps the pending one, a repeat that sounds
goes on, one that nothing calls for stops; a burst starts in silence, waits behind another sound, and a pending
CAUTION takes an INFO in. -/
theorem witness_OnsetTimerExpiryIsOnset_buzzer :
    let burst : Burst := ⟨.info, 1, ⟨7, 0⟩⟩
    let after := fun (cls flags : Byte) (a : Arbiter) => (after (.onsetTimerExpiry 1) (onsetOf cls flags a)).out.arbiter
    after 0 13 ⟨false, none, some burst, some .info⟩ = ⟨true, some ⟨50, 0⟩, none, some .info⟩ ∧
      after 0 13 ⟨false, some ⟨9, 0⟩, none, none⟩ = ⟨false, some ⟨9, 0⟩, none, none⟩ ∧
      after 0 9 ⟨false, none, some burst, none⟩ = ⟨false, none, some burst, none⟩ ∧
      after 0 9 ⟨true, some ⟨9, 0⟩, none, some .info⟩ = ⟨true, none, some ⟨.info, 0, ⟨20, 0⟩⟩, none⟩ ∧
      after 1 13 ⟨false, none, none, none⟩ = ⟨true, none, some ⟨.caution, 0, ⟨20, 0⟩⟩, none⟩ ∧
      after 1 13 ⟨false, none, some burst, some .info⟩ = ⟨false, none, some burst, some .caution⟩ ∧
      after 2 13 ⟨true, some ⟨9, 0⟩, none, some .caution⟩ = ⟨true, some ⟨9, 0⟩, none, some .caution⟩ ∧
      after 2 9 ⟨false, none, some burst, none⟩ = ⟨false, none, some burst, none⟩ := by decide +kernel

/-- `pendingOnset` with other places. -/
def onsetWith (l : Vector Place 40) : State :=
  { pendingOnset with faults := { pendingOnset.faults with places := l } }

/-- A STORED place. -/
def storedPlace (code : Fin 48) (active : Bool) : Place :=
  .stored { FaultRecord.reset code 133 with active := active }

theorem witness_OccurrenceIsRecorded :
    (warningDef pendingOnset.image 1).record = true ∧
    (let places := (Vector.replicate 40 Place.free).set 39 (storedPlace 1 false)
     recordAt 39 (onsetWith places) ≠ none ∧ ∀ j : Fin 40, j ≠ 39 → recordAt j (onsetWith places) = none) ∧
    (∀ j : Fin 40, recordAt j pendingOnset = none) ∧ pendingOnset.faults.places[0] = .free ∧
    (let places := (Vector.replicate 40 (storedPlace 2 true)).set 21 (storedPlace 31 false)
     (∀ j : Fin 40, (onsetWith places).faults.places[j] ≠ .free) ∧
       (∀ j : Fin 40, (recordAt j (onsetWith places)).map (·.code) ≠ some 1) ∧
       (recordAt 21 (onsetWith places)).map (·.active) = some false ∧
       ∀ j : Fin 40, j ≠ 21 → (recordAt j (onsetWith places)).map (·.active) = some true) ∧
    (let places := Vector.replicate 40 (storedPlace 2 true)
     ∀ j : Fin 40, (recordAt j (onsetWith places)).map (·.active) = some true) ∧
    pendingOnset.faults.overflow < 255 ∧ pendingOnset.faults.overflow ≤ 255 := by decide +kernel

theorem witness_BuzzerAndPatternTimersStep_buzzer :
    let b : Nat → Burst := fun n => { cls := .caution, position := n, timer := { left := 0, since := 0 } }
    let a : Arbiter := { level := true, repeatTimer := some { left := 0, since := 0 }, current := some (b 4)
                         pending := some .info }
    expired a.repeatTimer = true ∧ ¬ 6 ≤ (b 4).position + 1 ∧ 6 ≤ (b 5).position + 1 ∧
      (b 5).timer.left = 0 ∧ ({ a with repeatTimer := none } : Arbiter).repeatTimer = none ∧
      expired parked.out.arbiter.repeatTimer = false := by decide +kernel

theorem witness_TestDurationEndsTest :
    (testing .window .buzzer parked).out.test.map (fun x => (x.duration.left, x.side)) = some (0, .window) ∧
      (testing .workshop .buzzer parked).out.test.map (·.side) = some .workshop ∧ parked.out.test = none ∧
      parked.win.ram.wf := by decide +kernel

theorem witness_BuzzerAndPatternTimersStep_patterns :
    (testing .window .lampWalk parked).out.test.map (fun x => (x.pattern, expired x.half)) =
        some (.lampWalk, true) ∧
      (testing .window .buzzer parked).out.test.map (fun x => (x.pattern, expired x.half)) =
        some (.buzzer, true) := by decide +kernel

theorem witness_SupervisionTimers :
    (∀ st : Fin 3, expired (staged ([.watching, .warned, .fallback].getD st.val .off) parked).out.supervision.timer =
      true) ∧ expired parked.out.supervision.timer = false ∧ expired parked.out.supervision.hrst = false := by
  decide +kernel

theorem witness_JobsAndPagesStart :
    let two := { parked.store with queue := [.tripA, .ring], job := none }
    let one := { parked.store with queue := [.tripA], job := none }
    parked.analog.channels[5].y = some 2400 ∧ two.job = none ∧ Object.ring ∈ two.queue ∧
      Object.ring ∉ one.queue ∧ one.queue.head? = some .tripA ∧
      (working ⟨.tripA, .tripA ⟨0, true⟩, 0, false, .waiting⟩).store.job.map (·.phase) = some .waiting := by
  decide +kernel

theorem witness_PageCompletionMovesJob :
    let j : Job := ⟨.configuration, .configuration defaultImage 1, 62, true, .inFlight 0⟩
    (working j).store.job.map (·.phase) = some (.inFlight 0) ∧ ¬ 64 ≤ j.page + 1 ∧
      64 ≤ ({ j with page := 63 } : Job).page + 1 ∧
      bcdValue (word40 (bcdOdometer 999999999)) = some 999999999 := by decide +kernel

theorem witness_PageCompletionMovesJob_ends :
    let waits : Option Waiter := some { side := .window, started := true }
    let mine : ClearWait := { object := .place 0, started := true }
    let other : ClearWait := { object := .header, started := false }
    let c : Clear := { side := .workshop, scope := none, failed := false, waits := [mine, other] }
    let s := working ⟨.place 0, .place 0 none, 0, false, .inFlight 0⟩
    let erasing (x : Clear) : State := { s with faults := { s.faults with
      places := s.faults.places.set 0 (.erasing (FaultRecord.reset 0 133)), clear := some x } }
    let ring := working ⟨.ring, .ring 0 ⟨0, 1⟩, 0, true, .inFlight 0⟩
    ({ ring with dist := { ring.dist with preset := waits } }.dist.preset = waits) ∧
      (({ working ⟨.calibration, .calibration 8000, 0, true, .inFlight 0⟩ with
          dist := { parked.dist with kfactor := waits } } : State).dist.kfactor.any (·.started)) = true ∧
      (({ working ⟨.configuration, .configuration defaultImage 1, 63, true, .inFlight 0⟩ with
          win := { parked.win with adoption := waits } } : State).win.adoption.any (·.started)) = true ∧
      mine ∈ c.waits ∧ c.waits.filter (fun x => decide (x ≠ mine)) = [other] ∧
      storeFault (after (.pageCompletion true) (erasing c)) = storeFault (erasing c) ∧
      (after (.pageCompletion true) (erasing c)).faults.places[0] = .free ∧
      [mine].filter (fun x => decide (x ≠ mine)) = [] ∧
      storeFault (after (.pageCompletion true) (erasing { c with waits := [mine] })) = storeFault (erasing c) ∧
      (erasing c).faults.overflow ≤ 255 := by
  decide +kernel

theorem witness_PageCompletionMovesJob_storeFault :
    let s := working ⟨.tripA, .tripA ⟨0, true⟩, 0, true, .inFlight 0⟩
    let none := { s with store := { s.store with notRetained := [] } }
    storeFault (after (.pageCompletion false) none) ≠ storeFault none ∧
      storeFault (after (.pageCompletion true) none) = storeFault none := by decide +kernel

/-- A page that succeeds holds the check byte computed over it, whatever the check computes (R140). -/
theorem test_pageCompletion_check :
    let s := after (.pageCompletion true) (working ⟨.tripA, .tripA ⟨41, true⟩, 0, false, .inFlight 0⟩)
    s.store.array.tripA.checkByte tripCheck = tripCheck ⟨41, true⟩ := by
  have h : (after (.pageCompletion true) (working ⟨.tripA, .tripA ⟨41, true⟩, 0, false, .inFlight 0⟩)).store.array.tripA
      = .written ⟨41, true⟩ := by decide +kernel
  simp only [h, Page.written_checkByte]

theorem witness_RequestFrameIsAccepted :
    parked.link.hold = none ∧ parked.link.request = none ∧ (0x7F : Byte).msb = false ∧
      (List.replicate 48 (0xAA : Byte)).length ≤ 48 ∧ ([3] : List Byte).length ≠ 0 := by decide +kernel

/-- The three refusals of a request frame: the head with a full buffer, a length of 0 or 49, and a check that does not
match; what follows changes nothing more. -/
theorem witness_RequestFrameIsAccepted_refused :
    (asking [3] parked).link.hold = none ∧ (asking [3] parked).link.request ≠ none ∧ 48 < (49 : Byte).toNat ∧
      (0x17 : Byte) ≠ ([0x14, 0x01, 0x03] : List Byte).foldl (· ^^^ ·) 0 ∧
    (let sent := fun (chars : List Byte) => (after (.requestFrame true chars []) parked).link
     [[0x14, 0, 0x14], [0x14, 49, 3], [0x14, 1, 3, 0x17, 9]].map
         (fun l => ((sent l).kind, (sent l).answer, (sent l).hold, (sent l).request, (sent l).reply)) =
       List.replicate 3 (.ignored, true, none, none, .empty)) := by decide +kernel

theorem witness_FetchDeliversReadyReply :
    let s := { parked with link := { parked.link with reply := .ready 0x14 (List.replicate 250 0) } }
    s.link.hold = none ∧ s.link.reply = .ready 0x14 (List.replicate 250 0) ∧
      (List.replicate 250 (0 : Byte)).length ≤ 250 := by decide +kernel

/-- The part holds a fetch: the reply to the buffered request is WAITING. -/
def holding (payload : List Byte) : State :=
  let s := asking payload parked
  { s with link := { s.link with
      inFrame := true, counter := 9, kind := .fetch, hold := some ⟨2, 0⟩, sessionTimer := some ⟨0, 0⟩ } }

theorem witness_FetchDeliversReadyReply_held :
    (holding [3]).link.kind = .fetch ∧ (holding [3]).link.out = .undecided ∧ (holding [3]).link.hold ≠ none ∧
      requested (holding [3]) ⟨5, [3], 0⟩ 3 1 ∧ (holding [3]).link.reply = .waiting 5 none ∧
      expired (holding [3]).link.sessionTimer = true := by
  refine ⟨rfl, by decide +kernel, by decide +kernel, ⟨rfl, rfl, rfl, rfl⟩, rfl, by decide +kernel⟩

/-- A fetch head finds the reply WAITING and is held; a session that closes meanwhile ends it with DISCARDED, also
where CLOSE_SESSION's reply is READY at once (R152, R156). -/
theorem test_fetchFrame_held :
    (after (.fetchFrame (some 0x05) [false] 0) (asking [2] parked)).link.hold = some ⟨2, 0⟩ ∧
      (after .closeSession (holding [2])).link.out = .sending false [4, 5, 0, 1] 0 ∧
      replyOf .closeSession (holding [2]) = .ready 5 [2, 0] := by decide +kernel

theorem witness_MarkCloseAndHoldExpiry :
    let l := { parked.link with hold := some { left := 0, since := 0 }, reply := .waiting 0x13 none }
    parked.link.hold = none ∧ l.hold ≠ none ∧ expired l.hold = true ∧ expired parked.link.hold = false := by
  decide +kernel

/-- A buffered request with an OPEN session. -/
theorem requested_asking (code : Byte) (ps : List Byte) (s : State) :
    requested (asking (code :: ps) s) ⟨5, code :: ps, s.time.now⟩ code (ps.length + 1) := ⟨rfl, rfl, rfl, rfl⟩

theorem witness_SessionOpensAndCloses :
    (asking [1] parked).link.request = some ⟨5, [1], 0⟩ ∧ requested (asking [2] parked) ⟨5, [2], 0⟩ 2 1 ∧
      expired (some { left := 0, since := 0 }) = true ∧ expired parked.link.sessionTimer = false :=
  ⟨rfl, requested_asking 2 [] parked, by decide, by decide +kernel⟩

theorem witness_ReadingServicesAnswer :
    (reader .readFault).isSome = true ∧ requested (asking [10, 39] parked) ⟨5, [10, 39], 0⟩ 10 2 ∧
      { (asking [10, 39] parked).link with session := false }.session = false :=
  ⟨rfl, requested_asking 10 [39] parked, rfl⟩

theorem witness_ReadingDataBytes : parked.dist.live ≤ 999999999 ∧ parked.dist.retained ≤ 999999999 ∧
    2 < parked.warn.list.length ∧ pendingOnset.warn.list.length = 0 ∧ parked.door.journal.length ≤ 0 ∧
    (sensing [] false twoJudgements).door.journal[0]?.isSome = true := by decide +kernel

/-- A payload of the wrong length, with the session OPEN and without one, and the other services. -/
theorem witness_linkChecks :
    (asking [10] parked).link.request = some ⟨5, [10], 0⟩ ∧ ([10] : List Byte).length ≠ 2 ∧
      service .readFault = some (10, 2) ∧ service (.clearFaults .workshop) = some (16, 3) ∧
      replyOf .readFault (asking [10] parked) = .ready 5 [10, 4] ∧
      (let closed := fun payload =>
         { asking payload parked with link := { (asking payload parked).link with session := false } }
       replyOf .readFault (closed [10]) = .ready 5 [10, 7] ∧
         replyOf (.clearFaults .workshop) (closed [16, 0, 0]) = .ready 5 [16, 7] ∧
         replyOf .openSession (closed [1, 0]) = .ready 5 [1, 4]) := by
  refine ⟨rfl, by decide, rfl, rfl, by decide +kernel, by decide +kernel⟩

theorem witness_LinkClaims_refused :
    requested (asking [14, 4] parked) ⟨5, [14, 4], 0⟩ 14 2 ∧ 3 < (param [14, 4] 1).toNat ∧
      requested (asking [15, 255] parked) ⟨5, [15, 255], 0⟩ 15 2 ∧
      replyOf .takeClaim (asking [14, 4] parked) = .ready 5 [14, 4] ∧
      replyOf .giveClaim (asking [15] parked) = .ready 5 [15, 4] :=
  ⟨requested_asking 14 [4] parked, by decide, requested_asking 15 [255] parked, by decide +kernel, by decide +kernel⟩

theorem witness_LinkClaims :
    (param [14, 3] 1).toNat = claimNumber .outputs ∧ requested (asking [14, 3] parked) ⟨5, [14, 3], 0⟩ 14 2 ∧
      (param [15, 0] 1).toNat = claimNumber .faults ∧ requested (asking [15, 0] parked) ⟨5, [15, 0], 0⟩ 15 2 :=
  ⟨by decide, requested_asking 14 [3] parked, by decide, requested_asking 15 [0] parked⟩

/-- A posted slot of a kind is due at the next timer step. -/
theorem due_posting (kind : Byte) (ps : List Byte) (s : State) (h : s.time.now = 0) (hs : s.win.lastTake = 0)
    (hk : slotByte (posting 0 kind ps s) 0 1 = kind) : takeDue (posting 0 kind ps s) 10000 0 kind := by
  refine takeDue_of _ _ _ _ 0 ⟨?_, hk, by simp [posting], by simp [posting, h], by decide, ?_⟩
  · simp only [posting, h, hs]
    decide
  · intro m hm
    exact absurd hm (Nat.not_lt_zero _)

theorem witness_UnknownKindAnswers :
    takeDue (posting 0 9 [] parked) 10000 0 9 ∧ takeDue (posting 0 0 [] parked) 10000 0 0 ∧
      (asking [21] parked).link.request = some ⟨5, [21], 0⟩ :=
  ⟨due_posting _ _ _ rfl rfl (by decide +kernel), due_posting _ _ _ rfl rfl (by decide +kernel), rfl⟩

theorem witness_AdoptConfig : takeDue (posting 0 1 [] parked) 10000 0 1 :=
  due_posting _ _ _ rfl rfl (by decide +kernel)

/-- A stop open at standstill with the source INVALID, a test running, and a valid image in the staging area that
changes the entry of PARKING_BRAKE alone. -/
def adopting : State :=
  let s := setClaim .config .window (testing .workshop .buzzer atStop)
  let staged := (imageWith [(0x012, 6), (0x013, 0x50)]).map (fun c => (0x400 + c.1, c.2))
  posting 0 1 []
    { s with
      pulse := { s.pulse with calValid := false }
      win := { s.win with ram := staged ++ s.win.ram.filter (fun c => 0x1000 ≤ c.1) } }

theorem witness_AdoptConfig_passes :
    firstFailing (adopting.win.ram.slice 0x0400 2048) = none ∧ adopting.door.cycle = .atStop ∧
      (let image := adopting.win.ram.slice 0x0400 2048
       lineEntry adopting.image 1 ≠ lineEntry image 1 ∧ (lineEntry adopting.image 1).role = .parkingBrake ∧
       lineState adopting 1 = .active ∧ adopting.out.test ≠ none ∧
       (∀ m : Fin 32, m ≠ 0 → (lineEntry adopting.image m).role ≠ .ignition) ∧
       lineEntry adopting.image 2 = lineEntry image 2) ∧
      adopting.door.nextSequence ≠ 0 ∧ adopting.door.stop.isSome = true := by decide +kernel

/-- The return of PARKING_BRAKE to UNKNOWN at an adoption leaves the motion and the open record, and ends the test
(R17, R88, R119). -/
theorem test_adoptConfig_brake :
    let t := after .adoptConfig adopting
    sourceValid adopting.pulse = false ∧ t.sense.lines[1].debounced = .unknown ∧ t.pulse.motion = .standstill ∧
      t.door.stop.map (·.record.sequence) = adopting.door.stop.map (·.record.sequence) ∧
      t.out.lastResult = .aborted .parkingBrake ∧ t.win.source = .adopted := by decide +kernel

/-- An adoption from the image `old` to the image `new`, at standstill with the stop cycle in ARRIVED. -/
def adoptingTo (old new : List (Nat × Byte)) : State :=
  let s := setClaim .config .window (sampled 500 parked)
  let line : Line := { Line.reset with debounced := .active }
  let staged := (imageWith ((0x012, 6) :: new)).map (fun c => (0x400 + c.1, c.2))
  posting 0 1 []
    { s with
      image := imageWith ((0x012, 6) :: old)
      sense := { lines := s.sense.lines.set 2 line }
      door := { s.door with
        cycle := .arrived
        doorways := s.door.doorways.set 1
          { Doorway.reset with state := .closed, combo := .shut, travel := some ⟨3, 0⟩ } }
      win := { s.win with ram := staged ++ s.win.ram.filter (fun c => 0x1000 ≤ c.1) } }

/-- Doorway 1 with SW_CLOSED on SENSE2. -/
def doorOne : List (Nat × Byte) := [(0x014, 9), (0x212, 1)]

/-- The entry of FUEL changes, doorway 1 and its line stay. -/
def adoptingKept : State := adoptingTo doorOne ((0x086, 4) :: doorOne)
/-- The entry of doorway 1's line changes. -/
def adoptingChanged : State := adoptingTo doorOne ((0x015, 0x50) :: doorOne)
/-- Doorway 1 becomes present. -/
def adoptingFresh : State := adoptingTo [(0x014, 9)] doorOne
/-- Doorway 1 does not stay, and no warning is enabled. -/
def adoptingGone : State := adoptingTo doorOne [(0x220, 0), (0x240, 0), (0x250, 0)]

theorem witness_AdoptConfig_images :
    [adoptingKept, adoptingChanged, adoptingFresh, adoptingGone].map
        (fun s => firstFailing (s.win.ram.slice 0x0400 2048)) = [none, none, none, none] ∧
      senderEntry adoptingKept.image 0 ≠ senderEntry (adoptingKept.win.ram.slice 0x0400 2048) 0 ∧
      lineOfRole adoptingChanged.image (.switchClosed 1) = some 2 ∧
      adoptingChanged.sense.lines[2].debounced ≠ .unknown ∧ adoptingChanged.door.doorways[1].combo ≠ .fault := by
  decide +kernel

/-- What an adoption makes of a doorway (R88) and of a sender whose entry changed (R69): kept where its lines keep
their entries, UNKNOWN where SW_CLOSED changed, judged as leaving UNKNOWN where it becomes present. -/
theorem witness_AdoptConfig_blocks :
    (let t := after .adoptConfig adoptingKept
     t.analog.channels[0].count = 1 ∧ t.analog.channels[0].mean = none ∧ t.door.cycle = .arrived ∧
       t.door.doorways[1] = { Doorway.reset with state := .closed, combo := .shut, travel := some ⟨3, 0⟩ }) ∧
    (after .adoptConfig adoptingChanged).door.doorways[1] = Doorway.reset ∧
    (after .adoptConfig adoptingFresh).door.doorways[1] =
      { Doorway.reset with state := .closed, combo := .shut } := by decide +kernel

/-- As `adoptingChanged`, the doorway's combination FAULT already. -/
def adoptingFaulty : State :=
  let s := adoptingChanged
  { s with door := { s.door with doorways := s.door.doorways.set 1 Doorway.reset } }

theorem witness_AdoptConfig_faulty :
    lineOfRole adoptingFaulty.image (.switchClosed 1) = some 2 ∧
      adoptingFaulty.sense.lines[2].debounced ≠ .unknown ∧ adoptingFaulty.door.doorways[1].combo = .fault ∧
      (after .adoptConfig adoptingFaulty).door.doorways[1] = Doorway.reset ∧
      senseBytes (after .adoptConfig adoptingFaulty) ≠ senseBytes adoptingFaulty := by decide +kernel

/-- A valid image in force, ARRIVED, and no doorway open before or after (R76, R88). -/
theorem witness_AdoptConfig_arrived :
    imageLaw adoptingKept ∧ adoptingKept.door.cycle = .arrived ∧ (∀ k : Fin 4, notClosed adoptingKept k = false) ∧
      (∀ k : Fin 4, notClosed (after .adoptConfig adoptingKept) k = false) ∧
      (after .adoptConfig adoptingKept).door.cycle = .arrived := by
  unfold imageLaw
  decide +kernel

/-- A doorway that does not stay is UNKNOWN, and every warning leaves with its record made PASSIVE (R88, R109). -/
theorem witness_AdoptConfig_gone :
    let t := after .adoptConfig adoptingGone
    t.door.doorways[1] = Doorway.reset ∧ t.warn.list = [] ∧
      (∀ w : Fin 48, t.warn.warnings[w].state ≠ .activeUnack) ∧
      (recordAt 0 t).map (·.active) = some false ∧ doorBytes t ≠ doorBytes adoptingGone := by decide +kernel

/-- An acknowledgement that ends the repeat, so that a pending burst starts, and one of a LATCHED warning, whose record
becomes PASSIVE (R106, R130). -/
theorem witness_AckWarningsAcknowledges_handed :
    let s := posting 0 2 [1] (leaving 15 .activeUnack)
    let l := posting 0 2 [1] (leaving 15 .latched)
    let t := after .ackWarnings s
    (∃ w : Fin 48, s.warn.warnings[w].state = .activeUnack ∧ (warningDef s.image w).cls = .stop ∧
        (warningDef s.image w).chime = true) ∧
      t.out.arbiter = { level := true, repeatTimer := none, pending := none, current := some ⟨.info, 0, ⟨20, 10000⟩⟩ } ∧
      (after .ackWarnings l).warn.list = [0, 3, 2] ∧ (recordAt 7 (after .ackWarnings l)).map (·.active) = some false ∧
      Object.place 7 ∈ (after .ackWarnings l).store.queue := by decide +kernel

theorem witness_AckWarningsAcknowledges :
    takeDue (posting 0 2 [2] parked) 10000 0 2 ∧ takeDue (posting 0 2 [0, 1] parked) 10000 0 2 ∧
      parked.warn.warnings[0].state = .activeUnack ∧ slotByte (posting 0 2 [2] parked) 0 6 = 2 ∧
      (slotByte (posting 0 2 [0, 1] parked) 0 7).getLsbD 0 = true :=
  ⟨due_posting _ _ _ rfl rfl (by decide +kernel), due_posting _ _ _ rfl rfl (by decide +kernel),
    by decide +kernel⟩

theorem witness_TripControlActs :
    takeDue (posting 0 3 [4, 5] parked) 10000 0 3 ∧ (slotByte (posting 0 3 [4, 5] parked) 0 6).toNat = 4 ∧
      (slotByte (posting 0 3 [4, 5] parked) 0 7).toNat = 5 :=
  ⟨due_posting _ _ _ rfl rfl (by decide +kernel), by decide +kernel⟩

theorem witness_KFactorIsSet :
    takeDue (posting 0 6 [0xD0, 0x07] (setClaim .odometer .window parked)) 10000 0 6 ∧
      requested (asking [18, 0xFD, 0xE8] (setClaim .odometer .workshop parked)) ⟨5, [18, 0xFD, 0xE8], 0⟩ 18 3 ∧
      0xD0 + 256 * 0x07 = 2000 ∧ 256 * 0xFD + 0xE8 = 65000 ∧ parked.pulse.calValid = true ∧
      State.reset.pulse.calValid = false ∧ parked.dist.kfactor = none :=
  ⟨due_posting _ _ _ rfl rfl (by decide +kernel), requested_asking 18 _ _, by decide +kernel⟩

/-- A K taken with no valid record: with a healthy wire the source returns, its edge references afresh (R32), its slot
shows the result 0xFF (R177); with a broken one the motion stays. -/
theorem witness_KFactorIsSet_fresh :
    let s := fun (broken : Bool) => posting 0 6 [0xD0, 0x20] (setClaim .odometer .window
      (pulsing { parked.pulse with calValid := false, wireBroken := broken, reference := some 7, count := 3 }))
    let t := after .setKFactor (s false)
    takeDue (s false) 10000 0 6 ∧ (s false).pulse.calValid = false ∧
      (t.pulse.motion = .unknown ∧ t.pulse.standstillAt = none ∧ t.pulse.reference = none ∧ t.pulse.count = 0 ∧
        t.pulse.lastEdge = 10000 ∧ slotByte t 0 3 = 0xFF ∧ t.win.slots[0] = .taken ∧
        (after .setKFactor (s true)).pulse.motion = .standstill ∧
        (after .setKFactor (s true)).pulse.reference = some 7) :=
  ⟨due_posting _ _ _ rfl rfl (by decide +kernel), rfl, by decide +kernel⟩

theorem witness_PresetOdometerIsTaken :
    takeDue (posting 0 5 [0x09, 0x99, 0x99, 0x99, 0x99] (setClaim .odometer .window parked)) 10000 0 5 ∧
      requested (asking [17, 0, 0, 0, 0, 0] (setClaim .odometer .workshop parked)) ⟨5, [17, 0, 0, 0, 0, 0], 0⟩
        17 6 ∧
      bcdValue (word40 [0x09, 0x99, 0x99, 0x99, 0x99]) = some 999999999 ∧
      bcdValue (word40 [0, 0, 0, 0, 0]) = some parked.dist.live ∧
      bcdValue (word40 [0x10, 0, 0, 0, 0]) = none ∧ bcdValue (word40 [0, 0, 0, 0, 0x0A]) = none :=
  ⟨due_posting _ _ _ rfl rfl (by decide +kernel), requested_asking 17 _ _, by decide +kernel⟩

theorem witness_ClearFaultsIsTaken :
    takeDue (posting 0 4 [1, 47] (setClaim .faults .window parked)) 10000 0 4 ∧
      requested (asking [16, 0, 0] (setClaim .faults .workshop parked)) ⟨5, [16, 0, 0], 0⟩ 16 3 ∧
      parked.faults.clear = none ∧ (recordAt 0 parked).map (·.code) = some 0 ∧
      ∀ j : Fin 40, (recordAt j parked).map (·.code) ≠ some 47 :=
  ⟨due_posting _ _ _ rfl rfl (by decide +kernel), requested_asking 16 _ _, by decide +kernel⟩

/-- With no record of warning 0, which the list holds. -/
def emptied : State := { parked with faults := { parked.faults with places := Vector.replicate 40 .free } }

theorem witness_ClearFaultsIsTaken_empty :
    takeDue (posting 0 4 [1, 0] (setClaim .faults .window emptied)) 10000 0 4 ∧
      requested (asking [16, 1, 0] (setClaim .faults .workshop emptied)) ⟨5, [16, 1, 0], 0⟩ 16 3 ∧
      (0 : Fin 48) ∈ emptied.warn.list ∧ (warningDef emptied.image 0).record = true ∧
      ∀ j : Fin 40, recordAt j emptied = none :=
  ⟨due_posting _ _ _ rfl rfl (by decide +kernel), requested_asking 16 _ _, by decide +kernel⟩

theorem witness_OutputTestStarts :
    takeDue (posting 0 7 [3, 60] (setClaim .outputs .window parked)) 10000 0 7 ∧
      requested (asking [19, 0, 1] (setClaim .outputs .workshop parked)) ⟨5, [19, 0, 1], 0⟩ 19 3 ∧
      ignitionOn parked = true ∧ parked.pulse.motion = .standstill ∧ roleActive parked .parkingBrake = true ∧
      (∀ w : Fin 48, parked.warn.warnings[w].state = .activeUnack → (warningDef parked.image w).cls ≠ .stop) ∧
      parked.out.test = none :=
  ⟨due_posting _ _ _ rfl rfl (by decide +kernel), requested_asking 19 _ _, by decide +kernel⟩

theorem witness_OutputTestStops :
    takeDue (posting 0 8 [] (testing .window .buzzer parked)) 10000 0 8 ∧
      requested (asking [20] (testing .workshop .buzzer parked)) ⟨5, [20], 0⟩ 20 1 ∧
      (testing .window .buzzer parked).win.claims.outputs = .window ∧ parked.win.claims.outputs ≠ .window :=
  ⟨due_posting _ _ _ rfl rfl (by decide +kernel), requested_asking 20 _ _, by decide +kernel⟩

/-- IDENT, the RUN_STATE of the reset state (FULL, DEFAULTS, ignition OFF, supervision OFF, a store fault), an empty
PORT_FAULT and then one of a refused write to an image, a posted slot with its attention bit, and
unused addresses; NOTICE holds STORE from the restart (R164 to R166, R175, R176). -/
theorem test_windowByte :
    windowByte State.reset 0 = 0x31 ∧ windowByte State.reset 1 = 0x4B ∧ windowByte State.reset 2 = 1 ∧
      windowByte State.reset 4 = 0x84 ∧ windowByte State.reset 0x15 = 0 ∧ windowByte State.reset 0x17 = 0 ∧
      (let t := after (.windowWrite 0x1017 0 9) State.reset
       windowByte t 0x14 = 0x17 ∧ windowByte t 0x15 = 0x10 ∧ windowByte t 0x16 = 1 ∧ windowByte t 0x17 = 1 ∧
         windowByte t 0x0B = 6) ∧
      windowByte (posting 7 5 [] parked) 6 = 0x80 ∧ windowByte (posting 7 5 [] parked) 0x02C0 = 1 ∧
      windowByte (posting 7 5 [] parked) 0x02C1 = 5 ∧ windowByte State.reset 0x0024 = 0 ∧
      windowByte State.reset 0x1300 = 0 := by decide +kernel

theorem witness_ClaimBytes :
    parked.win.claims.holder .outputs = .free ∧
      (testing .window .buzzer parked).win.claims.holder .outputs = .window ∧
      (testing .window .buzzer parked).out.test.map (·.side) = some .window ∧
      (0xFFFF : BitVec 16).toNat % 0x2000 + 1 = 0x2000 ∧
      (0x001F : BitVec 16).toNat % 0x2000 < 0x0020 ∧ 0x0023 < (0x0024 : BitVec 16).toNat % 0x2000 := by
  decide +kernel

theorem witness_SlotStatesAndAttention :
    parked.win.slots[7] = .free ∧ (posting 7 5 [] parked).win.slots[7] = .posted ∧
      (parked.win.slots.set 7 .taken)[7] = .taken ∧ (parked.win.slots.set 7 .done)[7] = .done ∧
      (0x80 : Byte).getLsbD 7 = true ∧ (0x02C0 : BitVec 16).toNat % 0x2000 + 0 = 0x0100 + 64 * (7 : Fin 8).val ∧
      (2 : Byte) ≠ 0 ∧ (2 : Byte) ≠ 1 := by decide +kernel

theorem witness_NoticeAndSupervisionWords :
    parked.out.supervision.stage = .off ∧ (staged .watching parked).out.supervision.stage = .watching ∧
      (staged .warned parked).out.supervision.stage = .warned ∧ (250 : Byte).toNat ≤ 250 ∧
      250 < (251 : Byte).toNat ∧ 1 < (2 : Byte).toNat := by decide +kernel

theorem witness_SupervisionRefresh :
    (staged .fallback parked).out.supervision.stage = .fallback ∧
      (staged .fallback parked).out.supervision.expected = 0x5A ∧
      (staged .fallback parked).out.supervision.progress = false ∧
      { (staged .fallback parked).out.supervision with progress := true }.progress = true := by decide +kernel

theorem witness_SoftRestartResets :
    parked.out.test = none ∧ parked.out.supervision.stage ≠ .fallback ∧
      (testing .window .buzzer parked).out.test.map (·.side) = some .window ∧ (0xC2 : Byte) ≠ 0xC3 := by
  decide +kernel

/-- Warning 1 with the source SUPERVISION_FALLBACK, in a stage. -/
def fallbackWarning (st : Stage) : State :=
  let s := staged st parked
  { s with image := (s.image.write 0x231 137).write 0x237 0 }

/-- The warnings are judged at the entry to FALLBACK (R124), and at its ends by a refresh (R123) and by a soft restart
(R125). -/
theorem witness_fallback_judged :
    let entered := after .supvPeriodExpiry (fallbackWarning .warned)
    let resumed := after (.supvRefresh 0x5A) { entered with
      out := { entered.out with supervision := { entered.out.supervision with progress := true } } }
    entered.warn.warnings[1].state = .activeUnack ∧ entered.out.supervision.stage = .fallback ∧
      entered.out.supervision.expected = 0x5A ∧ resumed.warn.warnings[1].state = .inactive ∧
      (after (.softRestart 0xC3) entered).warn.warnings[1].state = .inactive := by decide +kernel

theorem witness_WindowWrites :
    (0x1FFF : BitVec 16).toNat % 0x2000 + 1 = 0x2000 ∧ (0x030F : BitVec 16).toNat % 0x2000 + 0 = 0x030F ∧
      (0x0BFF : BitVec 16).toNat % 0x2000 + 1 = 0x0C00 ∧
      (0x02FF : BitVec 16).toNat % 0x2000 + 0 = 0x0100 + 64 * (7 : Fin 8).val + 63 ∧
      (posting 7 5 [] parked).win.slots[7] = .posted ∧
      (0x0005 : BitVec 16).toNat % 0x2000 + 2 = 7 ∧ (0x2013 : BitVec 16).toNat % 0x2000 + 0 = 19 ∧
      (0x0023 : BitVec 16).toNat % 0x2000 + 0 = 32 + claimNumber .outputs := by decide +kernel

/-- The reset state meets the hypothesis of each law that steps keep. -/
theorem witness_laws : storageLaw State.reset ∧ odometerLaw State.reset ∧ listLaw State.reset ∧
    claimLaw State.reset := by
  refine ⟨⟨by decide +kernel, by decide +kernel⟩, ⟨by decide +kernel, by decide +kernel, ?_⟩,
    ⟨by decide +kernel, by decide +kernel⟩, ?_⟩
  · intro j h
    exact absurd h (by rw [show State.reset.store.job = none from rfl]; simp)
  · intro k
    cases k <;> decide +kernel

theorem witness_StepKeepsRecordLaw : recordLaw pendingOnset := by
  intro i j p q h
  have : ∀ i : Fin 40, pendingOnset.faults.places[i] = .free := by decide +kernel
  rw [this i] at h
  cases h

/-- The overflow count at its last value, in a header job too. -/
theorem witness_StepKeepsRecordLaw_overflow :
    overflowLaw { working ⟨.header, .header 3 255, 0, false, .inFlight 0⟩ with
      faults := { parked.faults with overflow := 255 } } := by
  refine ⟨Nat.le_refl 255, by decide +kernel, fun j r o h k => ?_⟩
  cases h
  cases k
  exact Nat.le_refl 255

theorem witness_StepKeepsStorageLaw_image : imageLaw adoptingKept := witness_AdoptConfig_arrived.1

theorem witness_StepKeepsTestLaw : testLaw (testing .window .buzzer parked) := by
  refine ⟨by unfold ignitionWired; decide +kernel, fun x hx => ?_⟩
  have h : x.side = .window := by
    have : (testing .window .buzzer parked).out.test.map (·.side) = some .window := by decide +kernel
    simpa [hx] using this
  rw [h]
  decide +kernel

theorem witness_StepKeepsPermitLaw :
    permitLaw { parked with door := { parked.door with age := some 30, dpermit := true } } := by
  refine ⟨by unfold ignitionWired; decide +kernel, fun a h => ?_, fun _ => by decide +kernel⟩
  simp only [Option.some.injEq] at h
  subst h
  decide +kernel

end Sys2Proof.Tests
end

/-! What a sense sample does to the Sense Line Unit: the lines take their samples, and no delivery after
that touches the unit again, so each line's last raw class is the class of its ratio (R6). -/

namespace Sys2Proof.Proofs

open Sys2Proof Sys2Proof.Machine

/-! ## One line -/

/-- The debouncing decides on the debounced state and its candidate only (R8). -/
@[simp] theorem debounce_lastClass (l : Line) (n : Nat) (st : LineState) :
    (l.debounce n st).lastClass = l.lastClass := by
  simp only [Line.debounce]
  (repeat' split) <;> rfl

/-- A line is classified both where its sample is set aside and where it is debounced (R6, R9, R10). -/
@[simp] theorem sample_lastClass (l : Line) (e : LineEntry) (crank : Bool) (ratio : Sample) :
    (l.sample e crank ratio).lastClass = some (rawClass e.diagnosis ratio) := by
  simp only [Line.sample]
  split
  case isTrue setAside => rfl
  case isFalse taken => rw [debounce_lastClass]

/-! ## The unit -/

/-- Every line takes the sample of its own ratio (R6). -/
theorem sampleLines_line (ratios : Vector Sample 32) (s : State) (n : Fin 32) :
    (sampleLines ratios s).sense.lines[n] =
      s.sense.lines[n].sample (lineEntry s.image n) s.analog.crankHold ratios[n] := by
  simp [sampleLines]

/-- The deliveries of the changed lines leave the unit as the samples made it. -/
theorem takeLines_sense (ratios : Vector Sample 32) (s : State) :
    (takeLines ratios s).sense = (sampleLines ratios s).sense := by
  have delivered : ∀ r : State,
      ((List.finRange 32).foldl (lineEvent s.sense.lines) r).sense = r.sense :=
    foldl_keeps (·.sense) _ (fun r n => (by simp : (lineEvent s.sense.lines r n).sense = r.sense)) _
  calc (takeLines ratios s).sense
      = (publishSense s (sampleLines ratios s)).sense := delivered _
    _ = (sampleLines ratios s).sense := by simp

/-- So do the wire class of PULSE_V and the analog inputs, which a sense sample takes after the lines. -/
theorem sensed_sense (ratios : Vector Sample 32) (wire : Bool) (inputs : Vector Sample 6) (s : State) :
    (sensed ratios wire inputs s).sense = (sampleLines ratios s).sense := by
  simp [sensed, takeLines_sense]

/-! ## The command -/

theorem exec_senseSample (ratios : Vector Sample 32) (wire : Bool) (inputs : Vector Sample 6) (s : State) :
    exec (.senseSample ratios wire inputs) s = .next (sensed ratios wire inputs (atSense s)) := rfl

/-- Each line after a sense sample is the line before it with its ratio's sample taken: the instant of the sample
touches neither the lines nor what they read. -/
theorem senseSample_line (ratios : Vector Sample 32) (wire : Bool) (inputs : Vector Sample 6) (s : State)
    (n : Fin 32) :
    (sensed ratios wire inputs (atSense s)).sense.lines[n] =
      s.sense.lines[n].sample (lineEntry s.image n) s.analog.crankHold ratios[n] := by
  rw [sensed_sense, sampleLines_line]
  simp

/-- Settles O5: the class of a line's sample is kept by everything that follows it, and `rawClass` is the bands of
R6. -/
theorem rawClassAtEverySample : Obligations.RawClassAtEverySample := by
  intro s ratios wire inputs
  refine ⟨_, exec_senseSample ratios wire inputs s, fun n => ?_⟩
  rw [senseSample_line, sample_lastClass]
  rfl

end Sys2Proof.Proofs

/-! What a good gauge cycle makes of a sender's raw mean: nothing after the judgement of the senders touches the
channel again, so its value x is the table value of the mean (R57, R62); and what the table value is, by the rounded
quotient, the scan of the segments, and the two ends. -/

namespace Sys2Proof.Proofs

open Sys2Proof Sys2Proof.Machine

/-! ## The judgement of a sender -/

@[simp] theorem faultCycle_mean (c : Channel) (e : SenderEntry) (now : Nat) :
    (c.faultCycle e now).mean = c.mean := by
  simp only [Channel.faultCycle]
  (repeat' split) <;> rfl

@[simp] theorem goodCycle_mean (c : Channel) (e : SenderEntry) (quiet : Bool) (x : Int) :
    (c.goodCycle e quiet x).mean = c.mean := by
  simp only [Channel.goodCycle]
  (repeat' split) <;> rfl

/-- A good cycle keeps its table value, whatever the filter and the quick adopt make of y (R62, R64, R65). -/
@[simp] theorem goodCycle_x (c : Channel) (e : SenderEntry) (quiet : Bool) (x : Int) :
    (c.goodCycle e quiet x).x = some x := by
  simp only [Channel.goodCycle]
  (repeat' split) <;> rfl

@[simp] theorem judge_mean (c : Channel) (e : SenderEntry) (now : Nat) (quiet : Bool) :
    (c.judge e now quiet).mean = c.mean := by
  simp only [Channel.judge]
  split
  case isTrue bad => exact faultCycle_mean c e now
  case isFalse good => exact goodCycle_mean c e quiet _

/-- Between the limits of its entry a raw mean goes through the table (R57, R62). -/
theorem judge_x_of_good {c : Channel} {e : SenderEntry} {r : Nat} (now : Nat) (quiet : Bool)
    (mean : c.mean = some r) (notShort : e.shortLimit ≤ r) (notOpen : r ≤ e.openLimit) :
    (c.judge e now quiet).x = some (tableValue e.table r) := by
  have good : ¬ (r < e.shortLimit ∨ e.openLimit < r) := by omega
  simp [Channel.judge, mean, good]

/-! ## The cycle -/

/-- With crank hold neither set nor set before, each sender is judged by its own entry (R61, R62). -/
theorem judgeSenders_sender (s : State) (n : Fin 5) (free : s.analog.crankHold = false) :
    (judgeSenders false s).analog.channels[n.castSucc] =
      s.analog.channels[n.castSucc].judge (senderEntry s.image n) s.time.now
        (decide (s.pulse.motion = .standstill) && ignitionOn s) := by
  simp [judgeSenders, free]

/-- The analog part of a cycle takes a sender's raw mean through the table of its entry (R57). -/
theorem judgeAnalog_x {s : State} {n : Fin 5} {r : Nat}
    (mean : (judgeAnalog s).analog.channels[n.castSucc].mean = some r)
    (before : s.analog.crankHold = false) (now : (judgeAnalog s).analog.crankHold = false)
    (notShort : (senderEntry s.image n).shortLimit ≤ r) (notOpen : r ≤ (senderEntry s.image n).openLimit) :
    (judgeAnalog s).analog.channels[n.castSucc].x = some (tableValue (senderEntry s.image n).table r) := by
  have free : (judgeSupply (closeGroups s)).analog.crankHold = false := by simpa [judgeAnalog] using now
  have entry : (judgeSupply (closeGroups s)).image = s.image := by simp
  rw [judgeAnalog, before, judgeSenders_sender _ n free, entry] at mean ⊢
  rw [judge_mean] at mean
  exact judge_x_of_good _ _ mean notShort notOpen

theorem exec_gaugeCycle (s : State) : exec .gaugeCycle s =
    .next (publishGauge (gaugeEvent (roadEvent (dwellEvent (decide (s.time.lastGauge = 0)) (atGauge s))))) := rfl

/-- The hand-over, the sweep and the published images of a cycle leave the unit as its judgement made it. -/
theorem gaugeEvent_analog (s : State) : (gaugeEvent s).analog = (judgeAnalog (evaluateEngine s)).analog := by
  simp [gaugeEvent]

/-- At a good cycle x is the table value of the raw mean: what goes before the judgement keeps the crank hold and the
image, and what comes after keeps the unit (R57). -/
theorem gaugeCycle_x (s : State) (n : Fin 5) :
    ∃ t, exec .gaugeCycle s = .next t ∧ ∀ r, t.analog.channels[n.castSucc].mean = some r →
      s.analog.crankHold = false → t.analog.crankHold = false →
      (senderEntry s.image n).shortLimit ≤ r → r ≤ (senderEntry s.image n).openLimit →
      t.analog.channels[n.castSucc].x = some (tableValue (senderEntry s.image n).table r) := by
  refine ⟨_, exec_gaugeCycle s, fun r mean before now notShort notOpen => ?_⟩
  generalize handed : evaluateEngine (roadEvent (dwellEvent (decide (s.time.lastGauge = 0)) (atGauge s))) = u
  have analog : (publishGauge (gaugeEvent (roadEvent (dwellEvent (decide (s.time.lastGauge = 0))
      (atGauge s))))).analog = (judgeAnalog u).analog := by
    rw [← handed, ← gaugeEvent_analog]
    simp
  have entry : senderEntry u.image n = senderEntry s.image n := by simp [← handed]
  have crank : u.analog.crankHold = s.analog.crankHold := by simp [← handed]
  rw [analog] at mean now ⊢
  rw [← entry] at notShort notOpen ⊢
  exact judgeAnalog_x mean (crank.trans before) now notShort notOpen

/-! ## The rounded quotient -/

/-- The quotient of a numerator that is not negative rounds a half up: it is 0 or more, and the remainder lies in
[-den/2, den/2). -/
theorem roundAway_of_nonneg {num : Int} {den : Nat} (sign : 0 ≤ num) (pos : 0 < den) :
    0 ≤ roundAway num den ∧ -(den : Int) ≤ 2 * (num - den * roundAway num den) ∧
      2 * (num - den * roundAway num den) < den := by
  have wide : (0 : Int) < 2 * den := by omega
  have value : roundAway num den = (2 * num + den) / (2 * den) := if_pos sign
  have division := Int.mul_ediv_add_emod (2 * num + den) (2 * den)
  have low := Int.emod_nonneg (2 * num + den) wide.ne'
  have high := Int.emod_lt_of_pos (2 * num + den) wide
  rw [← value, mul_assoc] at division
  refine ⟨?_, by omega, by omega⟩
  rw [value]
  exact Int.ediv_nonneg (by omega) wide.le

/-- Halves go away from zero on both sides, so the rounding is odd. -/
theorem roundAway_neg (num : Int) {den : Nat} (pos : 0 < den) : roundAway (-num) den = -roundAway num den := by
  rcases lt_trichotomy num 0 with below | rfl | above
  · rw [roundAway, roundAway, if_pos (by omega), if_neg (by omega), neg_neg]
  · have zero : (den : Int) / (2 * den) = 0 := Int.ediv_eq_zero_of_lt (by omega) (by omega)
    simp [roundAway, zero]
  · rw [roundAway, roundAway, if_neg (by omega), if_pos (by omega), neg_neg]

/-- The quotient is a nearest integer, and of two the one further from zero (R57). -/
theorem roundAway_nearest (num : Int) {den : Nat} (pos : 0 < den) :
    2 * |num - den * roundAway num den| ≤ den ∧
      (2 * |num - den * roundAway num den| = den → |num| < den * |roundAway num den|) := by
  wlog sign : 0 ≤ num generalizing num
  · have mirrored := this (-num) (by omega)
    rwa [roundAway_neg num pos, mul_neg, neg_sub_neg, abs_sub_comm, abs_neg, abs_neg] at mirrored
  obtain ⟨natural, low, high⟩ := roundAway_of_nonneg sign pos
  rw [abs_of_nonneg sign, abs_of_nonneg natural]
  rcases abs_cases (num - den * roundAway num den) with ⟨remainder, _⟩ | ⟨remainder, _⟩ <;> omega

/-- An exact quotient is not rounded. -/
theorem roundAway_mul (d : Int) {den : Nat} (pos : 0 < den) : roundAway (den * d) den = d := by
  have near := (roundAway_nearest (den * d) pos).1
  rw [← mul_sub, abs_mul, Nat.abs_cast] at near
  by_contra rounded
  have apart : 1 ≤ |d - roundAway (den * d) den| := Int.one_le_abs (sub_ne_zero.mpr (Ne.symm rounded))
  have := le_mul_of_one_le_right (Int.natCast_nonneg den) apart
  omega

/-- Along a segment the quotient stays between 0 and the segment's rise, which may be negative. -/
theorem roundAway_between {k : Int} {den : Nat} (d : Int) (pos : 0 < den) (start : 0 ≤ k) (stop : k ≤ den) :
    min 0 d ≤ roundAway (k * d) den ∧ roundAway (k * d) den ≤ max 0 d := by
  wlog sign : 0 ≤ d generalizing d
  · have mirrored := this (-d) (by omega)
    rw [mul_neg, roundAway_neg _ pos] at mirrored
    omega
  obtain ⟨natural, low, -⟩ := roundAway_of_nonneg (mul_nonneg start sign) pos
  have rise : k * d ≤ den * d := mul_le_mul_of_nonneg_right stop sign
  have notAbove : roundAway (k * d) den ≤ d := by
    by_contra above
    have : (den : Int) * (d + 1) ≤ den * roundAway (k * d) den :=
      mul_le_mul_of_nonneg_left (by omega) (Int.natCast_nonneg den)
    rw [mul_add] at this
    omega
  omega

/-! ## A segment -/

/-- The line through two breakpoints at `r` (R57). -/
def segmentValue (p q : Nat × Int) (r : Nat) : Int :=
  p.2 + roundAway (((r : Int) - p.1) * (q.2 - p.2)) (q.1 - p.1)

theorem segmentValue_end {p q : Nat × Int} (rise : p.1 < q.1) : segmentValue p q q.1 = q.2 := by
  have width : (q.1 : Int) - p.1 = (q.1 - p.1 : Nat) := by omega
  rw [segmentValue, width, roundAway_mul _ (by omega)]
  omega

theorem segmentValue_between {p q : Nat × Int} {r : Nat} (above : p.1 < r) (upTo : r ≤ q.1) :
    min p.2 q.2 ≤ segmentValue p q r ∧ segmentValue p q r ≤ max p.2 q.2 := by
  have between := roundAway_between (k := (r : Int) - p.1) (den := q.1 - p.1) (q.2 - p.2)
    (by omega) (by omega) (by omega)
  rw [segmentValue]
  omega

/-- The quotient that is added to the lower value is rounded to nearest, halves away from zero (R57). -/
theorem segmentValue_rounds {p q : Nat × Int} {r : Nat} (above : p.1 < r) (upTo : r ≤ q.1) :
    let num : Int := ((r : Int) - p.1) * (q.2 - p.2)
    let den : Int := (q.1 : Int) - p.1
    ∃ quotient : Int, segmentValue p q r = p.2 + quotient ∧ 2 * |num - den * quotient| ≤ den ∧
      (2 * |num - den * quotient| = den → |num| < den * |quotient|) := by
  intro num den
  have width : den = (q.1 - p.1 : Nat) := by omega
  rw [width]
  exact ⟨_, rfl, roundAway_nearest num (by omega)⟩

/-! ## The scan -/

/-- Each raw value lies below all that follow it, not only below the next. -/
theorem pairwise_of_rawsAscend : ∀ {table : List (Nat × Int)}, rawsAscend table = true →
    table.Pairwise (fun a b => a.1 < b.1)
  | [], _ => List.Pairwise.nil
  | [_], _ => List.pairwise_singleton _ _
  | p :: q :: l, ascend => by
    obtain ⟨next, rest⟩ : p.1 < q.1 ∧ rawsAscend (q :: l) = true := by simpa [rawsAscend] using ascend
    have later := pairwise_of_rawsAscend rest
    refine List.pairwise_cons.mpr ⟨fun b member => ?_, later⟩
    rcases List.mem_cons.mp member with rfl | further
    · exact next
    · exact next.trans (List.rel_of_pairwise_cons later further)

theorem scanTable_segment {p q : Nat × Int} {r : Nat} (l : List (Nat × Int)) (upTo : r ≤ q.1) :
    scanTable r (p :: q :: l) = segmentValue p q r := if_pos upTo

theorem scanTable_next {p q : Nat × Int} {r : Nat} (l : List (Nat × Int)) (above : q.1 < r) :
    scanTable r (p :: q :: l) = scanTable r (q :: l) := if_neg (by omega)

/-- The scan passes all breakpoints before the last one below `r`. -/
theorem scanTable_skip {p : Nat × Int} {r : Nat} (l : List (Nat × Int)) (above : p.1 < r) :
    ∀ before : List (Nat × Int), (∀ e ∈ before, e.1 < r) →
      scanTable r (before ++ p :: l) = scanTable r (p :: l)
  | [], _ => rfl
  | [_], _ => scanTable_next l above
  | b :: c :: before, below => by
    have next : c.1 < r := below c (by simp)
    calc scanTable r (b :: c :: before ++ p :: l)
        = scanTable r (c :: before ++ p :: l) := scanTable_next _ next
      _ = scanTable r (p :: l) :=
        scanTable_skip l above (c :: before) fun e member => below e (List.mem_cons_of_mem b member)

/-- From a breakpoint below `r` on, the scan answers between any bounds on the table's values. -/
theorem scanTable_bounded {lo hi : Int} {r : Nat} : ∀ {p : Nat × Int} {l : List (Nat × Int)}, p.1 < r →
    (∀ e ∈ p :: l, lo ≤ e.2 ∧ e.2 ≤ hi) → lo ≤ scanTable r (p :: l) ∧ scanTable r (p :: l) ≤ hi
  | p, [], _, bounds => bounds p (by simp)
  | p, q :: l, above, bounds => by
    by_cases upTo : r ≤ q.1
    · have := segmentValue_between above upTo
      have := bounds p (by simp)
      have := bounds q (by simp)
      rw [scanTable_segment l upTo]
      omega
    · rw [scanTable_next l (by omega)]
      exact scanTable_bounded (by omega) fun e member => bounds e (List.mem_cons_of_mem p member)

/-! ## The table -/

theorem tableValue_below {f : Nat × Int} {r : Nat} (l : List (Nat × Int)) (upTo : r ≤ f.1) :
    tableValue (f :: l) r = f.2 := if_pos upTo

theorem tableValue_scan {f : Nat × Int} {r : Nat} (l : List (Nat × Int)) (above : f.1 < r) :
    tableValue (f :: l) r = scanTable r (f :: l) := if_neg (by omega)

/-- Above a breakpoint of an ascending table the value is that of the scan from it. -/
theorem tableValue_skip {before l : List (Nat × Int)} {p : Nat × Int} {r : Nat}
    (ascend : (before ++ p :: l).Pairwise (fun a b => a.1 < b.1)) (above : p.1 < r) :
    tableValue (before ++ p :: l) r = scanTable r (p :: l) := by
  have below : ∀ e ∈ before, e.1 < r := fun e member =>
    ((List.pairwise_append.mp ascend).2.2 e member p List.mem_cons_self).trans above
  cases before with
  | nil => exact tableValue_scan l above
  | cons f before =>
    have first : f.1 < r := below f List.mem_cons_self
    exact (tableValue_scan _ first).trans (scanTable_skip l above (f :: before) below)

theorem tableValue_segment {before after : List (Nat × Int)} {p q : Nat × Int} {r : Nat}
    (ascend : (before ++ p :: q :: after).Pairwise (fun a b => a.1 < b.1)) (above : p.1 < r)
    (upTo : r ≤ q.1) : tableValue (before ++ p :: q :: after) r = segmentValue p q r := by
  rw [tableValue_skip ascend above, scanTable_segment after upTo]

theorem tableValue_above {table : List (Nat × Int)} {z : Nat × Int} {r : Nat}
    (ascend : table.Pairwise (fun a b => a.1 < b.1)) (last : table.getLast? = some z) (above : z.1 < r) :
    tableValue table r = z.2 := by
  obtain ⟨before, rfl⟩ := List.getLast?_eq_some_iff.mp last
  exact tableValue_skip ascend above

theorem tableValue_bounded {lo hi : Int} {table : List (Nat × Int)} (r : Nat) (nonempty : table ≠ [])
    (bounds : ∀ e ∈ table, lo ≤ e.2 ∧ e.2 ≤ hi) :
    lo ≤ tableValue table r ∧ tableValue table r ≤ hi := by
  obtain ⟨f, l, rfl⟩ := List.exists_cons_of_ne_nil nonempty
  by_cases upTo : r ≤ f.1
  · rw [tableValue_below l upTo]
    exact bounds f List.mem_cons_self
  · rw [tableValue_scan l (by omega)]
    exact scanTable_bounded (by omega) bounds

/-- With raw values to 1,023 and values within -32,767 to 32,767 the product fits (R57). -/
theorem segment_product_le {p q : Nat × Int} {r : Nat} (above : p.1 < r) (upTo : r ≤ q.1)
    (raw : q.1 ≤ 1023) (low : |p.2| ≤ 32767) (high : |q.2| ≤ 32767) :
    |((r : Int) - p.1) * (q.2 - p.2)| ≤ 1023 * 65534 := by
  have run : |(r : Int) - p.1| ≤ 1023 := abs_le.mpr (by omega)
  have rise : |q.2 - p.2| ≤ 65534 := (abs_sub q.2 p.2).trans (by omega)
  rw [abs_mul]
  exact mul_le_mul run rise (abs_nonneg _) (by norm_num)

/-- Settles O17: a good cycle takes the raw mean through the table, and the table value is that of the end reached or
of the segment around the mean. -/
theorem senderTableInterpolates : Obligations.SenderTableInterpolates := by
  refine ⟨gaugeCycle_x, ?_⟩
  intro before after p q r rising table
  have ascend : table.Pairwise (fun a b => a.1 < b.1) := pairwise_of_rawsAscend rising
  have segment (above : p.1 < r) (upTo : r ≤ q.1) : tableValue table r = segmentValue p q r :=
    tableValue_segment ascend above upTo
  have next : p.1 < q.1 := List.rel_of_pairwise_cons (List.pairwise_append.mp ascend).2.1 List.mem_cons_self
  refine ⟨?first, fun z last above => tableValue_above ascend last above, ?rounded, ?onBreakpoint, ?between, ?ranges⟩
  case first =>
    intro f head upTo
    obtain ⟨l, split⟩ := List.head?_eq_some_iff.mp head
    rw [split, tableValue_below l upTo]
  case rounded =>
    intro above upTo
    rw [segment above upTo]
    exact segmentValue_rounds above upTo
  case onBreakpoint =>
    rintro rfl
    rw [segment next le_rfl, segmentValue_end next]
  case between =>
    intro above upTo
    rw [segment above upTo]
    exact segmentValue_between above upTo
  case ranges =>
    intro bounds
    refine ⟨?_, fun above upTo => ?_⟩
    · have values : ∀ e ∈ table, -32767 ≤ e.2 ∧ e.2 ≤ 32767 := fun e member => abs_le.mp (bounds e member).2
      exact abs_le.mpr (tableValue_bounded r (by simp [table]) values)
    · obtain ⟨-, low⟩ := bounds p (by simp [table])
      obtain ⟨raw, high⟩ := bounds q (by simp [table])
      exact segment_product_le above upTo raw low high

end Sys2Proof.Proofs

/-! What a step is: every command answers a next state, so a law that the commands and the passing of time keep is kept
by every step. -/

namespace Sys2Proof.Proofs

open Sys2Proof Sys2Proof.Machine Sys2Proof.Safety

/-- The state that a command answers with. -/
def after (c : Instr) (s : State) : State :=
  match exec c s with
  | .next t => t
  | _ => s

/-- A page completion acts on the page in flight, at its end or later (R143). -/
theorem execPageCompletion_inFlight {s : State} {j : Job} {since : Nat} (verified : Bool)
    (job : s.store.job = some j) (phase : j.phase = .inFlight since) :
    execPageCompletion verified s =
      let u := completePage j verified (setNow (max s.time.now (since + Config.pageTime)) s)
      .next (settle (storeFault s != storeFault u) s u) := by
  simp [execPageCompletion, job, phase]

/-- A page completion with no page in flight changes nothing. -/
theorem execPageCompletion_idle {s : State} (verified : Bool)
    (idle : ∀ j since, s.store.job = some j → j.phase ≠ .inFlight since) :
    execPageCompletion verified s = .next s := by
  unfold execPageCompletion
  split
  · split
    · exact absurd ‹_› (idle _ _ ‹_›)
    · rfl
  · rfl

/-- No command faults or is refused. -/
theorem exec_eq (c : Instr) (s : State) : exec c s = .next (after c s) := by
  cases c
  case pageCompletion verified =>
    have next : ∃ t, execPageCompletion verified s = .next t := by
      by_cases idle : ∀ j since, s.store.job = some j → j.phase ≠ .inFlight since
      · exact ⟨_, execPageCompletion_idle verified idle⟩
      · push Not at idle
        obtain ⟨j, since, job, phase⟩ := idle
        exact ⟨_, execPageCompletion_inFlight verified job phase⟩
    obtain ⟨t, answer⟩ := next
    simp only [after, exec, answer]
  all_goals rfl

theorem exec_next_iff (c : Instr) (s t : State) : exec c s = .next t ↔ t = after c s := by
  rw [exec_eq]
  exact ⟨fun h => by injection h with e; exact e.symm, fun h => h ▸ rfl⟩

/-- What a step is: with nothing commanded time may pass, else the front command acts on the state with the rest of
the queue. -/
theorem step_cases {s t : State} (h : step s = .next t) :
    (s.pending = [] ∧ t = idle s) ∨
    ∃ c rest, s.pending = c :: rest ∧ t = after c { s with pending := rest } := by
  unfold step at h
  split at h
  · injection h with e
    exact .inl ⟨‹_›, e.symm⟩
  · exact .inr ⟨_, _, ‹_›, (exec_next_iff _ _ _).mp h⟩

theorem idle_cases (s : State) : idle s = s ∨ idle s = setNow (s.time.now + 1) s := by
  unfold idle
  split
  · exact .inl rfl
  · exact .inr rfl

/-- A law that does not read the queue and that the clock and every command keep is kept by every step. -/
theorem step_keeps {P : State → Prop} (queue : ∀ s q, P s → P { s with pending := q })
    (clock : ∀ s t, P s → P (setNow t s)) (commands : ∀ c s, P s → P (after c s)) (s t : State) (h : P s)
    (stepped : step s = .next t) : P t := by
  obtain ⟨-, rfl⟩ | ⟨c, rest, -, rfl⟩ := step_cases stepped
  · obtain e | e := idle_cases s
    · rw [e]
      exact h
    · rw [e]
      exact clock s _ h
  · exact commands c _ (queue s rest h)

/-- Settles O1: `step` with a command in front is that command on the rest of the queue. -/
theorem stepRunsFrontCommand : Obligations.StepRunsFrontCommand := by
  intro s c rest front
  simp only [step, front]

/-- Settles O2: `step` on an empty queue is `idle`. -/
theorem emptyQueueIdles : Obligations.EmptyQueueIdles := by
  intro s empty
  have idles : step s = .next (idle s) := by
    unfold step
    rw [empty]
  rw [idles, idle]
  exact ⟨fun due => by rw [if_pos due], fun free => by rw [if_neg (by simp [free])]; rfl⟩

end Sys2Proof.Proofs

/-! What the two services of a claim leave as it was. -/

namespace Sys2Proof.Proofs

open Sys2Proof Sys2Proof.Machine Sys2Proof.Safety

@[simp] theorem takeClaimService_frame (r : Request) (s : State) :
    (takeClaimService r s).time = s.time ∧ (takeClaimService r s).sense = s.sense ∧
    (takeClaimService r s).pulse = s.pulse ∧ (takeClaimService r s).dist = s.dist ∧
    (takeClaimService r s).analog = s.analog ∧ (takeClaimService r s).door = s.door ∧
    (takeClaimService r s).warn = s.warn ∧ (takeClaimService r s).out = s.out ∧
    (takeClaimService r s).faults = s.faults ∧ (takeClaimService r s).store = s.store ∧
    (takeClaimService r s).link.inFrame = s.link.inFrame ∧ (takeClaimService r s).link.counter = s.link.counter ∧
    (takeClaimService r s).link.shift = s.link.shift ∧ (takeClaimService r s).link.kind = s.link.kind ∧
    (takeClaimService r s).link.progress = s.link.progress ∧ (takeClaimService r s).link.answer = s.link.answer ∧
    (takeClaimService r s).link.holdNext = s.link.holdNext ∧ (takeClaimService r s).link.request = s.link.request ∧
    (takeClaimService r s).link.session = s.link.session ∧
    (takeClaimService r s).link.sessionTimer = s.link.sessionTimer ∧ (takeClaimService r s).win.ram = s.win.ram ∧
    (takeClaimService r s).win.slots = s.win.slots ∧ (takeClaimService r s).win.attention = s.win.attention ∧
    (takeClaimService r s).win.enable = s.win.enable ∧ (takeClaimService r s).win.capture = s.win.capture ∧
    (takeClaimService r s).win.faultCount = s.win.faultCount ∧
    (takeClaimService r s).win.softCause = s.win.softCause ∧ (takeClaimService r s).win.source = s.win.source ∧
    (takeClaimService r s).win.ops = s.win.ops ∧ (takeClaimService r s).win.adoption = s.win.adoption ∧
    (takeClaimService r s).win.lastTake = s.win.lastTake ∧ (takeClaimService r s).win.sdo = s.win.sdo ∧
    (takeClaimService r s).image = s.image ∧ (takeClaimService r s).pending = s.pending := by
  unfold takeClaimService
  split
  · simp
  · split <;> simp [setClaim]

@[simp] theorem giveClaimService_frame (r : Request) (s : State) :
    (giveClaimService r s).time = s.time ∧ (giveClaimService r s).sense = s.sense ∧
    (giveClaimService r s).pulse = s.pulse ∧ (giveClaimService r s).dist = s.dist ∧
    (giveClaimService r s).analog = s.analog ∧ (giveClaimService r s).door = s.door ∧
    (giveClaimService r s).warn = s.warn ∧ (giveClaimService r s).out.arbiter = s.out.arbiter ∧
    (giveClaimService r s).out.supervision = s.out.supervision ∧ (giveClaimService r s).faults = s.faults ∧
    (giveClaimService r s).store = s.store ∧ (giveClaimService r s).link.inFrame = s.link.inFrame ∧
    (giveClaimService r s).link.counter = s.link.counter ∧ (giveClaimService r s).link.shift = s.link.shift ∧
    (giveClaimService r s).link.kind = s.link.kind ∧ (giveClaimService r s).link.progress = s.link.progress ∧
    (giveClaimService r s).link.answer = s.link.answer ∧ (giveClaimService r s).link.holdNext = s.link.holdNext ∧
    (giveClaimService r s).link.request = s.link.request ∧ (giveClaimService r s).link.session = s.link.session ∧
    (giveClaimService r s).link.sessionTimer = s.link.sessionTimer ∧
    (giveClaimService r s).win.attention = s.win.attention ∧ (giveClaimService r s).win.enable = s.win.enable ∧
    (giveClaimService r s).win.capture = s.win.capture ∧ (giveClaimService r s).win.faultCount = s.win.faultCount ∧
    (giveClaimService r s).win.softCause = s.win.softCause ∧ (giveClaimService r s).win.source = s.win.source ∧
    (giveClaimService r s).win.adoption = s.win.adoption ∧ (giveClaimService r s).win.lastTake = s.win.lastTake ∧
    (giveClaimService r s).win.sdo = s.win.sdo ∧ (giveClaimService r s).image = s.image ∧
    (giveClaimService r s).pending = s.pending := by
  unfold giveClaimService
  split
  · simp
  · split <;> simp

end Sys2Proof.Proofs

/-! What a take hands on: a property that the plumbing of the takes keeps is kept by a request where its operation keeps
it. Each operation once, with the checks that it has passed where it acts. -/

namespace Sys2Proof.Machine

/-- The state that an operation leaves. -/
def Took.state : Took → State
  | .done _ _ s => s
  | .inFlight s => s

@[simp] theorem Took.state_done (r : Result) (d : Byte) (s : State) : (Took.done r d s).state = s := rfl

@[simp] theorem Took.state_inFlight (s : State) : (Took.inFlight s).state = s := rfl

end Sys2Proof.Machine

namespace Sys2Proof.Proofs

open Sys2Proof Sys2Proof.Machine Sys2Proof.Safety

/-- A property that the plumbing of the takes keeps: the take of a slot and of a buffered request, the completion of a
slot, a recorded operation and a reply. -/
structure Plumbed (P : State → Prop) : Prop where
  slot : ∀ t n s, P s → P (beginTake t n s)
  request : ∀ r s, P s → P (beginService r s)
  finish : ∀ n r d s, P s → P (finishSlot n r d s)
  record : ∀ k w s, P s → P (setWindowOp k w s)
  reply : ∀ r s, P s → P (setReply r s)

section Takes

variable {P : State → Prop} (p : Plumbed P) {s : State}

include p

theorem Plumbed.answer (r : Request) (x : Result) (d : List Byte) (h : P s) : P (answer r x d s) := p.reply _ s h

theorem Plumbed.slotTake {mine : Byte → Bool} {body : Fin 8 → State → State}
    (serves : ∀ t n, P (beginTake t n s) → P (body n (beginTake t n s))) (h : P s) :
    P (slotTake mine body s) := by
  unfold Machine.slotTake
  split
  · exact h
  · split
    · exact serves _ _ (p.slot _ _ s h)
    · exact h

theorem Plumbed.windowRequest {kind : Byte} {k : Operation} {op : Fin 8 → State → Took}
    (serves : ∀ t n, P (beginTake t n s) → P (op n (beginTake t n s)).state) (h : P s) :
    P (windowRequest kind k op s) := by
  refine p.slotTake (fun t n g => ?_) h
  have served := serves t n g
  unfold serveSlot
  split
  next e => exact p.finish _ _ _ _ (by simpa [e] using served)
  next e => exact p.record _ _ _ (by simpa [e] using served)

theorem Plumbed.linkTake {code : Byte} {body : Request → State → State}
    (serves : ∀ r, (code ≠ 1 → code ≠ 4 → (beginService r s).link.session = true) → P (beginService r s) →
      P (body r (beginService r s))) (h : P s) : P (linkTake code body s) := by
  unfold Machine.linkTake
  split
  next r _ =>
    have begun := p.request r s h
    split
    next named =>
      simp only [serve]
      split
      · exact p.answer _ _ _ begun
      · split
        · exact p.answer _ _ _ begun
        · exact serves r (fun _ _ => by simp_all) begun
    next => exact h
  next => exact h

theorem Plumbed.linkRequest {code : Byte} {k : Operation} {op : Request → State → Took}
    (serves : ∀ r, P (beginService r s) → P (op r (beginService r s)).state) (h : P s) :
    P (linkRequest code k op s) := by
  refine p.linkTake (fun r _ g => ?_) h
  have served := serves r g
  unfold serveLink
  split
  next e => exact p.answer _ _ _ (by simpa [e] using served)
  next e => exact p.reply _ _ (by simpa [e] using served)

theorem Plumbed.linkTakeUnknown (h : P s) : P (linkTakeUnknown s) := by
  unfold Machine.linkTakeUnknown
  split
  · split
    · exact h
    · exact p.answer _ _ _ (p.request _ s h)
  · exact h

theorem Plumbed.unknownRequest (side : Side) (h : P s) : P (unknownRequest side s) := by
  unfold Machine.unknownRequest
  cases side with
  | window => exact p.slotTake (body := fun n s => finishSlot n .unknownKind 0 s) (fun t n g => p.finish _ _ _ _ g) h
  | workshop => exact p.linkTakeUnknown h

/-- A reading service answers and does no more. -/
theorem Plumbed.read {code : Byte} (read : Request → State → Result ⊕ List Byte) (h : P s) :
    P (Machine.linkTake code (fun r => answerRead (read r) r) s) := by
  refine p.linkTake (fun r _ g => ?_) h
  unfold answerRead
  split
  · exact p.answer _ _ _ g
  · exact p.answer _ _ _ g

end Takes

section Operations

variable {P : State → Prop} {s : State}

theorem clearOperation_keeps {side : Side} {a b : Byte} (h : P s) (empty : ∀ c, P (takeEmptyClear c s))
    (takes : ∀ c, s.faults.clear = none → P (takeClear side c s)) : P (clearOperation side a b s).state := by
  unfold clearOperation
  split
  · exact h
  · split
    · exact h
    · split
      · exact h
      · split
        · exact empty _
        · exact takes _ (by simpa using ‹¬ s.faults.clear.isSome = true›)

theorem presetOperation_keeps {side : Side} {value : List Byte} (h : P s)
    (takes : ∀ v, presetCheck side (word40 value) s = .inl v → P (takePreset side v s)) :
    P (presetOperation side value s).state := by
  unfold presetOperation
  split
  · exact h
  · exact takes _ ‹_›

theorem kFactorOperation_keeps {side : Side} {k : Nat} (h : P s)
    (takes : kFactorCheck side k s = none → P (takeKFactor side k s)) : P (kFactorOperation side k s).state := by
  unfold kFactorOperation
  split
  · exact h
  · exact takes ‹_›

theorem testOperation_keeps {side : Side} {a b : Byte} (h : P s)
    (starts : ∀ p, holdsClaim s side .outputs = true → testConditions s = true → s.out.test = none →
      P (startTest side p b.toNat s)) : P (testOperation side a b s).state := by
  unfold testOperation
  split
  · exact h
  · split
    · exact h
    · split
      · exact h
      · split
        · exact h
        · split
          · exact h
          · exact starts _ (by simp_all) (by simp_all) (by simp_all)

theorem stopOperation_keeps {side : Side} (h : P s) (stops : P (abortTest .stopped s)) :
    P (stopOperation side s).state := by
  unfold stopOperation
  split
  · exact h
  · split
    · exact h
    · exact stops

theorem ackOperation_keeps {a : Byte} {m : List Byte} (h : P s)
    (acks : ∀ l : List (Fin 48), P (l.foldl acknowledge s)) : P (ackOperation a m s).state := by
  unfold ackOperation
  split
  · rw [Took.state_done]
    exact acks _
  · split
    · rw [Took.state_done]
      exact acks _
    · exact h

theorem tripOperation_keeps {a b : Byte} (h : P s) (takes : ∀ x y, P (takeTrips x y s)) :
    P (tripOperation a b s).state := by
  unfold tripOperation
  split
  · exact takes _ _
  · exact h

theorem adoptOperation_keeps (h : P s) (takes : adoptCheck s = none → P (takeAdoption s)) :
    P (adoptOperation s).state := by
  unfold adoptOperation
  split
  · exact h
  · exact takes ‹_›

end Operations

/-! ## Every command -/

/-- A property that every operation of the commands keeps, but for a full restart. What an operation has passed where
it acts is a hypothesis of its field. -/
structure Kept (P : State → Prop) : Prop where
  slot : ∀ t n s, P s → P (beginTake t n s)
  request : ∀ r s, P s → P (beginService r s)
  finish : ∀ n r d s, P s → P (finishSlot n r d s)
  record : ∀ k w s, P s → P (setWindowOp k w s)
  reply : ∀ r s, P s → P (setReply r s)
  clock : ∀ t s, P s → P (setNow t s)
  publish : ∀ f g b s, P s → P (publishAll f g b s)
  judge : ∀ s, P s → P (judgeAll s)
  sense : ∀ r b v s, P s → P (sensed r b v (atSense s))
  timer : ∀ s, P s → P (stepTimers (atStep s))
  mature : ∀ s, P s → P (takeMaturity s)
  lamps : ∀ s, P s → P (computeLamps (tickPeriod (atLamp s)))
  edge : ∀ x s, P s → P (edgeLamps x (atEdge x s))
  gaugeClock : ∀ s, P s → P (atGauge s)
  dwell : ∀ s, P s → P (countDwell s)
  road : ∀ s, P s → P (evaluateRoad s)
  gauges : ∀ s, P s → P (countSweep (handOver (judgeAnalog (evaluateEngine s))))
  gaugeImage : ∀ s, P s → P (publishGauge s)
  pulse : ∀ s, P s → P (acceptPulseV s)
  engine : ∀ e n s, P s → P (setPulse { s.pulse with engineEdge := e, engineCount := n } s)
  hold : ∀ n s, P s → P (holdExpiry n s)
  watch : ∀ s, P s → P (watchExpiry s)
  travel : ∀ n s, P s → P (travelExpiry n s)
  conflict : ∀ n s, P s → P (conflictExpiry n s)
  onset : ∀ w s, P s → P (onsetExpiry w s)
  arbiter : ∀ a s, P s → P (setArbiter a s)
  duration : ∀ s, P s → P (endTest none s)
  walk : ∀ s, P s → P (walkStep s)
  buzzer : ∀ s, P s → P (buzzerHalf s)
  period : ∀ s, P s → P (periodExpiry s)
  hrst : ∀ s, P s → P (hrstExpiry s)
  job : ∀ s, P s → P (tryJob s)
  page : ∀ s, P s → P (tryPage s)
  complete : ∀ j b s, s.store.job = some j → P s → P (completePage j b s)
  requestFrame : ∀ o c b s, P s → P (requestClocks o c b s)
  fetchFrame : ∀ h a n s, P s → P (fetchClocks h a n s)
  mark : ∀ s, P s → P (takeMarkClose s)
  held : ∀ s, P s → P (holdTimerEnd s)
  opens : ∀ s, P s → P (openLink s)
  closes : ∀ s, P s → P (closeLink s)
  takesClaim : ∀ r s, s.link.session = true → P s → P (takeClaimService r s)
  givesClaim : ∀ r s, P s → P (giveClaimService r s)
  adopts : ∀ s, adoptCheck s = none → P s → P (takeAdoption s)
  acknowledges : ∀ s w, P s → P (acknowledge s w)
  trips : ∀ x y s, P s → P (takeTrips x y s)
  clearsNone : ∀ c s, P s → P (takeEmptyClear c s)
  clears : ∀ x c s, s.faults.clear = none → P s → P (takeClear x c s)
  presets : ∀ x v w s, presetCheck x w s = .inl v → P s → P (takePreset x v s)
  kFactor : ∀ x k s, kFactorCheck x k s = none → P s → P (takeKFactor x k s)
  starts : ∀ x p n s, holdsClaim s x .outputs = true → testConditions s = true → s.out.test = none → P s →
    P (startTest x p n s)
  stops : ∀ s, P s → P (abortTest .stopped s)
  fetch : ∀ x i s, P s → P (fetchData x i s)
  claim : ∀ k v s, P s → P (claimWrite k v s)
  post : ∀ n s, P s → P (postSlot n s)
  free : ∀ n s, P s → P (freeSlot n s)
  attend : ∀ m s, P s → P (attentionSet m s)
  unattend : ∀ m s, P s → P (attentionClear m s)
  clearNotice : ∀ x v s, P s → P (clearNotices x v s)
  enable : ∀ x v s, P s → P (enableNotices x v s)
  supvPeriod : ∀ v s, P s → P (periodWrite v s)
  supvMode : ∀ v s, P s → P (modeWrite v s)
  supvRefresh : ∀ v s, P s → P (refreshWrite v s)
  softRestart : ∀ v s, P s → P (restartWrite v s)
  clearFault : ∀ o v s, P s → P (clearPortFault o v s)
  write : ∀ x i v s, P s → P (writeData x i v s)

section Commands

variable {P : State → Prop} (k : Kept P) {s : State}

include k

theorem Kept.plumbed : Plumbed P := ⟨k.slot, k.request, k.finish, k.record, k.reply⟩

theorem Kept.publishes (b : State) (h : P s) : P (Machine.publish b s) := k.publish false false b s h

theorem Kept.finishes (b : State) (h : P s) : P (Machine.finish b s) := k.publishes b (k.judge s h)

theorem Kept.settles (c : Bool) (b : State) (h : P s) : P (settle c b s) := by
  unfold settle
  split
  · exact k.finishes b h
  · exact k.publishes b h

theorem Kept.pageCompletion (b : Bool) (h : P s) : P (after (.pageCompletion b) s) := by
  have answer := (exec_eq (.pageCompletion b) s).symm.trans (show _ = execPageCompletion b s from rfl)
  by_cases idle : ∀ j since, s.store.job = some j → j.phase ≠ .inFlight since
  · rw [execPageCompletion_idle b idle] at answer
    injection answer with e
    rw [e]
    exact h
  · push Not at idle
    obtain ⟨j, since, job, phase⟩ := idle
    rw [execPageCompletion_inFlight b job phase] at answer
    injection answer with e
    rw [e]
    exact k.settles _ s (k.complete j b _ job (k.clock _ s h))

theorem Kept.clearRequest (x : Side) (h : P s) : P (clearRequest x s) := by
  have serves (a b : Byte) {t : State} (g : P t) : P (clearOperation x a b t).state :=
    clearOperation_keeps g (fun c => k.clearsNone c t g) fun c free => k.clears x c t free g
  cases x with
  | window => exact k.plumbed.windowRequest (fun _ _ g => serves _ _ g) h
  | workshop => exact k.plumbed.linkRequest (fun _ g => serves _ _ g) h

theorem Kept.presetRequest (x : Side) (h : P s) : P (presetRequest x s) := by
  have serves (v : List Byte) {t : State} (g : P t) : P (presetOperation x v t).state :=
    presetOperation_keeps g fun n passed => k.presets x n _ t passed g
  cases x with
  | window => exact k.plumbed.windowRequest (fun _ _ g => serves _ g) h
  | workshop => exact k.plumbed.linkRequest (fun _ g => serves _ g) h

theorem Kept.kFactorOperation (x : Side) (n : Nat) (h : P s) : P (Machine.kFactorOperation x n s).state :=
  kFactorOperation_keeps h fun passed => k.kFactor x n s passed h

theorem Kept.testRequest (x : Side) (h : P s) : P (testRequest x s) := by
  have serves (a b : Byte) {t : State} (g : P t) : P (testOperation x a b t).state :=
    testOperation_keeps g fun p claim conditions idle => k.starts x p _ t claim conditions idle g
  cases x with
  | window => exact k.plumbed.windowRequest (fun _ _ g => serves _ _ g) h
  | workshop => exact k.plumbed.linkRequest (fun _ g => serves _ _ g) h

theorem Kept.stopRequest (x : Side) (h : P s) : P (stopRequest x s) := by
  have serves {t : State} (g : P t) : P (stopOperation x t).state := stopOperation_keeps g (k.stops t g)
  cases x with
  | window => exact k.plumbed.windowRequest (fun _ _ g => serves g) h
  | workshop => exact k.plumbed.linkRequest (fun _ g => serves g) h

theorem Kept.acknowledgesAll (l : List (Fin 48)) (h : P s) : P (l.foldl acknowledge s) := by
  induction l generalizing s with
  | nil => exact h
  | cons w l ih => exact ih (k.acknowledges s w h)

/-- A property that every operation keeps is kept by every command but a full restart. -/
theorem Kept.command (c : Instr) (restart : c = .fullRestart → P (restart s)) (h : P s) : P (after c s) := by
  have p := k.plumbed
  cases c
  case fullRestart => exact restart rfl
  case senseSample r b v => exact k.sense r b v s h
  case timerStep => exact k.publishes s (k.timer s h)
  case standstillMature => exact k.publishes s (k.mature s h)
  case lampRefresh => exact k.publishes s (k.lamps s h)
  case phaseEdge x => exact k.edge x s h
  case gaugeCycle =>
    have dwelt : P (dwellEvent (decide (s.time.lastGauge = 0)) (atGauge s)) :=
      k.publish _ _ _ _ (k.dwell _ (k.gaugeClock s h))
    have driven : P (roadEvent (dwellEvent (decide (s.time.lastGauge = 0)) (atGauge s))) :=
      k.finishes _ (k.road _ dwelt)
    exact k.gaugeImage _ (k.finishes _ (k.gauges _ driven))
  case pulseVEdge gap =>
    show P (if _ then _ else _)
    split
    · exact k.pulse _ (k.clock _ s h)
    · exact k.clock _ s h
  case pulseEEdge gap =>
    show P (if _ then _ else _)
    split
    · exact k.engine _ _ _ (k.clock _ s h)
    · exact k.clock _ s h
  case holdTimerExpiry n => exact k.settles _ s (k.hold n s h)
  case lowSupplyWatchExpiry => exact k.watch s h
  case travelTimerExpiry n => exact k.settles _ s (k.travel n s h)
  case conflictTimerExpiry n => exact k.settles _ s (k.conflict n s h)
  case onsetTimerExpiry w => exact k.publishes s (k.onset w s h)
  case repeatHalfExpiry => exact k.publishes s (k.arbiter _ s h)
  case burstIntervalExpiry => exact k.publishes s (k.arbiter _ s h)
  case testDurationExpiry =>
    refine k.publishes s ?_
    split
    · exact k.duration s h
    · exact h
  case lampWalkStep => exact k.publishes s (k.walk s h)
  case testBuzzerHalf => exact k.publishes s (k.buzzer s h)
  case supvPeriodExpiry => exact k.settles _ s (k.period s h)
  case hrstnTimerExpiry => exact k.hrst s h
  case jobStart => exact k.job s h
  case pageStart => exact k.page s h
  case pageCompletion b => exact k.pageCompletion b h
  case requestFrame o c b => exact k.requestFrame o c b s h
  case fetchFrame x a n => exact k.fetchFrame x a n s h
  case markClose => exact k.mark s h
  case linkHoldExpiry => exact k.held s h
  case sessionTimerExpiry =>
    refine k.publishes s ?_
    unfold sessionTimerEnd
    split
    · exact k.closes s h
    · exact h
  case openSession => exact p.linkTake (fun r _ g => p.answer _ _ _ (k.opens _ g)) h
  case closeSession => exact k.publishes s (p.linkTake (fun r _ g => p.answer _ _ _ (k.closes _ g)) h)
  case keepSession => exact p.linkTake (fun r _ g => p.answer _ _ _ g) h
  case readIdent => exact p.read (fun _ s => .inr (identData s)) h
  case readChannels => exact p.read (fun _ s => .inr (channelsData s)) h
  case readSense => exact p.read (fun _ s => .inr (senseData s)) h
  case readDoors => exact p.read (fun _ s => .inr (doorsData s)) h
  case readWarnings => exact p.read (fun r => warningsData (param r.payload 1).toNat) h
  case readFaultSummary => exact p.read (fun _ s => .inr (summaryData s)) h
  case readFault => exact p.read (fun r => faultData (param r.payload 1).toNat) h
  case readOdometer => exact p.read (fun _ s => .inr (odometerData s)) h
  case readKFactor => exact p.read (fun _ s => .inr (kFactorData s)) h
  case readStopJournal => exact p.read (fun r => journalData (param r.payload 1).toNat) h
  case takeClaim => exact p.linkTake (fun r session g => k.takesClaim r _ (session (by decide) (by decide)) g) h
  case giveClaim => exact k.publishes s (p.linkTake (fun r _ g => k.givesClaim r _ g) h)
  case writeKFactor => exact k.settles _ s (p.linkRequest (fun _ g => k.kFactorOperation _ _ g) h)
  case unknownKind x => exact p.unknownRequest x h
  case adoptConfig =>
    exact k.publish _ _ _ _ (p.windowRequest (fun _ _ g => adoptOperation_keeps g fun passed => k.adopts _ passed g) h)
  case ackWarnings =>
    exact k.publishes s (p.windowRequest (fun _ _ g => ackOperation_keeps g fun l => k.acknowledgesAll l g) h)
  case tripControl =>
    show P (tripRequest s)
    exact p.windowRequest (fun _ _ g => tripOperation_keeps g fun x y => k.trips x y _ g) h
  case clearFaults x => exact k.publishes s (k.clearRequest x h)
  case presetOdometer x => exact k.presetRequest x h
  case setKFactor => exact k.settles _ s (p.windowRequest (fun _ _ g => k.kFactorOperation _ _ g) h)
  case outputTest x => exact k.publishes s (k.testRequest x h)
  case outputTestStop x => exact k.publishes s (k.stopRequest x h)
  case claimTakeRead x i => exact k.fetch x i s h
  case claimReleaseWrite c v => exact k.publishes s (k.claim c v s h)
  case slotPost n => exact k.post n s h
  case slotFree n => exact k.free n s h
  case attnSet m => exact k.attend m s h
  case attnClear m => exact k.unattend m s h
  case noticeClear x v => exact k.clearNotice x v s h
  case noticeEnable x v => exact k.enable x v s h
  case supvControlPeriod v => exact k.supvPeriod v s h
  case supvControlMode v => exact k.supvMode v s h
  case supvRefresh v => exact k.settles _ s (k.supvRefresh v s h)
  case softRestart v => exact k.settles _ s (k.softRestart v s h)
  case portFaultClear o v => exact k.clearFault o v s h
  case windowWrite x i v => exact k.settles _ s (k.write x i v s h)

end Commands

/-- A law that does not read the queue and that every operation and a full restart keep is kept by every step. -/
theorem Kept.step {P : State → Prop} (k : Kept P) (queue : ∀ s q, P s → P { s with pending := q })
    (restart : ∀ s, P s → P (restart s)) (s t : State) (h : P s) (stepped : step s = .next t) : P t :=
  step_keeps queue (fun s t => k.clock t s) (fun c s h => k.command c (fun _ => restart s h) h) s t h stepped

end Sys2Proof.Proofs

/-! What every operation keeps of window RAM, of the job queue and of the fault records: RAM in its canonical form, one
job for an object, one STORED record for a code, and an overflow count of at most 255. One lemma for each operation that
writes one of the four, built from those of the operations it is made of. -/

namespace Sys2Proof.Proofs

open Sys2Proof Sys2Proof.Machine Sys2Proof.Safety

/-! ## The relation -/

/-- No two places hold STORED records of one code (R129). -/
def UniqueCodes (places : Vector Place 40) : Prop :=
  ∀ (i j : Fin 40) (p q : FaultRecord),
    places[i] = .stored p → places[j] = .stored q → p.code = q.code → i = j

theorem recordLaw_iff (s : State) : recordLaw s ↔ UniqueCodes s.faults.places := Iff.rfl

/-- What an operation from `s` to `t` keeps. -/
structure Keeps (s t : State) : Prop where
  ram : s.win.ram.wf → t.win.ram.wf
  jobs : s.store.queue.Nodup → t.store.queue.Nodup
  records : UniqueCodes s.faults.places → UniqueCodes t.faults.places
  overflow : s.faults.overflow ≤ 255 → t.faults.overflow ≤ 255

section Relation

variable {s t u : State}

theorem Keeps.refl : Keeps s s := ⟨id, id, id, id⟩

theorem Keeps.trans (h : Keeps s t) (g : Keeps t u) : Keeps s u :=
  ⟨g.ram ∘ h.ram, g.jobs ∘ h.jobs, g.records ∘ h.records, g.overflow ∘ h.overflow⟩

/-- An operation that writes none of the four. -/
theorem Keeps.same (h : Keeps s t)
    (e : u.win.ram = t.win.ram ∧ u.store.queue = t.store.queue ∧ u.faults.places = t.faults.places ∧
      u.faults.overflow = t.faults.overflow) : Keeps s u := by
  obtain ⟨ram, queue, places, overflow⟩ := e
  refine h.trans ⟨?_, ?_, ?_, ?_⟩ <;> simp [*]

/-- An operation that writes window RAM alone of the four. -/
theorem Keeps.write (h : Keeps s t) (ram : t.win.ram.wf → u.win.ram.wf)
    (e : u.store.queue = t.store.queue ∧ u.faults.places = t.faults.places ∧
      u.faults.overflow = t.faults.overflow) : Keeps s u := by
  obtain ⟨queue, places, overflow⟩ := e
  refine h.trans ⟨ram, ?_, ?_, ?_⟩ <;> simp [*]

/-- An operation that writes the queue of jobs alone of the four. -/
theorem Keeps.queued (h : Keeps s t) (jobs : t.store.queue.Nodup → u.store.queue.Nodup)
    (e : u.win.ram = t.win.ram ∧ u.faults.places = t.faults.places ∧
      u.faults.overflow = t.faults.overflow) : Keeps s u := by
  obtain ⟨ram, places, overflow⟩ := e
  refine h.trans ⟨?_, jobs, ?_, ?_⟩ <;> simp [*]

theorem Keeps.ite {c : Prop} [Decidable c] (yes : Keeps s t) (no : Keeps s u) : Keeps s (if c then t else u) := by
  split
  · exact yes
  · exact no

/-- What each step of a fold keeps, the fold keeps. -/
theorem Keeps.fold {β : Type} {f : State → β → State} (each : ∀ {t : State} (b : β), Keeps s t → Keeps s (f t b))
    (l : List β) (h : Keeps s t) : Keeps s (l.foldl f t) := by
  induction l generalizing t with
  | nil => exact h
  | cons b l ih => exact ih (each b h)

/-! ## Shared operations -/

theorem enqueue_keeps (o : Object) (h : Keeps s t) : Keeps s (enqueue o t) := by
  refine h.queued (fun nodup => ?_) (by simp)
  unfold enqueue
  split
  · exact nodup
  · simpa [List.nodup_append, nodup] using fun a ha e => by simp_all

theorem rewriteImage_keeps (base size : Nat) (content : List Byte) (h : Keeps s t) :
    Keeps s (rewriteImage base size content t) :=
  h.write (rewriteImage_wf base size content t) (by simp)

theorem ramWrite_keeps (a : Nat) (v : Byte) (h : Keeps s t) : Keeps s (ramWrite a v t) :=
  h.write (Mem.write_wf _ a v) (by simp)

theorem setNotice_keeps (n : Notice) (h : Keeps s t) : Keeps s (setNotice n t) := h.same (by simp)

theorem setSlotResult_keeps (n : Fin 8) (r d : Byte) (h : Keeps s t) : Keeps s (setSlotResult n r d t) :=
  ramWrite_keeps _ _ (ramWrite_keeps _ _ h)

theorem finishSlot_keeps (n : Fin 8) (r : Result) (d : Byte) (h : Keeps s t) : Keeps s (finishSlot n r d t) :=
  (setSlotResult_keeps n r.code d h).same (by simp [finishSlot])

theorem deliver_keeps (k : Operation) (x : Side) (r : Result) (d : Byte) (l : List Byte) (h : Keeps s t) :
    Keeps s (deliver k x r d l t) := by
  cases x with
  | workshop => exact h.same (by simp [deliver])
  | window =>
    simp only [deliver, deliverWindow]
    split
    next n _ => exact (finishSlot_keeps n r d h).same (by simp)
    next => exact h.same (by simp)

/-! ## Images -/

theorem publishSense_keeps (b : State) (h : Keeps s t) : Keeps s (publishSense b t) := by
  unfold publishSense
  split
  · exact h
  · exact rewriteImage_keeps _ _ _ h

theorem publishDoor_keeps (f : Bool) (b : State) (h : Keeps s t) : Keeps s (publishDoor f b t) := by
  unfold publishDoor
  split
  · exact setNotice_keeps _ (rewriteImage_keeps _ _ _ h)
  · split
    · exact rewriteImage_keeps _ _ _ h
    · exact h

theorem publishWarnings_keeps (f : Bool) (b : State) (h : Keeps s t) : Keeps s (publishWarnings f b t) := by
  unfold publishWarnings
  split
  · exact setNotice_keeps _ (rewriteImage_keeps _ _ _ h)
  · split
    · exact rewriteImage_keeps _ _ _ h
    · exact h

theorem publishJournal_keeps (b : State) (h : Keeps s t) : Keeps s (publishJournal b t) := by
  unfold publishJournal
  split
  · exact h
  · exact rewriteImage_keeps _ _ _ h

theorem publishFaults_keeps (f : Bool) (b : State) (h : Keeps s t) : Keeps s (publishFaults f b t) := by
  unfold publishFaults
  split
  · exact setNotice_keeps _ (rewriteImage_keeps _ _ _ h)
  · exact h

theorem publishOutput_keeps (b : State) (h : Keeps s t) : Keeps s (publishOutput b t) := by
  unfold publishOutput
  split
  · exact h
  · exact rewriteImage_keeps _ _ _ h

theorem publishAll_keeps (f g : Bool) (b : State) (h : Keeps s t) : Keeps s (publishAll f g b t) :=
  publishOutput_keeps b (publishFaults_keeps _ b (publishJournal_keeps b (publishWarnings_keeps f b
    (publishDoor_keeps g b (publishSense_keeps b h)))))

theorem publish_keeps (b : State) (h : Keeps s t) : Keeps s (publish b t) := publishAll_keeps false false b h

theorem publishGauge_keeps (h : Keeps s t) : Keeps s (publishGauge t) :=
  setNotice_keeps _ (rewriteImage_keeps _ _ _ h)

/-! ## Output Unit -/

theorem endTest_keeps (r : Option AbortReason) (h : Keeps s t) : Keeps s (endTest r t) := by
  unfold endTest
  split
  · exact h
  · split
    · exact deliver_keeps _ _ _ _ _ (h.same (by simp))
    · exact deliver_keeps _ _ _ _ _ (h.same (by simp))

theorem abortTest_keeps (r : AbortReason) (h : Keeps s t) : Keeps s (abortTest r t) := endTest_keeps (some r) h

theorem abortTestOf_keeps (x : Side) (r : AbortReason) (h : Keeps s t) : Keeps s (abortTestOf x r t) := by
  unfold abortTestOf
  split
  · split
    · exact abortTest_keeps r h
    · exact h
  · exact h

theorem enterFallback_keeps (h : Keeps s t) : Keeps s (enterFallback t) :=
  setNotice_keeps _ (abortTestOf_keeps _ _ (h.same (by simp)))

theorem refreshFault_keeps (h : Keeps s t) : Keeps s (refreshFault t) := by
  simp only [refreshFault]
  split
  case h_3 => exact enterFallback_keeps h
  all_goals exact h.same (by (try split) <;> simp)

theorem refreshWrite_keeps (v : Byte) (h : Keeps s t) : Keeps s (refreshWrite v t) := by
  unfold refreshWrite
  split
  · exact h.same (by simp)
  · exact refreshFault_keeps h

theorem periodExpiry_keeps (h : Keeps s t) : Keeps s (periodExpiry t) := by
  simp only [periodExpiry]
  split
  · split
    case h_3 => exact enterFallback_keeps h
    all_goals exact h.same (by simp)
  · exact h

/-! ## Fault Memory -/

/-- A place of no STORED record comes in. -/
theorem UniqueCodes.set_unstored {v : Vector Place 40} (h : UniqueCodes v) (i : Fin 40) {p : Place}
    (unstored : ∀ r, p ≠ .stored r) : UniqueCodes (v.set i.val p i.isLt) := by
  intro j k q r hj hk code
  have at_ (m : Fin 40) (x : FaultRecord) (hm : (v.set i.val p i.isLt)[m] = .stored x) : v[m] = .stored x := by
    simp only [Fin.getElem_fin, Vector.getElem_set] at hm ⊢
    split at hm
    · exact absurd hm (unstored x)
    · exact hm
  exact h j k q r (at_ j q hj) (at_ k r hk) code

/-- A STORED record comes in of a code that no other place has. -/
theorem UniqueCodes.set_stored {v : Vector Place 40} (h : UniqueCodes v) (i : Fin 40) (r : FaultRecord)
    (alone : ∀ (j : Fin 40) (q : FaultRecord), v[j] = .stored q → q.code = r.code → j = i) :
    UniqueCodes (v.set i.val (.stored r) i.isLt) := by
  intro j k p q hj hk code
  have at_ (m : Fin 40) (x : FaultRecord) (hm : (v.set i.val (.stored r) i.isLt)[m] = .stored x) :
      (m = i ∧ x = r) ∨ (m ≠ i ∧ v[m] = .stored x) := by
    simp only [Fin.getElem_fin, Vector.getElem_set] at hm
    split at hm
    · exact .inl ⟨Fin.ext (by omega), by simpa using hm.symm⟩
    · exact .inr ⟨fun e => by omega, hm⟩
  obtain ⟨rfl, rfl⟩ | ⟨_, ej⟩ := at_ j p hj <;> obtain ⟨rfl, rfl⟩ | ⟨_, ek⟩ := at_ k q hk
  · rfl
  · exact (alone k q ek code.symm).symm
  · exact alone j p ej code
  · exact h j k p q ej ek code

theorem setPlace_keeps (i : Fin 40) (p : Place) (h : Keeps s t)
    (codes : UniqueCodes t.faults.places → UniqueCodes (t.faults.places.set i.val p i.isLt)) :
    Keeps s (setPlace i p t) := by
  unfold setPlace
  split
  · exact h
  · exact enqueue_keeps _ (h.trans ⟨id, id, codes, id⟩)

theorem noteView_keeps (h : Keeps s t) : Keeps s (noteView t) := h.same (by simp [noteView])

theorem headerJob_keeps (b : State) (h : Keeps s t) : Keeps s (headerJob b t) := by
  unfold headerJob
  split
  · exact h
  · exact enqueue_keeps _ h

theorem placeOf_some {c : Fin 48} {i : Fin 40} (h : placeOf t c = some i) :
    ∃ r, t.faults.places[i] = .stored r ∧ r.code = c := by
  have holds := List.find?_some h
  unfold Place.holds at holds
  split at holds
  · exact ⟨_, ‹_›, by simpa using holds⟩
  · cases holds

theorem placeOf_none (c : Fin 48) : placeOf t c = none ↔ unrecorded t c := by
  simp only [placeOf, List.find?_eq_none, List.mem_finRange, forall_const, unrecorded]
  refine forall_congr' fun i => ?_
  unfold Place.holds
  split
  next r e => simp [e]
  next other => simpa using fun q e => absurd e (other q)

theorem makeRecord_keeps (c : Fin 48) (x : Byte) (h : Keeps s t) (new : unrecorded t c) :
    Keeps s (makeRecord c x t) := by
  have codes (i : Fin 40) (u : UniqueCodes t.faults.places) :
      UniqueCodes (t.faults.places.set i.val (.stored (newRecord c x t)) i.isLt) :=
    u.set_stored i _ fun j q e same => absurd same (new j q e)
  unfold makeRecord
  split
  · exact setPlace_keeps _ _ h (codes _)
  · split
    · exact setPlace_keeps _ _ h (codes _)
    · exact h.trans ⟨id, id, id, fun _ => Nat.min_le_right _ _⟩

theorem takeOccurrence_keeps (c : Fin 48) (x : Byte) (h : Keeps s t) : Keeps s (takeOccurrence c x t) := by
  unfold takeOccurrence
  split
  next i _ =>
    split
    next r e =>
      exact setPlace_keeps _ _ h fun u => u.set_stored i _ fun j q at_ same => u j i q r at_ e same
    next => exact h
  next none => exact makeRecord_keeps c x h ((placeOf_none c).mp none)

theorem occurrence_keeps (c : Fin 48) (x : Byte) (h : Keeps s t) : Keeps s (occurrence c x t) :=
  noteView_keeps (headerJob_keeps t (takeOccurrence_keeps c x h))

/-- A record that stays under its code. -/
theorem restored_keeps {i : Fin 40} {r : FaultRecord} (q : FaultRecord) (h : Keeps s t)
    (e : t.faults.places[i] = .stored r) (code : q.code = r.code) : Keeps s (setPlace i (.stored q) t) :=
  setPlace_keeps _ _ h fun u => u.set_stored i _ fun j p at_ same => u j i p r at_ e (same.trans code)

/-- A place that becomes FREE or ERASING. -/
theorem unstored_keeps (i : Fin 40) {p : Place} (h : Keeps s t) (unstored : ∀ r, p ≠ .stored r) :
    Keeps s (setPlace i p t) := setPlace_keeps _ _ h fun u => u.set_unstored i unstored

theorem returnInactive_keeps (c : Fin 48) (h : Keeps s t) : Keeps s (returnInactive c t) := by
  unfold returnInactive
  split
  next i _ =>
    split
    next r e =>
      split
      · exact noteView_keeps (restored_keeps _ h e rfl)
      · exact h
    next => exact h
  next => exact h

theorem agePlace_keeps (i : Fin 40) (h : Keeps s t) : Keeps s (agePlace t i) := by
  unfold agePlace
  split
  next r e =>
    split
    · exact h
    · split
      · exact noteView_keeps (unstored_keeps i h (by simp))
      · exact noteView_keeps (restored_keeps _ h e rfl)
  next => exact h

theorem ageRecords_keeps (h : Keeps s t) : Keeps s (ageRecords t) :=
  headerJob_keeps t (Keeps.fold agePlace_keeps _ h)

theorem erasePlace_keeps (i : Fin 40) (h : Keeps s t) : Keeps s (erasePlace t i) := by
  unfold erasePlace
  split
  · exact unstored_keeps i h (by simp)
  · exact h

theorem reenterWarning_keeps (c : Option (Fin 48)) (w : Fin 48) (h : Keeps s t) :
    Keeps s (reenterWarning c t w) := by
  simp only [reenterWarning]
  split
  next chosen =>
    have new : unrecorded t w := (placeOf_none w).mp (by simp_all)
    exact headerJob_keeps t (makeRecord_keeps w _ h new)
  next => exact h

theorem reenter_keeps (c : Option (Fin 48)) (h : Keeps s t) : Keeps s (reenter c t) :=
  Keeps.fold (reenterWarning_keeps c) _ h

theorem freeErased_keeps (o : Object) (h : Keeps s t) : Keeps s (freeErased o t) := by
  unfold freeErased
  split
  next i =>
    split
    · exact noteView_keeps (h.trans ⟨id, id, fun u => u.set_unstored i (by simp), id⟩)
    · exact h
  next => exact h

theorem takeClear_keeps (x : Side) (c : Option (Fin 48)) (h : Keeps s t) : Keeps s (takeClear x c t) := by
  have erased : Keeps s ((chosenPlaces c t).foldl erasePlace t) := Keeps.fold erasePlace_keeps _ h
  have counted : Keeps s (if c.isNone then
      { (chosenPlaces c t).foldl erasePlace t with
        faults := { ((chosenPlaces c t).foldl erasePlace t).faults with overflow := 0 } }
      else (chosenPlaces c t).foldl erasePlace t) := by
    split
    · exact erased.trans ⟨id, id, id, fun _ => Nat.zero_le _⟩
    · exact erased
  exact noteView_keeps ((enqueue_keeps .header counted).same (by simp [setClear]))

theorem clearJobEnd_keeps (o : Object) (b : Bool) (h : Keeps s t) : Keeps s (clearJobEnd o b t) := by
  have cleared (c : Option Clear) : Keeps s (setClear c (freeErased o t)) :=
    (freeErased_keeps o h).same (by simp [setClear])
  simp only [clearJobEnd]
  split
  · exact h
  · split
    · split
      · exact deliver_keeps _ _ _ _ _ (noteView_keeps (reenter_keeps _ (cleared none)))
      · exact cleared _
    · exact h

/-! ## Warning Unit -/

theorem onset_keeps (w : Fin 48) (h : Keeps s t) : Keeps s (onset w t) := by
  have entered : Keeps s (onsetBuzz (warningDef t.image w) (enterList w t)) := h.same (by simp)
  have recorded : Keeps s (if (warningDef t.image w).record then
      occurrence w (warningDef t.image w).code (onsetBuzz (warningDef t.image w) (enterList w t))
      else onsetBuzz (warningDef t.image w) (enterList w t)) := by
    split
    · exact occurrence_keeps _ _ entered
    · exact entered
  simp only [onset]
  split
  · exact abortTest_keeps _ recorded
  · exact recorded
  · exact recorded

theorem leaveList_keeps (w : Fin 48) (h : Keeps s t) : Keeps s (leaveList w t) := by
  simp only [leaveList]
  split
  · exact returnInactive_keeps w (h.same (by simp [setList, setWarning]))
  · exact h.same (by simp [setList, setWarning])

theorem restate_keeps (w : Fin 48) (x : WarnState) (h : Keeps s t) : Keeps s (restate w x t) := h.same (by simp)

theorem setWarning_keeps (w : Fin 48) (x : Warning) (h : Keeps s t) : Keeps s (setWarning w x t) :=
  h.same (by simp [setWarning])

theorem moveWarning_keeps (w : Fin 48) (d : WarningDef) (c : Bool) (h : Keeps s t) :
    Keeps s (moveWarning w d c t) := by
  simp only [moveWarning]
  split
  case h_1 => exact Keeps.ite (Keeps.ite (onset_keeps w h) (setWarning_keeps _ _ h)) h
  case h_2 => exact Keeps.ite h (setWarning_keeps _ _ h)
  case h_3 => exact Keeps.ite h (Keeps.ite (restate_keeps _ _ h) (leaveList_keeps _ h))
  case h_4 => exact Keeps.ite h (leaveList_keeps _ h)
  case h_5 => exact Keeps.ite (onset_keeps w h) h

theorem judgeWarning_keeps (w : Fin 48) (h : Keeps s t) : Keeps s (judgeWarning t w) := by
  simp only [judgeWarning]
  split
  · exact moveWarning_keeps _ _ _ (setWarning_keeps _ _ h)
  · exact h

theorem judgeAll_keeps (h : Keeps s t) : Keeps s (judgeAll t) := Keeps.fold judgeWarning_keeps _ h

theorem finish_keeps (b : State) (h : Keeps s t) : Keeps s (finish b t) := publish_keeps b (judgeAll_keeps h)

theorem settle_keeps (c : Bool) (b : State) (h : Keeps s t) : Keeps s (settle c b t) := by
  unfold settle
  split
  · exact finish_keeps b h
  · exact publish_keeps b h

theorem onsetExpiry_keeps (w : Fin 48) (h : Keeps s t) : Keeps s (onsetExpiry w t) := by
  simp only [onsetExpiry]
  split
  · exact onset_keeps w h
  · exact h

theorem acknowledge_keeps (w : Fin 48) (h : Keeps s t) : Keeps s (acknowledge t w) := by
  unfold acknowledge
  split
  · exact restate_keeps _ _ h
  · exact leaveList_keeps _ h
  all_goals exact h

theorem pressAck_keeps (h : Keeps s t) : Keeps s (pressAck t) := by
  unfold pressAck
  split
  · exact acknowledge_keeps _ h
  · exact h

theorem clearWarnings_keeps (b : Mem) (h : Keeps s t) : Keeps s (clearWarnings b t) := by
  have returned : Keeps s (t.warn.list.foldl (fun s w =>
      if (warningDef b w).record then returnInactive w s else s) t) := by
    refine Keeps.fold (fun w g => ?_) _ h
    split
    · exact returnInactive_keeps w g
    · exact g
  exact returned.same (by simp [clearWarnings])

end Relation

end Sys2Proof.Proofs

/-! What the blocks and the commands keep of window RAM, of the job queue and of the fault records, and so the storage
and record laws at every step. -/

namespace Sys2Proof.Proofs

open Sys2Proof Sys2Proof.Machine Sys2Proof.Safety

section Blocks

variable {s t u : State}

/-! ## Motion and lines -/

theorem handMotion_keeps (m : Motion) (h : Keeps s t) : Keeps s (handMotion m t) := by
  have doors : Keeps s (doorMotion t) := h.same (by simp)
  exact Keeps.ite (abortTest_keeps _ (doors.same (by simp))) doors

theorem setMotion_keeps (m : Motion) (h : Keeps s t) : Keeps s (setMotion m t) := by
  unfold setMotion
  exact Keeps.ite h (handMotion_keeps _ (h.same (by simp [setPulse])))

theorem setPulse_keeps (p : PulseUnit) (h : Keeps s t) : Keeps s (setPulse p t) := h.same (by simp [setPulse])

theorem sourceLost_keeps (h : Keeps s t) : Keeps s (sourceLost t) :=
  (setMotion_keeps (proxyMotion t) (setPulse_keeps t.pulse.noSpeed h)).same (by simp [sourceLost])

theorem sourceReturn_keeps (h : Keeps s t) : Keeps s (sourceReturn t) :=
  (setMotion_keeps .unknown (setPulse_keeps { t.pulse with
    standstillAt := none, reference := none, count := 0, lastEdge := stampOf t.time.now } h)).same
    (by simp [sourceReturn])

theorem sampleWire_keeps (b : Bool) (h : Keeps s t) : Keeps s (sampleWire b t) := by
  simp only [sampleWire]
  exact Keeps.ite (sourceLost_keeps (setPulse_keeps _ h))
    (Keeps.ite (sourceReturn_keeps (setPulse_keeps _ h)) (setPulse_keeps _ h))

theorem brakeProxy_keeps (h : Keeps s t) : Keeps s (brakeProxy t) := by
  unfold brakeProxy
  exact Keeps.ite h (setMotion_keeps _ h)

theorem takeK_keeps (k : Nat) (h : Keeps s t) : Keeps s (takeK k t) := by
  simp only [takeK]
  exact Keeps.ite (sourceReturn_keeps (setPulse_keeps _ h)) (setPulse_keeps _ h)

theorem evaluateRoad_keeps (h : Keeps s t) : Keeps s (evaluateRoad t) := by
  simp only [evaluateRoad]
  split
  · exact setMotion_keeps _ (setPulse_keeps _ h)
  · exact setPulse_keeps _ h

theorem saveTrigger_keeps (h : Keeps s t) : Keeps s (saveTrigger t) :=
  enqueue_keeps _ (enqueue_keeps _ (enqueue_keeps _ (h.same (by simp [setDist]))))

theorem ignitionChange_keeps (b : Bool) (h : Keeps s t) : Keeps s (ignitionChange b t) := by
  have noticed := setNotice_keeps .ignition h
  have on : Keeps s (doorIgnition (ageRecords (setNotice .ignition t))) :=
    (ageRecords_keeps noticed).same (by simp)
  have off : Keeps s (doorIgnition (saveTrigger (setNotice .ignition t))) :=
    (saveTrigger_keeps noticed).same (by simp)
  exact Keeps.ite on ((abortTest_keeps .ignitionOff off).same (by simp))

theorem brakeConsumers_keeps (x : LineState) (h : Keeps s t) : Keeps s (brakeConsumers x t) := by
  have judged : Keeps s (judgePermit t) := h.same (by simp)
  exact Keeps.ite (abortTest_keeps _ judged) judged

theorem deliverChange_keeps (role : Role) (old new : LineState) (h : Keeps s t) :
    Keeps s (deliverChange role old new t) := by
  unfold deliverChange
  cases role with
  | ignition => exact Keeps.ite h (ignitionChange_keeps _ h)
  | parkingBrake => exact brakeConsumers_keeps _ (brakeProxy_keeps h)
  | ackButton => exact Keeps.ite (pressAck_keeps h) h
  | stopRequest => exact Keeps.ite (h.same (by simp)) h
  | _ => exact h.same (by simp)

theorem deliverAdopted_keeps (role : Role) (old new : LineState) (h : Keeps s t) :
    Keeps s (deliverAdopted role old new t) := by
  unfold deliverAdopted
  exact Keeps.ite (brakeConsumers_keeps _ h) (deliverChange_keeps _ _ _ h)

theorem lineEvent_keeps (b : Vector Line 32) (n : Fin 32) (h : Keeps s t) : Keeps s (lineEvent b t n) := by
  unfold lineEvent
  exact Keeps.ite h (finish_keeps t (Keeps.ite h (deliverChange_keeps _ _ _ h)))

theorem takeLines_keeps (r : Vector Sample 32) (h : Keeps s t) : Keeps s (takeLines r t) :=
  Keeps.fold (lineEvent_keeps t.sense.lines) _ (publishSense_keeps t (h.same (by simp)))

theorem wireEvent_keeps (b : Bool) (h : Keeps s t) : Keeps s (wireEvent b t) :=
  settle_keeps _ t (sampleWire_keeps b h)

theorem sensed_keeps (r : Vector Sample 32) (b : Bool) (v : Vector Sample 6) (h : Keeps s t) :
    Keeps s (sensed r b v t) := (wireEvent_keeps b (takeLines_keeps r h)).same (by simp [sensed])

/-! ## Gauge cycle -/

theorem dwellEvent_keeps (b : Bool) (h : Keeps s t) : Keeps s (dwellEvent b t) :=
  publishAll_keeps _ _ t (h.same (by simp))

theorem roadEvent_keeps (h : Keeps s t) : Keeps s (roadEvent t) := finish_keeps t (evaluateRoad_keeps h)

theorem gaugeEvent_keeps (h : Keeps s t) : Keeps s (gaugeEvent t) := finish_keeps t (h.same (by simp))

/-! ## Distance Counter -/

theorem acceptPulseV_keeps (h : Keeps s t) : Keeps s (acceptPulseV t) := by
  have ticked (p : PulseUnit) : Keeps s (distanceTick (setPulse p t)) := by
    have moved : Keeps s (setDist (setPulse p t).dist.tick (setPulse p t)) := h.same (by simp [setDist, setPulse])
    exact Keeps.ite (saveTrigger_keeps moved) moved
  simp only [acceptPulseV]
  exact Keeps.ite (Keeps.ite (ticked _) (setPulse_keeps _ h)) (setPulse_keeps _ h)

theorem takeTrips_keeps (a b : TripAction) (h : Keeps s t) : Keeps s (takeTrips a b t) := by
  have changed : Keeps s (setDist { t.dist with tripA := a.apply t.dist.tripA, tripB := b.apply t.dist.tripB } t) :=
    h.same (by simp [setDist])
  have first := Keeps.ite (c := t.dist.tripA = a.apply t.dist.tripA) changed (enqueue_keeps .tripA changed)
  exact Keeps.ite first (enqueue_keeps .tripB first)

theorem watchExpiry_keeps (h : Keeps s t) : Keeps s (watchExpiry t) := by
  unfold watchExpiry
  split
  · exact Keeps.ite (saveTrigger_keeps (h.same (by simp [setDist]))) h
  all_goals exact h

theorem takePreset_keeps (x : Side) (v : Nat) (h : Keeps s t) : Keeps s (takePreset x v t) :=
  enqueue_keeps _ (h.same (by simp [setDist]))

theorem takeKFactor_keeps (x : Side) (k : Nat) (h : Keeps s t) : Keeps s (takeKFactor x k t) :=
  enqueue_keeps _ ((takeK_keeps k h).same (by simp [setDist]))

/-! ## Retained Store -/

theorem beginPage_keeps (j : Job) (h : Keeps s t) : Keeps s (beginPage j t) := h.same (by simp)

theorem startJob_keeps (o : Object) (h : Keeps s t) : Keeps s (startJob o t) := by
  have erased : Keeps s (setStore { t.store with queue := t.store.queue.erase o } t) :=
    h.queued (fun nodup => nodup.erase o) (by simp [setStore])
  exact erased.same (by simp [startJob])

theorem tryJob_keeps (h : Keeps s t) : Keeps s (tryJob t) := by
  unfold tryJob
  refine Keeps.ite ?_ h
  split
  · exact startJob_keeps _ h
  · exact h

theorem finishWaiter_keeps (k : Operation) (w : Option Waiter) (b : Bool) {f : State → State} (h : Keeps s t)
    (clears : Keeps s (f t)) : Keeps s (finishWaiter k w b f t) := by
  unfold finishWaiter
  split
  · exact Keeps.ite (deliver_keeps _ _ _ _ _ clears) h
  · exact h

theorem ownerEnd_keeps (j : Job) (b : Bool) (h : Keeps s t) : Keeps s (ownerEnd j b t) := by
  simp only [ownerEnd]
  split
  case h_1 =>
    have retained : Keeps s (if b then retainRing j.content t else t) := Keeps.ite (h.same (by simp)) h
    exact finishWaiter_keeps _ _ _ retained (retained.same (by simp [clearPreset]))
  case h_2 => exact finishWaiter_keeps _ _ _ h (h.same (by simp [clearKFactor]))
  case h_3 => exact finishWaiter_keeps _ _ _ h (h.same (by simp [clearAdoption]))
  case h_4 => exact h
  case h_5 => exact h
  case h_6 => exact clearJobEnd_keeps _ _ h
  case h_7 => exact clearJobEnd_keeps _ _ h

theorem completePage_keeps (j : Job) (b : Bool) (h : Keeps s t) : Keeps s (completePage j b t) := by
  have ends (x : Bool) {t : State} (h : Keeps s t) : Keeps s (endJob j x t) := ownerEnd_keeps j x (h.same (by simp))
  have written : Keeps s (setStore { t.store with array := t.store.array.write j.content j.page } t) :=
    h.same (by simp [setStore])
  unfold completePage
  exact Keeps.ite (Keeps.ite (ends true written) (written.same (by simp)))
    (Keeps.ite (ends false h) (h.same (by simp)))

/-! ## Adoption -/

theorem adoptedLines_keeps (b : Vector Line 32) (h : Keeps s t) : Keeps s (adoptedLines b t) :=
  Keeps.fold (fun _ g => Keeps.ite g (deliverAdopted_keeps _ _ _ g)) _ h

theorem adoptWarnings_keeps (b : Mem) (h : Keeps s t) : Keeps s (adoptWarnings b t) :=
  judgeAll_keeps ((clearWarnings_keeps b h).same (by simp))

theorem takeAdoption_keeps (h : Keeps s t) : Keeps s (takeAdoption t) := by
  have lines : Keeps s (adoptedLines t.sense.lines (adoptLines (stagingImage t) t)) :=
    adoptedLines_keeps _ (h.same (by simp))
  have adopted : Keeps s (adoptImage (stagingImage t) t) :=
    adoptWarnings_keeps _ (lines.same (u := adoptAnalog _ (adoptDoors _ (installImage _ _))) (by simp))
  exact enqueue_keeps _ (adopted.same ⟨rfl, rfl, rfl, rfl⟩)

/-! ## Workshop Link -/

theorem closeLink_keeps (h : Keeps s t) : Keeps s (closeLink t) :=
  setNotice_keeps _ (abortTestOf_keeps _ _ (h.same (by simp [setLink])))

theorem releaseClaim_keeps (x : Side) (k : Claim) (h : Keeps s t) : Keeps s (releaseClaim x k t) := by
  have released : Keeps s (setClaim k .free t) := h.same (by simp [setClaim])
  exact Keeps.ite (abortTestOf_keeps _ _ released) released

/-! ## Services -/

theorem answer_keeps (r : Request) (x : Result) (d : List Byte) (h : Keeps s t) : Keeps s (answer r x d t) :=
  h.same (by simp)

theorem takeClaimService_keeps (r : Request) (h : Keeps s t) : Keeps s (takeClaimService r t) := by
  unfold takeClaimService
  split
  · exact h.same (by simp)
  · split <;> exact h.same (by simp [setClaim])

theorem giveClaimService_keeps (r : Request) (h : Keeps s t) : Keeps s (giveClaimService r t) := by
  unfold giveClaimService
  split
  · exact h.same (by simp)
  next k _ =>
    split
    · exact answer_keeps r _ _ (setNotice_keeps .claimChanged (releaseClaim_keeps .workshop k h))
    · exact h.same (by simp)

/-! ## Window Port -/

theorem claimWrite_keeps (k : Claim) (v : Byte) (h : Keeps s t) : Keeps s (claimWrite k v t) := by
  unfold claimWrite
  exact Keeps.ite (releaseClaim_keeps _ _ h) (h.same (by simp))

theorem slotWrite_keeps (a : Nat) (v : Byte) (h : Keeps s t) : Keeps s (slotWrite a v t) := by
  simp only [slotWrite]
  refine Keeps.ite (Keeps.ite (h.same (by simp)) (Keeps.ite (h.same (by simp)) (h.same (by simp)))) ?_
  split
  · exact ramWrite_keeps _ _ h
  · exact ramWrite_keeps _ _ h
  all_goals exact h.same (by simp)

theorem softReset_keeps (h : Keeps s t) : Keeps s (softReset t) := by
  have dropped : Keeps s (dropClaims .window { t with win := t.win.softReset }) := h.same ⟨rfl, rfl, rfl, rfl⟩
  exact (abortTestOf_keeps .window .sideGone dropped).same (by simp [softReset])

theorem restartWrite_keeps (v : Byte) (h : Keeps s t) : Keeps s (restartWrite v t) := by
  unfold restartWrite
  exact Keeps.ite (softReset_keeps h) (h.same (by simp))

theorem portWrite_keeps (a : Nat) (v : Byte) (h : Keeps s t) : Keeps s (portWrite a v t) := by
  unfold portWrite
  by_cases refresh : a = 18
  · subst refresh
    exact refreshWrite_keeps v h
  by_cases restart : a = 19
  · subst restart
    exact restartWrite_keeps v h
  simp only [refresh, restart, if_false]
  (repeat' split) <;> exact h.same (by simp)

theorem writeByte_keeps (a : Nat) (v : Byte) (h : Keeps s t) : Keeps s (writeByte a v t) := by
  unfold writeByte
  refine Keeps.ite (portWrite_keeps a v h) ?_
  split
  · exact claimWrite_keeps _ v h
  · exact Keeps.ite (slotWrite_keeps a v h) (Keeps.ite (ramWrite_keeps a v h) (h.same (by simp)))

theorem writeData_keeps (x : BitVec 16) (i : Nat) (v : Byte) (h : Keeps s t) : Keeps s (writeData x i v t) := by
  unfold writeData
  split
  · exact writeByte_keeps _ v h
  · exact h

/-! ## Commands -/

theorem keeps_kept (s : State) : Kept (Keeps s) := by
  constructor
  case slot => exact fun t n u h => setSlotResult_keeps n _ _ (h.same (by simp [setSlotState, setAttention, setNow]))
  case finish => exact fun n r d u h => finishSlot_keeps n r d h
  case publish => exact fun f g b u h => publishAll_keeps f g b h
  case judge => exact fun u h => judgeAll_keeps h
  case sense => exact fun r b v u h => sensed_keeps r b v (h.same (by simp))
  case timer => exact fun u h => h.same (by simp [stepTimers])
  case road => exact fun u h => evaluateRoad_keeps h
  case gaugeImage => exact fun u h => publishGauge_keeps h
  case pulse => exact fun u h => acceptPulseV_keeps h
  case watch => exact fun u h => watchExpiry_keeps h
  case onset => exact fun w u h => onsetExpiry_keeps w h
  case duration => exact fun u h => endTest_keeps none h
  case period => exact fun u h => periodExpiry_keeps h
  case job => exact fun u h => tryJob_keeps h
  case complete => exact fun j b u _ h => completePage_keeps j b h
  case closes => exact fun u h => closeLink_keeps h
  case takesClaim => exact fun r u _ h => takeClaimService_keeps r h
  case givesClaim => exact fun r u h => giveClaimService_keeps r h
  case adopts => exact fun u _ h => takeAdoption_keeps h
  case acknowledges => exact fun u w h => acknowledge_keeps w h
  case trips => exact fun x y u h => takeTrips_keeps x y h
  case clearsNone => exact fun c u h => noteView_keeps (reenter_keeps c h)
  case clears => exact fun x c u _ h => takeClear_keeps x c h
  case presets => exact fun x v _ u _ h => takePreset_keeps x v h
  case kFactor => exact fun x n u _ h => takeKFactor_keeps x n h
  case starts => exact fun x p n u _ _ _ h => h.same (by simp)
  case stops => exact fun u h => abortTest_keeps _ h
  case claim => exact fun k v u h => claimWrite_keeps k v h
  case supvRefresh => exact fun v u h => refreshWrite_keeps v h
  case softRestart => exact fun v u h => restartWrite_keeps v h
  case write => exact fun x i v u h => writeData_keeps x i v h
  all_goals
    intros
    exact Keeps.same ‹_› (by simp [setArbiter, setPulse, setWindowOp])

/-! ## A full restart -/

/-- The places that recovery takes from the array hold one record for a code (R139). -/
theorem recovered_unique (a : NvArray) (q : List Instr) : UniqueCodes (recovered a q).faults.places := by
  have kept (i : Fin 40) (p : FaultRecord) (e : recoverPlace a i = .stored p) :
      ∃ r, pageRecord a.places[i] = some r ∧ r.code = p.code ∧ ∀ j, yields a i r j = false := by
    unfold recoverPlace at e
    split at e
    · cases e
    · split at e
      · cases e
      next r found none =>
        injection e with e
        exact ⟨r, found, e ▸ rfl, by simpa using none⟩
  intro i j p q hi hj code
  simp only [recovered, recoverFaults, Fin.getElem_fin, Vector.getElem_ofFn] at hi hj
  obtain ⟨r, ri, codeR, last⟩ := kept i p hi
  obtain ⟨r', rj, codeR', last'⟩ := kept j q hj
  have iLast := last j
  have jLast := last' i
  simp only [yields, ri, rj, codeR, codeR', code] at iLast jLast
  by_contra differ
  simp [differ, Ne.symm differ] at iLast jLast
  omega

theorem restart_keeps (s : State) : Keeps (recovered s.store.array s.pending) (restart s) := by
  have viewed := publishFaults_keeps true (recovered s.store.array s.pending)
    (publishWarnings_keeps false (recovered s.store.array s.pending)
      (judgeAll_keeps (Keeps.refl (s := recovered s.store.array s.pending))))
  unfold restart
  exact Keeps.ite (setNotice_keeps _ viewed) viewed

end Blocks

end Sys2Proof.Proofs

/-! The storage law and the record law at every step: window RAM, the job queue, the records and the overflow count
with its copies, and the configuration in force. -/

namespace Sys2Proof.Proofs

open Sys2Proof Sys2Proof.Machine Sys2Proof.Safety

/-! ## Window RAM, the queue and the records -/

/-- A law that reads what `Keeps` keeps, and that holds of every recovered state, is kept by every step. -/
theorem Keeps.step {P : State → Prop} (along : ∀ {s t}, Keeps s t → P s → P t)
    (fresh : ∀ s, P s → P (recovered s.store.array s.pending)) (s t : State) (h : P s)
    (stepped : step s = .next t) : P t := by
  refine step_keeps (P := P) (fun s q => along ⟨id, id, id, id⟩) (fun s t => along (Keeps.refl.same (by simp)))
    (fun c s h => ?_) s t h stepped
  by_cases restart : c = .fullRestart
  · subst restart
    exact along (restart_keeps s) (fresh s h)
  · exact along ((keeps_kept s).command c (fun e => absurd e restart) .refl) h

theorem step_keeps_storageLaw (s t : State) : storageLaw s → step s = .next t → storageLaw t :=
  Keeps.step (P := storageLaw) (fun k h => ⟨k.ram h.1, k.jobs h.2⟩)
    (fun s _ => ⟨⟨List.Pairwise.nil, fun c h => by simp [recovered] at h⟩, List.nodup_nil⟩) s t

theorem step_keeps_recordLaw (s t : State) : recordLaw s → step s = .next t → recordLaw t :=
  Keeps.step (P := recordLaw) (fun k h => k.records h) (fun s _ => recovered_unique s.store.array s.pending) s t

/-! ## The configuration in force -/

theorem takeAdoption_image (s : State) : (takeAdoption s).image = stagingImage s := by
  simp [takeAdoption, adoptImage, installImage]

theorem adoptCheck_valid {s : State} (passed : adoptCheck s = none) : firstFailing (stagingImage s) = none := by
  unfold adoptCheck at passed
  split at passed
  · cases passed
  · split at passed
    · cases passed
    · split at passed
      · cases passed
      · split at passed
        · cases passed
        · assumption

/-- The image that recovery puts in force passes its validation: the stored one or the default image (R147, R180). -/
theorem recovered_valid (a : NvArray) (q : List Instr) : firstFailing (recovered a q).image = none := by
  show firstFailing ((storedImage a.configuration).getD defaultImage) = none
  unfold storedImage
  split
  · simp only
    split
    next valid => simpa using valid
    next => exact Tests.test_validation.1
  · exact Tests.test_validation.1

theorem restart_image (s : State) : (restart s).image = (recovered s.store.array s.pending).image := by
  simp only [restart]
  split <;> simp

theorem imageLaw_kept : Kept imageLaw := by
  constructor
  case adopts =>
    intro s passed _
    rw [imageLaw, takeAdoption_image]
    exact adoptCheck_valid passed
  all_goals
    intros
    rename_i h
    simpa [imageLaw, setArbiter, setPulse, setWindowOp, stepTimers] using h

theorem step_keeps_imageLaw (s t : State) : imageLaw s → step s = .next t → imageLaw t :=
  imageLaw_kept.step (fun _ _ h => h) (fun s _ => by rw [imageLaw, restart_image]; exact recovered_valid _ _) s t

/-- Settles O54: `Keeps` for window RAM and the queue, and the check of an adoption for the configuration. -/
theorem stepKeepsStorageLaw : Obligations.StepKeepsStorageLaw := ⟨step_keeps_storageLaw, step_keeps_imageLaw⟩

/-! ## The overflow count and its copies -/

/-- The copies of the overflow count: in the header's page, and in a header job in the engine (R131, R142). -/
def copiesBounded (s : State) : Prop :=
  s.store.array.header.content.2 ≤ 255 ∧
  ∀ j records overflow, s.store.job = some j → j.content = .header records overflow → overflow ≤ 255

theorem spoil_header (a : NvArray) (c : Captured) (page : Nat) : (a.spoil c page).header.content = a.header.content := by
  unfold NvArray.spoil
  split
  case h_5 => split <;> rfl
  all_goals rfl

/-- A page that starts, or waits, holds the content of its job. -/
theorem duePage_copies {s : State} {j : Job} (h : copiesBounded s)
    (content : ∀ r o, j.content = .header r o → o ≤ 255) : copiesBounded (duePage j s) := by
  obtain ⟨header, job⟩ := h
  unfold duePage
  split
  · refine ⟨by simpa [beginPage, setStore, spoil_header] using header, fun k r o e at_ => ?_⟩
    obtain rfl : { j with phase := .inFlight s.time.now } = k := by simpa [beginPage, setStore] using e
    exact content r o at_
  · refine ⟨header, fun k r o e at_ => ?_⟩
    obtain rfl : { j with phase := .waiting } = k := by simpa [setStore] using e
    exact content r o at_

theorem beginPage_copies {s : State} {j : Job} (h : s.store.array.header.content.2 ≤ 255)
    (content : ∀ r o, j.content = .header r o → o ≤ 255) : copiesBounded (beginPage j s) := by
  refine ⟨by simpa [beginPage, setStore, spoil_header] using h, fun k r o e at_ => ?_⟩
  obtain rfl : { j with phase := .inFlight s.time.now } = k := by simpa [beginPage, setStore] using e
  exact content r o at_

theorem startJob_copies {s : State} (o : Object) (h : overflowLaw s) : copiesBounded (startJob o s) := by
  refine beginPage_copies (by simpa [setStore] using h.2.1) fun r n e => ?_
  cases o <;> simp only [capture, Captured.header.injEq, reduceCtorEq] at e
  exact e.2 ▸ h.1

theorem endJob_copies {s : State} (j : Job) (b : Bool) (h : s.store.array.header.content.2 ≤ 255) :
    copiesBounded (endJob j b s) := by
  refine ⟨by simpa using h, fun k r o e => ?_⟩
  simp [endJob, markEnd] at e
  split at e <;> simp [setStore] at e

theorem write_header {a : NvArray} {c : Captured} (page : Nat) (h : a.header.content.2 ≤ 255)
    (content : ∀ r o, c = .header r o → o ≤ 255) : (a.write c page).header.content.2 ≤ 255 := by
  unfold NvArray.write
  split
  case h_5 => split <;> exact h
  case h_6 r o => exact content r o rfl
  all_goals exact h

theorem completePage_copies {s : State} {j : Job} (b : Bool) (job : s.store.job = some j) (h : copiesBounded s) :
    copiesBounded (completePage j b s) := by
  obtain ⟨header, jobs⟩ := h
  have content (r o : Nat) (e : j.content = .header r o) : o ≤ 255 := jobs j r o job e
  have written := write_header j.page header content
  unfold completePage
  split
  · simp only
    split
    · exact endJob_copies j true written
    · exact duePage_copies ⟨written, fun k r o e => jobs k r o e⟩ content
  · split
    · exact endJob_copies j false header
    · exact duePage_copies ⟨header, jobs⟩ content

theorem overflowLaw_iff (s : State) : overflowLaw s ↔ s.faults.overflow ≤ 255 ∧ copiesBounded s := Iff.rfl

theorem overflowLaw_kept : Kept overflowLaw := by
  have k (s t : State) (h : overflowLaw s) (keeps : Keeps s t) (copies : copiesBounded t) : overflowLaw t :=
    ⟨keeps.overflow h.1, copies⟩
  constructor
  case job =>
    intro s h
    refine k s _ h (tryJob_keeps .refl) ?_
    unfold tryJob
    split
    · split
      · exact startJob_copies _ h
      · exact h.2
    · exact h.2
  case page =>
    intro s h
    refine k s _ h (Keeps.refl.same (by simp)) ?_
    unfold tryPage
    split
    next j job =>
      split
      · exact beginPage_copies h.2.1 fun r o e => h.2.2 j r o job e
      · exact h.2
    next => exact h.2
  case complete =>
    exact fun j b s job h => k s _ h (completePage_keeps j b .refl) (completePage_copies b job h.2)
  case judge => exact fun s h => k s _ h (judgeAll_keeps .refl) (by simpa [copiesBounded] using h.2)
  case sense =>
    exact fun r b v s h => k s _ h (sensed_keeps r b v (Keeps.refl.same (by simp))) (by simpa [copiesBounded] using h.2)
  case onset => exact fun w s h => k s _ h (onsetExpiry_keeps w .refl) (by simpa [copiesBounded] using h.2)
  case adopts => exact fun s _ h => k s _ h (takeAdoption_keeps .refl) (by simpa [copiesBounded] using h.2)
  case clearsNone =>
    exact fun c s h => k s _ h (noteView_keeps (reenter_keeps c .refl)) (by simpa [copiesBounded] using h.2)
  case clears => exact fun x c s _ h => k s _ h (takeClear_keeps x c .refl) (by simpa [copiesBounded] using h.2)
  all_goals
    intros
    rename_i h
    simpa [overflowLaw, setArbiter, setPulse, setWindowOp, stepTimers] using h

theorem restart_overflowLaw (s : State) (h : overflowLaw s) : overflowLaw (restart s) := by
  have fresh : (recovered s.store.array s.pending).faults.overflow ≤ 255 := by
    show (if _ then _ else _) ≤ 255
    split
    · exact h.2.1
    · exact Nat.zero_le _
  have store : (restart s).store.array = s.store.array ∧ (restart s).store.job = none := by
    simp only [restart]
    split <;> simp [recovered]
  exact ⟨(restart_keeps s).overflow fresh, by rw [store.1]; exact h.2.1, by simp [store.2]⟩

/-- Settles O57: `Keeps` for the records, and the copies of the overflow count for its bound. -/
theorem stepKeepsRecordLaw : Obligations.StepKeepsRecordLaw :=
  ⟨step_keeps_recordLaw, overflowLaw_kept.step (fun _ _ h => h) restart_overflowLaw⟩

end Sys2Proof.Proofs

/-! The claim law and the odometer law at every step. -/

namespace Sys2Proof.Proofs

open Sys2Proof Sys2Proof.Machine Sys2Proof.Safety

/-! ## Claims and the session -/

/-- Of the claims only one that WORKSHOP held before, or none: what an operation does that gives it no claim. -/
theorem claimLaw_of {s t : State} (h : claimLaw s)
    (held : ∀ k : Claim, t.win.claims.holder k = .workshop → s.win.claims.holder k = .workshop)
    (session : t.link.session = s.link.session) : claimLaw t :=
  fun k w => session ▸ h k (held k w)

theorem give_holder (c : Claims) (k j : Claim) (h : Holder) :
    (c.give k h).holder j = if j = k then h else c.holder j := by
  cases k <;> cases j <;> rfl

theorem dropClaims_holder (h : Holder) (s : State) (k : Claim) :
    (dropClaims h s).win.claims.holder k = (s.win.claims.holder k).dropped h := by
  cases k <;> rfl

theorem loseClaims_holder (h : Holder) (s : State) (k : Claim) :
    (loseClaims h s).win.claims.holder k = (s.win.claims.holder k).dropped h := by
  unfold loseClaims
  split
  · rw [← dropClaims_holder h s k]
    rfl
  next none =>
    have free : s.win.claims.holder k ≠ h := by
      cases k <;> simp_all [holdsAny, Claims.holder]
    simp [Holder.dropped, free]

theorem dropped_of_workshop {h x : Holder} (w : h.dropped x = .workshop) : h = .workshop ∧ x ≠ .workshop := by
  unfold Holder.dropped at w
  split at w
  · cases w
  · exact ⟨w, fun e => ‹¬ h = x› (w.trans e.symm)⟩

theorem releaseClaim_holder (x : Side) (k j : Claim) (s : State) :
    (releaseClaim x k s).win.claims.holder j = if j = k then .free else s.win.claims.holder j := by
  rw [← give_holder]
  simp only [releaseClaim]
  split <;> simp

theorem enterFallback_holder (s : State) (k : Claim) :
    (enterFallback s).win.claims.holder k = (s.win.claims.holder k).dropped .window := by
  rw [← loseClaims_holder .window s k]
  simp [enterFallback, loseClaims, holdsAny, dropClaims, setSupervision]
  split <;> rfl

/-- The claims of WORKSHOP after a supervision event are claims that it held before. -/
theorem refreshWrite_workshop (v : Byte) {s : State} {k : Claim}
    (w : (refreshWrite v s).win.claims.holder k = .workshop) : s.win.claims.holder k = .workshop := by
  unfold refreshWrite at w
  split at w
  · simpa using w
  · simp only [refreshFault] at w
    split at w
    case h_3 => exact (dropped_of_workshop (enterFallback_holder s k ▸ w)).1
    case h_4 => split at w <;> simpa [setSupervision] using w
    all_goals simpa using w

theorem periodExpiry_workshop {s : State} {k : Claim}
    (w : (periodExpiry s).win.claims.holder k = .workshop) : s.win.claims.holder k = .workshop := by
  simp only [periodExpiry] at w
  split at w
  · split at w
    case h_3 => exact (dropped_of_workshop (enterFallback_holder s k ▸ w)).1
    all_goals simpa [setSupervision] using w
  · exact w

theorem claimWrite_workshop (c : Claim) (v : Byte) {s : State} {k : Claim}
    (w : (claimWrite c v s).win.claims.holder k = .workshop) : s.win.claims.holder k = .workshop := by
  unfold claimWrite at w
  split at w
  · rw [releaseClaim_holder] at w
    split at w
    · cases w
    · exact w
  · simpa using w

theorem softReset_claims (s : State) : (softReset s).win.claims = (dropClaims .window s).win.claims := by
  simp [softReset, dropClaims, WindowPort.softReset]

theorem restartWrite_workshop (v : Byte) {s : State} {k : Claim}
    (w : (restartWrite v s).win.claims.holder k = .workshop) : s.win.claims.holder k = .workshop := by
  unfold restartWrite at w
  split at w
  · rw [softReset_claims, dropClaims_holder] at w
    exact (dropped_of_workshop w).1
  · simpa using w

theorem writeData_workshop (x : BitVec 16) (i : Nat) (v : Byte) {s : State} {k : Claim}
    (w : (writeData x i v s).win.claims.holder k = .workshop) : s.win.claims.holder k = .workshop := by
  unfold writeData at w
  split at w
  next a _ =>
    unfold writeByte at w
    split at w
    · unfold portWrite at w
      by_cases refresh : a = 18
      · subst refresh
        exact refreshWrite_workshop v w
      by_cases restart : a = 19
      · subst restart
        exact restartWrite_workshop v w
      simp only [refresh, restart, if_false] at w
      (repeat' split at w) <;> simpa using w
    · split at w
      · exact claimWrite_workshop _ v w
      · (repeat' split at w) <;> simpa using w
  next => exact w

theorem fetchData_workshop (x : BitVec 16) (i : Nat) {s : State} {k : Claim}
    (w : (fetchData x i s).win.claims.holder k = .workshop) : s.win.claims.holder k = .workshop := by
  simp only [fetchData] at w
  split at w
  · exact w
  · split at w
    · split at w
      · change (s.win.claims.give _ .window).holder k = .workshop at w
        rw [give_holder] at w
        split at w
        · cases w
        · exact w
      · exact w
    · exact w

theorem giveClaimService_workshop (r : Request) {s : State} {k : Claim}
    (w : (giveClaimService r s).win.claims.holder k = .workshop) : s.win.claims.holder k = .workshop := by
  unfold giveClaimService at w
  split at w
  · simpa using w
  · split at w
    · simp only [answer_frame, setNotice_win_claims, releaseClaim_holder] at w
      split at w
      · cases w
      · exact w
    · simpa using w

/-- With the session closed WORKSHOP holds nothing. -/
theorem closeLink_holder (s : State) (k : Claim) : (closeLink s).win.claims.holder k ≠ .workshop := by
  intro w
  simp [closeLink, loseClaims_holder] at w
  exact (dropped_of_workshop w).2 rfl

theorem claimLaw_kept : Kept claimLaw := by
  constructor
  case takesClaim => exact fun r s session _ _ _ => by simpa using session
  case givesClaim => exact fun r s h => claimLaw_of h (fun k => giveClaimService_workshop r) (by simp)
  case closes => exact fun s _ k w => absurd w (closeLink_holder s k)
  case opens => exact fun s _ _ _ => by simp only [openLink]; split <;> rfl
  case period => exact fun s h => claimLaw_of h (fun k => periodExpiry_workshop) (by simp)
  case fetch => exact fun x i s h => claimLaw_of h (fun k => fetchData_workshop x i) (by simp)
  case claim => exact fun c v s h => claimLaw_of h (fun k => claimWrite_workshop c v) (by simp)
  case supvRefresh => exact fun v s h => claimLaw_of h (fun k => refreshWrite_workshop v) (by simp)
  case softRestart => exact fun v s h => claimLaw_of h (fun k => restartWrite_workshop v) (by simp)
  case write => exact fun x i v s h => claimLaw_of h (fun k => writeData_workshop x i v) (by simp)
  all_goals
    intros
    rename_i h
    simpa [claimLaw, setArbiter, setPulse, setWindowOp, stepTimers] using h

theorem restart_claims (s : State) : (restart s).win.claims = State.reset.win.claims := by
  simp only [restart]
  split <;> simp [recovered]

/-- Settles O58: WORKSHOP gets a claim in an OPEN session alone, and a session that closes takes its claims. -/
theorem stepKeepsClaimLaw : Obligations.StepKeepsClaimLaw :=
  claimLaw_kept.step (fun _ _ h => h) fun s _ k w => by
    rw [restart_claims] at w
    cases k <;> cases w

end Sys2Proof.Proofs

/-! The odometer law at every step: a captured ring value lies between the retained and the live odometer. -/

namespace Sys2Proof.Proofs

open Sys2Proof Sys2Proof.Machine Sys2Proof.Safety

/-! ## BCD -/

/-- Ten digits as a number, the highest first. -/
def ofDigits (d9 d8 d7 d6 d5 d4 d3 d2 d1 d0 : Nat) : Nat :=
  [d9, d8, d7, d6, d5, d4, d3, d2, d1, d0].foldl (fun acc d => acc * 10 + d) 0

/-- A value that the BCD check accepts has nine digits (R48). -/
theorem bcdValue_le {w : BitVec 40} {v : Nat} (h : bcdValue w = some v) : v ≤ 999999999 := by
  simp only [bcdValue, nibbles, List.range_succ, List.range_zero, List.nil_append, List.cons_append, List.map_cons,
    List.map_nil, List.all_cons, List.all_nil, List.headD_cons, List.foldl_cons, List.foldl_nil] at h
  split at h
  · injection h with e
    simp_all
    omega
  · cases h

theorem digit_le (n k : Nat) : digit n k ≤ 9 := by
  unfold digit
  omega

/-- Nine digits are the number they are taken from. -/
theorem ofDigits_digit {n : Nat} (h : n ≤ 999999999) :
    ofDigits 0 (digit n 8) (digit n 7) (digit n 6) (digit n 5) (digit n 4) (digit n 3) (digit n 2) (digit n 1)
      (digit n 0) = n := by
  simp only [ofDigits, digit, List.foldl_cons, List.foldl_nil]
  omega

/-- The nibbles of the odometer's bytes are its digits (R45). -/
theorem nibbles_bcdOdometer (n : Nat) : nibbles (word40 (bcdOdometer n)) =
    [0, digit n 8, digit n 7, digit n 6, digit n 5, digit n 4, digit n 3, digit n 2, digit n 1, digit n 0] := by
  have d0 := digit_le n 0
  have d1 := digit_le n 1
  have d2 := digit_le n 2
  have d3 := digit_le n 3
  have d4 := digit_le n 4
  have d5 := digit_le n 5
  have d6 := digit_le n 6
  have d7 := digit_le n 7
  have d8 := digit_le n 8
  rw [bcdOdometer_eq]
  simp only [nibbles, word40, bcdFive, octet, List.foldl_cons, List.foldl_nil, List.range_succ, List.range_zero,
    List.nil_append, List.cons_append, List.map_cons, List.map_nil, BitVec.toNat_ofNat]
  generalize digit n 0 = x0 at *
  generalize digit n 1 = x1 at *
  generalize digit n 2 = x2 at *
  generalize digit n 3 = x3 at *
  generalize digit n 4 = x4 at *
  generalize digit n 5 = x5 at *
  generalize digit n 6 = x6 at *
  generalize digit n 7 = x7 at *
  generalize digit n 8 = x8 at *
  simp only [List.cons.injEq, and_true]
  refine ⟨?_, ?_, ?_, ?_, ?_, ?_, ?_, ?_, ?_, ?_⟩ <;> omega

/-- The odometer that a ring slot holds reads back as it was (R45, R48). -/
theorem bcdValue_bcdOdometer {n : Nat} (h : n ≤ 999999999) : bcdValue (word40 (bcdOdometer n)) = some n := by
  have nine := digit_le n
  have value := ofDigits_digit h
  unfold ofDigits at value
  simp only [bcdValue, nibbles_bcdOdometer]
  rw [if_pos (by simp [nine]), value]

/-! ## The law -/

/-- The odometer law, with neither value below a bound. -/
def odometerFrom (live retained : Nat) (s : State) : Prop :=
  odometerLaw s ∧ live ≤ s.dist.live ∧ retained ≤ s.dist.retained

theorem capturedBetween_mono {low high more : Nat} {c : Captured} (h : capturedBetween low high c)
    (le : high ≤ more) : capturedBetween low more c := by
  unfold capturedBetween at h ⊢
  split
  · obtain ⟨v, value, above, below⟩ := h
    exact ⟨v, value, above, below.trans le⟩
  · trivial

section Odometer

variable {live retained : Nat} {s t : State}

/-- The live value may go up, a job's content stays. -/
theorem odometerFrom_of (h : odometerFrom live retained s) (up : s.dist.live ≤ t.dist.live)
    (top : t.dist.live ≤ 999999999) (same : t.dist.retained = s.dist.retained)
    (jobs : ∀ j, t.store.job = some j → capturedBetween s.dist.retained s.dist.live j.content) :
    odometerFrom live retained t := by
  obtain ⟨⟨le, -, -⟩, low, kept⟩ := h
  refine ⟨⟨by omega, top, fun j e => ?_⟩, by omega, by omega⟩
  rw [same]
  exact capturedBetween_mono (jobs j e) up

theorem odometerFrom_same (h : odometerFrom live retained s) (dist : t.dist.live = s.dist.live)
    (same : t.dist.retained = s.dist.retained)
    (jobs : ∀ j, t.store.job = some j → capturedBetween s.dist.retained s.dist.live j.content) :
    odometerFrom live retained t :=
  odometerFrom_of h dist.ge (dist ▸ h.1.2.1) same jobs

/-! ## A tick and a preset -/

theorem tick_live (d : Distance) (h : d.live ≤ 999999999) :
    d.live ≤ d.tick.live ∧ d.tick.live ≤ 999999999 ∧ d.tick.retained = d.retained := by
  by_cases top : d.live = 999999999
  · simp [Distance.tick, odometerMax, top]
  · simp [Distance.tick, odometerMax, top]
    omega

theorem distanceTick_dist (s : State) :
    (distanceTick s).dist.live = s.dist.tick.live ∧ (distanceTick s).dist.retained = s.dist.tick.retained := by
  simp only [distanceTick]
  split <;> simp [saveTrigger, setDist]

theorem acceptPulseV_odometer (h : odometerFrom live retained s) : odometerFrom live retained (acceptPulseV s) := by
  obtain ⟨up, top, kept⟩ := tick_live s.dist h.1.2.1
  have ticked : (acceptPulseV s).dist.live = s.dist.live ∨ (acceptPulseV s).dist.live = s.dist.tick.live := by
    simp only [acceptPulseV]
    split
    · split
      · exact .inr (distanceTick_dist _).1
      · exact .inl rfl
    · exact .inl rfl
  have bounds := h.1.2.1
  exact odometerFrom_of h (by omega) (by omega) (by simp) (by simpa using h.1.2.2)

theorem takePreset_odometer {x : Side} {v : Nat} {w : BitVec 40} (passed : presetCheck x w s = .inl v)
    (h : odometerFrom live retained s) : odometerFrom live retained (takePreset x v s) := by
  have checked : bcdValue w = some v ∧ s.dist.live ≤ v := by
    unfold presetCheck at passed
    split at passed
    · cases passed
    · (repeat' split at passed) <;> simp_all
  have preset : (takePreset x v s).dist.live = v := by simp [takePreset, setDist]
  exact odometerFrom_of h (by rw [preset]; exact checked.2) (by rw [preset]; exact bcdValue_le checked.1) (by simp)
    (by simpa using h.1.2.2)

/-! ## A job -/

theorem capture_between (h : odometerLaw s) (o : Object) : capturedBetween s.dist.retained s.dist.live (capture s o) := by
  cases o <;> simp only [capture, capturedBetween]
  exact ⟨_, bcdValue_bcdOdometer h.2.1, h.1, le_rfl⟩

theorem beginPage_odometer {j : Job} (h : odometerFrom live retained s)
    (content : capturedBetween s.dist.retained s.dist.live j.content) : odometerFrom live retained (beginPage j s) := by
  refine odometerFrom_same h (by simp) (by simp) fun k e => ?_
  obtain rfl : { j with phase := .inFlight s.time.now } = k := by simpa [beginPage, setStore] using e
  exact content

theorem duePage_odometer {j : Job} (h : odometerFrom live retained s)
    (content : capturedBetween s.dist.retained s.dist.live j.content) : odometerFrom live retained (duePage j s) := by
  unfold duePage
  split
  · exact beginPage_odometer h content
  · refine odometerFrom_same h rfl rfl fun k e => ?_
    obtain rfl : { j with phase := .waiting } = k := by simpa [setStore] using e
    exact content

theorem tryJob_odometer (h : odometerFrom live retained s) : odometerFrom live retained (tryJob s) := by
  unfold tryJob
  split
  · split
    next o _ =>
      have before : odometerFrom live retained
          (matchStart o (atCapture o (setStore { s.store with queue := s.store.queue.erase o } s))) :=
        odometerFrom_same h (by simp [setStore]) (by simp [setStore]) (by simpa [setStore] using h.1.2.2)
      exact beginPage_odometer before (by simpa [setStore] using capture_between h.1 o)
    next => exact h
  · exact h

/-- The retained value after a job of this content is the captured one, where the job is one of the ring. -/
theorem ownerEnd_retained (j : Job) (b : Bool) (s : State) :
    (ownerEnd j b s).dist.retained = s.dist.retained ∨
      (ownerEnd j b s).dist.retained = (retainRing j.content s).dist.retained := by
  have waits (k : Operation) (w : Option Waiter) (f : State → State) (s : State)
      (same : (f s).dist.retained = s.dist.retained) :
      (finishWaiter k w b f s).dist.retained = s.dist.retained := by
    unfold finishWaiter
    split
    · split <;> simp [same]
    · rfl
  simp only [ownerEnd]
  split
  case h_1 =>
    rw [waits _ _ _ _ rfl]
    split
    · exact .inr rfl
    · exact .inl rfl
  case h_2 => exact .inl (waits _ _ _ _ rfl)
  case h_3 => exact .inl (waits _ _ _ _ rfl)
  all_goals exact .inl (by simp)

theorem retainRing_between {c : Captured} (h : s.dist.retained ≤ s.dist.live)
    (content : capturedBetween s.dist.retained s.dist.live c) :
    s.dist.retained ≤ (retainRing c s).dist.retained ∧ (retainRing c s).dist.retained ≤ s.dist.live := by
  unfold retainRing
  split
  · obtain ⟨v, value, above, below⟩ := content
    simpa [value] using ⟨above, below⟩
  · exact ⟨le_rfl, h⟩

theorem endJob_odometer {j : Job} (b : Bool) (h : odometerFrom live retained s)
    (content : capturedBetween s.dist.retained s.dist.live j.content) : odometerFrom live retained (endJob j b s) := by
  have marked : (markEnd j.object b s).dist = s.dist := by simp
  have ring : (retainRing j.content (markEnd j.object b s)).dist.retained = (retainRing j.content s).dist.retained := by
    unfold retainRing
    split <;> simp
  have between := retainRing_between h.1.1 content
  have after := ownerEnd_retained j b (markEnd j.object b s)
  rw [marked, ring] at after
  obtain ⟨⟨le, top, -⟩, low, kept⟩ := h
  have same : (endJob j b s).dist.live = s.dist.live := by simp
  refine ⟨⟨?_, same ▸ top, fun k e => ?_⟩, same ▸ low, ?_⟩
  · unfold endJob at same ⊢
    omega
  · simp [endJob, markEnd] at e
    split at e <;> simp [setStore] at e
  · unfold endJob
    omega

theorem completePage_odometer {j : Job} (b : Bool) (job : s.store.job = some j) (h : odometerFrom live retained s) :
    odometerFrom live retained (completePage j b s) := by
  have content := h.1.2.2 j job
  have written : odometerFrom live retained
      (setStore { s.store with array := s.store.array.write j.content j.page } s) := h
  unfold completePage
  split
  · simp only
    split
    · exact endJob_odometer true written content
    · exact duePage_odometer written content
  · split
    · exact endJob_odometer false h content
    · exact duePage_odometer h content

/-! ## Every step -/

theorem odometerFrom_kept (live retained : Nat) : Kept (odometerFrom live retained) := by
  constructor
  case pulse => exact fun s h => acceptPulseV_odometer h
  case presets => exact fun x v w s passed h => takePreset_odometer passed h
  case job => exact fun s h => tryJob_odometer h
  case page =>
    intro s h
    unfold tryPage
    split
    next j job =>
      split
      · exact beginPage_odometer h (h.1.2.2 j job)
      · exact h
    next => exact h
  case complete => exact fun j b s job h => completePage_odometer b job h
  all_goals
    intros
    rename_i h
    simpa [odometerFrom, odometerLaw, setArbiter, setPulse, setWindowOp, stepTimers] using h

end Odometer

/-! ## Recovery -/

/-- One slot of the scan that chooses the slot to recover from (R48). -/
def slotStep (ring : Vector (Page RingSlot) 8) (best : Option (Fin 8 × Nat)) (i : Fin 8) : Option (Fin 8 × Nat) :=
  match ringValue ring[i] with
  | none => best
  | some v =>
    match best with
    | none => some (i, v)
    | some b => if b.2 ≤ v then some (i, v) else best

theorem chosenSlot_eq (ring : Vector (Page RingSlot) 8) :
    chosenSlot ring = (List.finRange 8).foldl (slotStep ring) none := rfl

theorem slotStep_invalid {ring : Vector (Page RingSlot) 8} {i : Fin 8} (best : Option (Fin 8 × Nat))
    (h : ringValue ring[i] = none) : slotStep ring best i = best := by
  unfold slotStep
  rw [h]

theorem slotStep_first {ring : Vector (Page RingSlot) 8} {i : Fin 8} {v : Nat} (h : ringValue ring[i] = some v) :
    slotStep ring none i = some (i, v) := by
  unfold slotStep
  rw [h]

theorem slotStep_next {ring : Vector (Page RingSlot) 8} {i : Fin 8} {v : Nat} (b : Fin 8 × Nat)
    (h : ringValue ring[i] = some v) : slotStep ring (some b) i = if b.2 ≤ v then some (i, v) else some b := by
  unfold slotStep
  rw [h]

/-- Of the slots of a list the chosen one holds the greatest value, the highest index among equals (R48). -/
def Greatest (ring : Vector (Page RingSlot) 8) (l : List (Fin 8)) : Option (Fin 8 × Nat) → Prop
  | none => ∀ j ∈ l, ringValue ring[j] = none
  | some (i, v) => ringValue ring[i] = some v ∧
      ∀ j ∈ l, ∀ w, ringValue ring[j] = some w → w < v ∨ (w = v ∧ j ≤ i)

theorem fold_greatest (ring : Vector (Page RingSlot) 8) (l : List (Fin 8)) (rising : l.Pairwise (· < ·)) :
    Greatest ring l (l.foldl (slotStep ring) none) := by
  induction l using List.reverseRecOn with
  | nil => exact fun j h => absurd h List.not_mem_nil
  | append_singleton l a ih =>
    rw [List.foldl_append, List.foldl_cons, List.foldl_nil]
    obtain ⟨before, -, below⟩ := List.pairwise_append.mp rising
    have best := ih before
    have last (j : Fin 8) (h : j ∈ l) : j < a := below j h a (List.mem_singleton_self a)
    cases value : ringValue ring[a] with
    | none =>
      rw [slotStep_invalid _ value]
      cases found : l.foldl (slotStep ring) none with
      | none =>
        rw [found] at best
        exact fun j h => (List.mem_append.mp h).elim (best j) fun e => List.mem_singleton.mp e ▸ value
      | some b =>
        rw [found] at best
        refine ⟨best.1, fun j h w e => (List.mem_append.mp h).elim (fun h => best.2 j h w e) fun h => ?_⟩
        rw [List.mem_singleton.mp h, value] at e
        cases e
    | some v =>
      have same (w : Nat) (e : ringValue ring[a] = some w) : w = v := by
        rw [value] at e
        exact (Option.some.inj e).symm
      cases found : l.foldl (slotStep ring) none with
      | none =>
        rw [found] at best
        rw [slotStep_first value]
        refine ⟨value, fun j h w e => (List.mem_append.mp h).elim (fun h => ?_) fun h => ?_⟩
        · rw [best j h] at e
          cases e
        · obtain rfl := List.mem_singleton.mp h
          exact .inr ⟨same w e, le_rfl⟩
      | some b =>
        rw [found] at best
        obtain ⟨held, greatest⟩ := best
        rw [slotStep_next _ value]
        split
        next le =>
          refine ⟨value, fun j h w e => (List.mem_append.mp h).elim (fun h => ?_) fun h => ?_⟩
          · have below := last j h
            have := greatest j h w e
            omega
          · obtain rfl := List.mem_singleton.mp h
            exact .inr ⟨same w e, le_rfl⟩
        next lt =>
          refine ⟨held, fun j h w e => (List.mem_append.mp h).elim (fun h => greatest j h w e) fun h => ?_⟩
          obtain rfl := List.mem_singleton.mp h
          exact .inl (by have := same w e; omega)

theorem chosenSlot_greatest (ring : Vector (Page RingSlot) 8) :
    Greatest ring (List.finRange 8) (chosenSlot ring) :=
  chosenSlot_eq ring ▸ fold_greatest ring _ (by decide)

theorem ringValue_le {p : Page RingSlot} {v : Nat} (h : ringValue p = some v) : v ≤ 999999999 := by
  unfold ringValue at h
  split at h
  · exact bcdValue_le h
  · cases h

theorem chosenSlot_le {ring : Vector (Page RingSlot) 8} {c : Fin 8 × Nat} (h : chosenSlot ring = some c) :
    c.2 ≤ 999999999 := by
  have greatest := chosenSlot_greatest ring
  rw [h] at greatest
  exact ringValue_le greatest.1

theorem recovered_odometerLaw (a : NvArray) (q : List Instr) : odometerLaw (recovered a q) := by
  have bound : (recoverDistance a).live ≤ 999999999 := by
    simp only [recoverDistance]
    split
    next c chosen => exact chosenSlot_le chosen
    next => exact Nat.zero_le _
  exact ⟨le_rfl, bound, by simp [recovered]⟩

theorem restart_odometerLaw (s : State) : odometerLaw (restart s) := by
  have same : (restart s).dist = (recovered s.store.array s.pending).dist ∧
      (restart s).store.job = (recovered s.store.array s.pending).store.job := by
    simp only [restart]
    split <;> simp
  have h := recovered_odometerLaw s.store.array s.pending
  unfold odometerLaw at h ⊢
  rw [same.1, same.2]
  exact h

/-- Settles O55: the captured value is in the law, so a ring job that ends raises the retained value to one between
the two; the live value goes up at a tick and at a preset alone. -/
theorem stepKeepsOdometerLaw : Obligations.StepKeepsOdometerLaw := by
  intro s t h stepped
  have start : odometerFrom s.dist.live s.dist.retained s := ⟨h, le_rfl, le_rfl⟩
  have kept := odometerFrom_kept s.dist.live s.dist.retained
  obtain ⟨-, rfl⟩ | ⟨c, rest, front, rfl⟩ := step_cases stepped
  · have idled : odometerFrom s.dist.live s.dist.retained (idle s) := by
      obtain e | e := idle_cases s
      · rw [e]
        exact start
      · rw [e]
        exact kept.clock _ s start
    exact ⟨idled.1, fun _ => idled.2⟩
  · by_cases full : c = .fullRestart
    · subst full
      exact ⟨restart_odometerLaw _, fun other => absurd (by rw [front]; rfl) other⟩
    · have ran := kept.command c (s := { s with pending := rest }) (fun e => absurd e full) start
      exact ⟨ran.1, fun _ => ran.2⟩

end Sys2Proof.Proofs

/-! The permit law at every step: DPERMIT is judged at every event that can end what it rests on. -/

namespace Sys2Proof.Proofs

open Sys2Proof Sys2Proof.Machine Sys2Proof.Safety

/-! ## A valid image -/

theorem valid_item {img : Mem} (valid : firstFailing img = none) {i : Nat} (low : 1 ≤ i) (high : i ≤ 17) :
    validationItem img i = true := by
  have passes := List.find?_eq_none.mp valid i (List.mem_map.mpr ⟨i - 1, List.mem_range.mpr (by omega), by omega⟩)
  simpa using passes

theorem lineEntry_role (img : Mem) (n : Fin 32) : (lineEntry img n).role = roleAt img n.val := rfl

/-- A valid image gives SENSE0 the role IGNITION (item 3 of R179). -/
theorem valid_wired {img : Mem} (valid : firstFailing img = none) : (lineEntry img 0).role = .ignition := by
  have item := valid_item valid (i := 3) (by omega) (by omega)
  simp only [validationItem, if_true, if_false, Nat.reduceEqDiff, Bool.and_eq_true, decide_eq_true_eq] at item
  exact item.1

/-! ## The permit as judged -/

/-- The standstill age is held in STANDSTILL alone, and is at most 200 (R84). -/
def ageHeld (s : State) : Prop := ∀ a, s.door.age = some a → a ≤ 200 ∧ s.pulse.motion = .standstill

/-- DPERMIT is not asserted where it would not be judged so. -/
def permitBacked (s : State) : Prop := s.door.dpermit = true → permitJudged s = true

theorem permitJudged_iff (s : State) : permitJudged s = true ↔
    ignitionOn s = true ∧ (mature s = true ∨ (sourceValid s.pulse = false ∧ roleActive s .parkingBrake = true)) := by
  simp [permitJudged]

theorem permitLaw_iff (s : State) : permitLaw s ↔ ignitionWired s ∧ ageHeld s ∧ permitBacked s := by
  unfold permitBacked
  rw [permitJudged_iff]
  rfl

theorem judgePermit_backed (s : State) : permitBacked (judgePermit s) := id

/-- What the permit rests on, where an operation leaves it as it was. -/
structure PermitSame (s t : State) : Prop where
  dpermit : t.door.dpermit = s.door.dpermit
  age : t.door.age = s.door.age
  motion : t.pulse.motion = s.pulse.motion
  source : sourceValid t.pulse = sourceValid s.pulse
  sense : t.sense = s.sense
  image : t.image = s.image

section Same

variable {s t u : State}

theorem PermitSame.refl : PermitSame s s := ⟨rfl, rfl, rfl, rfl, rfl, rfl⟩

theorem PermitSame.trans (h : PermitSame s t) (g : PermitSame t u) : PermitSame s u :=
  ⟨g.dpermit.trans h.dpermit, g.age.trans h.age, g.motion.trans h.motion, g.source.trans h.source,
    g.sense.trans h.sense, g.image.trans h.image⟩

theorem PermitSame.ignition (h : PermitSame s t) : ignitionOn t = ignitionOn s := by
  unfold ignitionOn lineState
  rw [h.sense]

theorem PermitSame.brake (h : PermitSame s t) : roleActive t .parkingBrake = roleActive s .parkingBrake := by
  have lines : lineState t = lineState s := by
    funext n
    simp [lineState, h.sense]
  simp [roleActive, roleState, h.image, lines]

theorem mature_congr (age : t.door.age = s.door.age) (image : t.image = s.image) : mature t = mature s := by
  unfold mature permitSteps
  rw [age, image]

theorem PermitSame.mature (h : PermitSame s t) : mature t = mature s := mature_congr h.age h.image

theorem PermitSame.judged (h : PermitSame s t) : permitJudged t = permitJudged s := by
  rw [Bool.eq_iff_iff, permitJudged_iff, permitJudged_iff, h.ignition, h.mature, h.source, h.brake]

theorem PermitSame.wired (h : PermitSame s t) (w : ignitionWired s) : ignitionWired t := by
  unfold ignitionWired
  rw [h.image]
  exact w

theorem PermitSame.held (h : PermitSame s t) (a : ageHeld s) : ageHeld t := by
  unfold ageHeld
  rw [h.age, h.motion]
  exact a

theorem PermitSame.backed (h : PermitSame s t) (b : permitBacked s) : permitBacked t := by
  unfold permitBacked
  rw [h.dpermit, h.judged]
  exact b

theorem PermitSame.law (h : PermitSame s t) (l : permitLaw s) : permitLaw t := by
  obtain ⟨wired, held, backed⟩ := (permitLaw_iff s).mp l
  exact (permitLaw_iff t).mpr ⟨h.wired wired, h.held held, h.backed backed⟩

/-! ## Motion -/

theorem handMotion_permit (m : Motion) (s : State) :
    (handMotion m s).door.age = ageAtMotion s.pulse.motion ∧ permitBacked (handMotion m s) := by
  have judged := judgePermit_backed (judgeCycle
    (setDoor { s.door with age := ageAtMotion s.pulse.motion, matureDue := false } s))
  have ages : (doorMotion s).door.age = ageAtMotion s.pulse.motion := by simp [doorMotion, setDoor]
  unfold handMotion
  split
  · refine ⟨by simpa using ages, PermitSame.backed (s := doorMotion s) ⟨?_, ?_, ?_, ?_, ?_, ?_⟩ judged⟩ <;> simp
  · exact ⟨ages, judged⟩

/-- A motion change sets the age and judges the permit; with none the unit stays. -/
theorem setMotion_permit (m : Motion) (s : State) :
    (s.pulse.motion = m ∧ setMotion m s = s) ∨ (ageHeld (setMotion m s) ∧ permitBacked (setMotion m s)) := by
  unfold setMotion
  split
  · exact .inl ⟨‹_›, rfl⟩
  · obtain ⟨age, backed⟩ := handMotion_permit s.pulse.motion (setPulse { s.pulse with
      motion := m, standstillAt := if m = .standstill then some s.time.now else none } s)
    refine .inr ⟨fun a e => ?_, backed⟩
    rw [age] at e
    cases m <;> simp [ageAtMotion, setPulse] at e ⊢
    omega

theorem setMotion_held (m : Motion) (h : ageHeld s) : ageHeld (setMotion m s) := by
  obtain ⟨-, e⟩ | ⟨held, -⟩ := setMotion_permit m s
  · rw [e]
    exact h
  · exact held

theorem judgePermit_held (h : ageHeld s) : ageHeld (judgePermit s) := h

theorem sourceLost_permit (h : ageHeld s) : ageHeld (sourceLost s) ∧ permitBacked (sourceLost s) :=
  ⟨setMotion_held (s := setPulse s.pulse.noSpeed s) _ h, judgePermit_backed _⟩

theorem sourceReturn_permit (h : ageHeld s) : ageHeld (sourceReturn s) ∧ permitBacked (sourceReturn s) :=
  ⟨setMotion_held (s := setPulse _ s) _ h, judgePermit_backed _⟩

theorem takeMaturity_permit (h : permitLaw s) : permitLaw (takeMaturity s) := by
  obtain ⟨wired, held, backed⟩ := (permitLaw_iff s).mp h
  unfold takeMaturity
  split
  · exact (permitLaw_iff _).mpr ⟨wired, held, judgePermit_backed _⟩
  · exact h

/-- The state after a sample of the wire, the source not yet judged. -/
def wireSampled (b : Bool) (s : State) : State :=
  let w := wireStep s.pulse.wireBroken s.pulse.wireRun b s.analog.crankHold
  setPulse { s.pulse with wireBroken := w.1, wireRun := w.2 } s

/-- The state with a k-factor taken, the source not yet judged. -/
def kTaken (k : Nat) (s : State) : State :=
  setPulse { s.pulse with
    acc := if s.pulse.calValid then s.pulse.acc * k / s.pulse.k else 0, k := k, calValid := true } s

theorem sampleWire_eq (b : Bool) (s : State) : sampleWire b s =
    if sourceValid s.pulse ∧ !sourceValid (wireSampled b s).pulse then sourceLost (wireSampled b s)
    else if !sourceValid s.pulse ∧ sourceValid (wireSampled b s).pulse then sourceReturn (wireSampled b s)
    else wireSampled b s := rfl

theorem takeK_eq (k : Nat) (s : State) : takeK k s =
    if !sourceValid s.pulse ∧ sourceValid (kTaken k s).pulse then sourceReturn (kTaken k s)
    else kTaken k s := rfl

theorem sampleWire_permit (b : Bool) (h : permitLaw s) : permitLaw (sampleWire b s) := by
  obtain ⟨wired, held, -⟩ := (permitLaw_iff s).mp h
  have wiredAfter : ignitionWired (sampleWire b s) := by simpa [ignitionWired] using wired
  have heldSampled : ageHeld (wireSampled b s) := held
  rw [sampleWire_eq] at wiredAfter ⊢
  split
  next lost =>
    rw [if_pos lost] at wiredAfter
    exact (permitLaw_iff _).mpr ⟨wiredAfter, sourceLost_permit heldSampled⟩
  next unlost =>
    rw [if_neg unlost] at wiredAfter
    split
    next returned =>
      rw [if_pos returned] at wiredAfter
      exact (permitLaw_iff _).mpr ⟨wiredAfter, sourceReturn_permit heldSampled⟩
    next unreturned =>
      have same : sourceValid (wireSampled b s).pulse = sourceValid s.pulse := by
        cases valid : sourceValid s.pulse <;> simp_all
      exact PermitSame.law (s := s) ⟨rfl, rfl, rfl, same, rfl, rfl⟩ h

theorem takeK_permit (k : Nat) (h : permitLaw s) : permitLaw (takeK k s) := by
  obtain ⟨wired, held, -⟩ := (permitLaw_iff s).mp h
  have wiredAfter : ignitionWired (takeK k s) := by simpa [ignitionWired] using wired
  have heldTaken : ageHeld (kTaken k s) := held
  rw [takeK_eq] at wiredAfter ⊢
  split
  next returned =>
    rw [if_pos returned] at wiredAfter
    exact (permitLaw_iff _).mpr ⟨wiredAfter, sourceReturn_permit heldTaken⟩
  next unreturned =>
    have same : sourceValid (kTaken k s).pulse = sourceValid s.pulse := by
      simp only [kTaken, setPulse, sourceValid] at unreturned ⊢
      cases wire : s.pulse.wireBroken <;> cases cal : s.pulse.calValid <;> simp_all
    exact PermitSame.law (s := s) ⟨rfl, rfl, rfl, same, rfl, rfl⟩ h

/-- The evaluation of a speed leaves the motion state to `setMotion`, and the two causes of the source. -/
theorem evaluate_causes (p : PulseUnit) (now timeout shift : Nat) :
    ((p.evaluate now timeout).1.display shift).motion = p.motion ∧
    ((p.evaluate now timeout).1.display shift).wireBroken = p.wireBroken ∧
    ((p.evaluate now timeout).1.display shift).calValid = p.calValid := by
  have evaluated : (p.evaluate now timeout).1.motion = p.motion ∧
      (p.evaluate now timeout).1.wireBroken = p.wireBroken ∧ (p.evaluate now timeout).1.calValid = p.calValid := by
    unfold PulseUnit.evaluate
    simp only
    split_ifs <;> first | exact ⟨rfl, rfl, rfl⟩ | (split <;> exact ⟨rfl, rfl, rfl⟩)
  unfold PulseUnit.display
  split <;> exact evaluated

theorem evaluateRoad_permit (h : permitLaw s) : permitLaw (evaluateRoad s) := by
  obtain ⟨motion, wire, cal⟩ :=
    evaluate_causes s.pulse s.time.now (pulseParams s.image).timeout (pulseParams s.image).shift
  have displayed : permitLaw (setPulse ((s.pulse.evaluate s.time.now (pulseParams s.image).timeout).1.display
      (pulseParams s.image).shift) s) :=
    PermitSame.law (s := s) ⟨rfl, rfl, motion, by simp [setPulse, sourceValid, wire, cal], rfl, rfl⟩ h
  have wired := ((permitLaw_iff _).mp displayed).1
  simp only [evaluateRoad]
  split
  next m _ =>
    obtain ⟨-, e⟩ | ⟨age, backed⟩ := setMotion_permit m (setPulse ((s.pulse.evaluate s.time.now
      (pulseParams s.image).timeout).1.display (pulseParams s.image).shift) s)
    · rw [e]
      exact displayed
    · exact (permitLaw_iff _).mpr ⟨by simpa [ignitionWired] using wired, age, backed⟩
  next => exact displayed

/-- The engine's evaluation leaves motion and source. -/
theorem evaluateEngine_causes (s : State) : (evaluateEngine s).pulse.motion = s.pulse.motion ∧
    (evaluateEngine s).pulse.wireBroken = s.pulse.wireBroken ∧
    (evaluateEngine s).pulse.calValid = s.pulse.calValid := by
  simp only [evaluateEngine, setPulse, PulseUnit.judgeRunning, PulseUnit.evaluateEngine]
  (repeat' split) <;> simp

/-! ## The age -/

/-- A timer step advances the age towards 200, so a mature standstill stays one (R84). -/
theorem tickAge_permit (h : permitLaw s) : permitLaw (tickAge s) := by
  obtain ⟨wired, held, backed⟩ := (permitLaw_iff s).mp h
  simp only [tickAge]
  split
  next a t age _ =>
    split
    · obtain ⟨le, standstill⟩ := held a age
      refine (permitLaw_iff _).mpr ⟨wired, fun b e => ?_, fun d => ?_⟩
      · obtain rfl : min (a + 1) 200 = b := by simpa [setDoor] using e
        exact ⟨Nat.min_le_right _ _, standstill⟩
      · have before := (permitJudged_iff s).mp (backed d)
        refine (permitJudged_iff _).mpr ⟨before.1, before.2.imp (fun m => ?_) id⟩
        have reached : permitSteps s ≤ a := by simpa [mature, age] using m
        have reaches : permitSteps s ≤ min (a + 1) 200 := by omega
        simpa [mature, setDoor, permitSteps] using reaches
    · exact h
  next => exact h

/-! ## The lines' changes, taken one by one -/

/-- The line is ACTIVE, or was before the sample and its change is among those still to be taken. -/
def due (before : Vector Line 32) (l : List (Fin 32)) (s : State) (n : Fin 32) : Prop :=
  lineState s n = .active ∨ (n ∈ l ∧ before[n].debounced = .active)

/-- PARKING_BRAKE is assigned to a line that is due. -/
def brakeDue (before : Vector Line 32) (l : List (Fin 32)) (s : State) : Prop :=
  ∃ n, lineOfRole s.image .parkingBrake = some n ∧ due before l s n

theorem lineOfRole_role {img : Mem} {r : Role} {n : Fin 32} (h : lineOfRole img r = some n) :
    (lineEntry img n).role = r := by
  simpa using List.find?_some h

theorem ignitionOn_iff (s : State) : ignitionOn s = true ↔ lineState s 0 = .active := by
  simp [ignitionOn]

theorem brakeActive_iff (s : State) : roleActive s .parkingBrake = true ↔
    ∃ n, lineOfRole s.image .parkingBrake = some n ∧ lineState s n = .active := by
  simp [roleActive, roleState]

/-- A change taken is due no longer, unless its line is ACTIVE after it. -/
theorem due_tail {before : Vector Line 32} {l : List (Fin 32)} {n m : Fin 32}
    (h : due before (n :: l) s m) (settled : m = n → before[n].debounced = .active → lineState s n = .active) :
    due before l s m := by
  obtain active | ⟨mem, was⟩ := h
  · exact .inl active
  · obtain rfl | later := List.mem_cons.mp mem
    · exact .inl (settled rfl was)
    · exact .inr ⟨later, was⟩

theorem due_all {before : Vector Line 32} {n : Fin 32} (h : before[n].debounced = .active) :
    due before (List.finRange 32) s n := .inr ⟨List.mem_finRange n, h⟩

theorem due_nil {before : Vector Line 32} {n : Fin 32} (h : due before [] s n) : lineState s n = .active := by
  simpa [due] using h

/-- The permit law while the changes of the lines in `l` are still to be taken. -/
structure PermitDue (before : Vector Line 32) (l : List (Fin 32)) (s : State) : Prop where
  wired : ignitionWired s
  held : ageHeld s
  backed : s.door.dpermit = true →
    due before l s 0 ∧ (mature s = true ∨ (sourceValid s.pulse = false ∧ brakeDue before l s))

theorem PermitDue.of_backed {before : Vector Line 32} (l : List (Fin 32)) (wired : ignitionWired s)
    (held : ageHeld s) (backed : permitBacked s) : PermitDue before l s := by
  refine ⟨wired, held, fun d => ?_⟩
  obtain ⟨on, rest⟩ := (permitJudged_iff s).mp (backed d)
  refine ⟨.inl ((ignitionOn_iff s).mp on), rest.imp_right fun ⟨valid, brake⟩ => ⟨valid, ?_⟩⟩
  obtain ⟨n, assigned, active⟩ := (brakeActive_iff s).mp brake
  exact ⟨n, assigned, .inl active⟩

theorem PermitDue.law {before : Vector Line 32} (h : PermitDue before [] s) : permitLaw s := by
  refine (permitLaw_iff s).mpr ⟨h.wired, h.held, fun d => (permitJudged_iff s).mpr ?_⟩
  obtain ⟨on, rest⟩ := h.backed d
  refine ⟨(ignitionOn_iff s).mpr (due_nil on), rest.imp_right fun ⟨valid, n, assigned, active⟩ => ⟨valid, ?_⟩⟩
  exact (brakeActive_iff s).mpr ⟨n, assigned, due_nil active⟩

theorem PermitSame.due {before : Vector Line 32} {l : List (Fin 32)} (h : PermitSame s t)
    (p : PermitDue before l s) : PermitDue before l t := by
  have lines : lineState t = lineState s := by
    funext n
    simp [lineState, h.sense]
  refine ⟨h.wired p.wired, h.held p.held, fun d => ?_⟩
  simpa [h.mature, h.source, Proofs.due, brakeDue, lines, h.image] using p.backed (h.dpermit ▸ d)

/-- One change taken that leaves the permit: its line is neither SENSE0 in an ignition change nor the brake. -/
theorem PermitDue.tail {before : Vector Line 32} {l : List (Fin 32)} {n : Fin 32} (h : PermitDue before (n :: l) s)
    (ignition : n = 0 → before[n].debounced = .active → lineState s n = .active)
    (brake : (lineEntry s.image n).role = .parkingBrake → before[n].debounced = .active →
      lineState s n = .active) : PermitDue before l s := by
  refine ⟨h.wired, h.held, fun d => ?_⟩
  obtain ⟨on, rest⟩ := h.backed d
  refine ⟨due_tail on fun e => ignition e.symm, rest.imp_right fun ⟨valid, m, assigned, active⟩ =>
    ⟨valid, m, assigned, due_tail active ?_⟩⟩
  rintro rfl
  exact brake (lineOfRole_role assigned)

/-- A role's change judges the permit where it is an ignition change or the brake's, and else leaves what the
permit rests on. -/
theorem deliverChange_permit (r : Role) (old new : LineState) (s : State) :
    (r ≠ .parkingBrake ∧ (r = .ignition → (old = .active ↔ new = .active)) ∧
      PermitSame s (deliverChange r old new s)) ∨
    (ageHeld s → ageHeld (deliverChange r old new s)) ∧ permitBacked (deliverChange r old new s) := by
  cases r
  case ignition =>
    by_cases same : (old = .active) = (new = .active)
    · left
      simp [deliverChange, same, PermitSame.refl]
    · right
      simp only [deliverChange, if_neg same, ignitionChange]
      have judged := fun t => judgePermit_backed (judgeCycle t)
      split
      · exact ⟨fun h => by simpa [ageHeld] using h, judged _⟩
      · refine ⟨fun h => by simpa [ageHeld] using h, ?_⟩
        refine PermitSame.backed (s := doorIgnition (saveTrigger (setNotice .ignition s)))
          ⟨?_, ?_, ?_, ?_, ?_, ?_⟩ (judged _) <;> simp
  case parkingBrake =>
    right
    refine ⟨fun h => ?_, ?_⟩
    · have proxied : ageHeld (brakeProxy s) := by
        unfold brakeProxy
        split
        · exact h
        · exact setMotion_held _ h
      simpa [deliverChange, brakeChange, ageHeld] using proxied
    · have judged := judgePermit_backed (brakeProxy s)
      simp only [deliverChange, brakeChange, brakeConsumers]
      split
      · refine PermitSame.backed (s := judgePermit (brakeProxy s)) ⟨?_, ?_, ?_, ?_, ?_, ?_⟩ judged <;> simp
      · exact judged
  all_goals
    left
    refine ⟨by simp, by simp, ?_⟩
    simp only [deliverChange]
    (try split) <;> constructor <;> simp

theorem finish_permit (s t : State) : PermitSame t (finish s t) := by
  constructor <;> simp [finish]

theorem lineEvent_permit {before : Vector Line 32} {l : List (Fin 32)} {n : Fin 32}
    (h : PermitDue before (n :: l) s) : PermitDue before l (lineEvent before s n) := by
  unfold lineEvent deliverLine
  split
  next unchanged => exact h.tail (fun _ was => unchanged ▸ was) (fun _ was => unchanged ▸ was)
  next changed =>
    refine (finish_permit s _).due ?_
    simp only [changed, if_false]
    obtain ⟨notBrake, ignition, same⟩ | ⟨held, backed⟩ := deliverChange_permit (lineEntry s.image n).role
      before[n].debounced (lineState s n) s
    · refine same.due (h.tail (fun zero was => ?_) fun brake => absurd brake notBrake)
      exact (ignition (zero ▸ h.wired)).mp was
    · exact .of_backed l (by simpa [ignitionWired] using h.wired) (held h.held) backed

theorem lineEvents_permit {before : Vector Line 32} : ∀ (l : List (Fin 32)) {s : State}, PermitDue before l s →
    PermitDue before [] (l.foldl (lineEvent before) s)
  | [], _, h => h
  | _ :: l, _, h => lineEvents_permit l (lineEvent_permit h)

/-- The lines as sampled: the permit rests on the lines as they were, whose changes are all still to be taken. -/
theorem sampled_permit (r : Vector Sample 32) (h : permitLaw s) :
    PermitDue s.sense.lines (List.finRange 32) (publishSense s (sampleLines r s)) := by
  obtain ⟨wired, held, backed⟩ := (permitLaw_iff s).mp h
  refine ⟨by simpa [ignitionWired] using wired, by simpa [ageHeld] using held, fun d => ?_⟩
  obtain ⟨on, rest⟩ := (permitJudged_iff s).mp (backed (by simpa using d))
  refine ⟨due_all ((ignitionOn_iff s).mp on), rest.imp (mature_congr (by simp) (by simp)).trans ?_⟩
  rintro ⟨valid, brake⟩
  obtain ⟨n, assigned, active⟩ := (brakeActive_iff s).mp brake
  exact ⟨by simpa using valid, n, by simpa using assigned, due_all active⟩

theorem takeLines_permit (r : Vector Sample 32) (h : permitLaw s) : permitLaw (takeLines r s) :=
  (lineEvents_permit _ (sampled_permit r h)).law

theorem wireEvent_permit (b : Bool) (h : permitLaw s) : permitLaw (wireEvent b s) := by
  refine PermitSame.law (s := sampleWire b s) ?_ (sampleWire_permit b h)
  constructor <;> simp [wireEvent]

theorem sensed_permit (r : Vector Sample 32) (b : Bool) (v : Vector Sample 6) (h : permitLaw s) :
    permitLaw (sensed r b v s) := by
  refine PermitSame.law (s := wireEvent b (takeLines r s)) ?_ (wireEvent_permit b (takeLines_permit r h))
  constructor <;> simp [sensed]

/-! ## Adoption -/

theorem adoptedLine_permit (before : Vector Line 32) (n : Fin 32) (h : ageHeld s) :
    ageHeld (adoptedLine before s n) := by
  have aged : (adoptedLine before s n).door.age = s.door.age := by
    simp only [adoptedLine]
    split
    · rfl
    · unfold deliverAdopted
      split
      · simp
      next notBrake =>
        generalize (lineEntry s.image n).role = r at notBrake ⊢
        cases r <;> simp [deliverChange] at notBrake ⊢ <;> split <;> simp
  simpa [ageHeld, aged] using h

theorem adoptedLines_permit (before : Vector Line 32) (h : ageHeld s) : ageHeld (adoptedLines before s) :=
  List.foldlRecOn (motive := ageHeld) _ _ h fun _ h n _ => adoptedLine_permit before n h

/-- An adoption judges the permit against the new image, and leaves motion and standstill age (R89). -/
theorem adoptImage_permit {image : Mem} (valid : firstFailing image = none) (held : ageHeld s) :
    permitLaw (adoptImage image s) := by
  have lines : ageHeld (adoptedLines s.sense.lines (adoptLines image s)) :=
    adoptedLines_permit s.sense.lines (by simpa [ageHeld] using held)
  have wired : ignitionWired (adoptImage image s) := by
    simpa [ignitionWired, adoptImage, installImage] using valid_wired valid
  refine (permitLaw_iff _).mpr ⟨wired, ?_, ?_⟩
  · simpa [adoptImage, installImage, ageHeld] using lines
  · refine PermitSame.backed (s := adoptDoors s.image (installImage image
      (adoptedLines s.sense.lines (adoptLines image s)))) ?_ ?_
    · constructor <;> simp only [adoptImage, adoptWarnings_frame, adoptAnalog_frame]
    · unfold adoptDoors
      exact judgePermit_backed _

theorem takeAdoption_permit (valid : firstFailing (stagingImage s) = none) (h : permitLaw s) :
    permitLaw (takeAdoption s) := by
  refine PermitSame.law (s := adoptImage (stagingImage s) s) ?_
    (adoptImage_permit valid ((permitLaw_iff s).mp h).2.1)
  constructor <;> simp [takeAdoption]

theorem gauges_permit (h : permitLaw s) :
    permitLaw (countSweep (handOver (judgeAnalog (evaluateEngine s)))) := by
  obtain ⟨motion, wire, cal⟩ := evaluateEngine_causes s
  refine PermitSame.law (s := s) ⟨?_, ?_, ?_, ?_, ?_, ?_⟩ h <;> simp [motion, sourceValid, wire, cal]

theorem timer_permit (h : permitLaw s) : permitLaw (stepTimers s) := by
  have warned : permitLaw (tickWarnings s) := by
    refine PermitSame.law (s := s) ?_ h
    constructor <;> simp
  refine PermitSame.law (s := tickAge (tickWarnings s)) ?_ (tickAge_permit warned)
  constructor <;> simp [stepTimers]

end Same

theorem permitLaw_kept : Kept permitLaw := by
  constructor
  case sense => exact fun r b v s h => sensed_permit r b v (s := atSense s) h
  case timer => exact fun s h => timer_permit (s := atStep s) h
  case mature => exact fun s h => takeMaturity_permit h
  case road => exact fun s h => evaluateRoad_permit h
  case gauges => exact fun s h => gauges_permit h
  case adopts => exact fun s passed h => takeAdoption_permit (adoptCheck_valid passed) h
  case kFactor =>
    intro x k s _ h
    refine PermitSame.law (s := takeK k s) ?_ (takeK_permit k h)
    constructor <;> simp [takeKFactor]
  all_goals
    intros
    rename_i h
    refine PermitSame.law ?_ h
    constructor <;> simp [setArbiter, setPulse, setWindowOp, sourceValid]

theorem restart_permit (s : State) : permitLaw (restart s) := by
  have door : (restart s).door.dpermit = false ∧ (restart s).door.age = none := by
    simp only [restart]
    split <;> simp [recovered, State.reset]
  refine (permitLaw_iff _).mpr ⟨?_, fun a e => ?_, fun d => ?_⟩
  · rw [ignitionWired, restart_image]
    exact valid_wired (recovered_valid _ _)
  · simp [door.2] at e
  · simp [door.1] at d

/-- Settles O60: every event that can end what DPERMIT rests on judges it anew, a sample's lines one by one. -/
theorem stepKeepsPermitLaw : Obligations.StepKeepsPermitLaw :=
  permitLaw_kept.step (fun _ _ h => h) fun s _ => restart_permit s

end Sys2Proof.Proofs

/-! The test law at every step: whatever ends a condition of a running test ends the test. -/

namespace Sys2Proof.Proofs

open Sys2Proof Sys2Proof.Machine Sys2Proof.Safety

/-! ## The role of a line in a valid image -/

theorem allBelow_of {n : Nat} {p : Nat → Bool} (h : allBelow n p = true) {i : Nat} (low : i < n) : p i = true :=
  List.all_eq_true.mp h i (List.mem_range.mpr low)

/-- A valid image gives a role other than GENERAL and UNUSED to one line at most (item 4 of R179). -/
theorem valid_role_unique {img : Mem} (valid : firstFailing img = none) {r : Role} (general : r ≠ .general)
    (unused : r ≠ .unused) {n m : Fin 32} (hn : (lineEntry img n).role = r) (hm : (lineEntry img m).role = r) :
    n = m := by
  have item := valid_item valid (i := 4) (by omega) (by omega)
  simp only [validationItem, if_true, if_false, Nat.reduceEqDiff] at item
  have later : ∀ {a b : Fin 32}, (lineEntry img a).role = r → (lineEntry img b).role = r → ¬ a.val < b.val := by
    intro a b ha hb lt
    have once := allBelow_of item b.isLt
    rw [lineEntry_role] at ha hb
    rw [hb] at once
    simp only [general, unused, decide_false, Bool.false_or] at once
    simpa [ha] using allBelow_of once lt
  exact Fin.ext (Nat.le_antisymm (not_lt.mp (later hm hn)) (not_lt.mp (later hn hm)))

theorem valid_lineOfRole {img : Mem} (valid : firstFailing img = none) {r : Role} (general : r ≠ .general)
    (unused : r ≠ .unused) {n : Fin 32} (hn : (lineEntry img n).role = r) : lineOfRole img r = some n := by
  cases found : lineOfRole img r with
  | none => exact absurd hn (by simpa using List.find?_eq_none.mp found n (List.mem_finRange n))
  | some m => rw [valid_role_unique valid general unused (lineOfRole_role found) hn]

/-! ## What ends a test -/

theorem endTest_test (r : Option AbortReason) (s : State) : (endTest r s).out.test = none := by
  unfold endTest
  split
  next idle => exact idle
  next => cases r <;> simp

theorem abortTest_test (r : AbortReason) (s : State) : (abortTest r s).out.test = none := endTest_test _ s

theorem abortTestOf_test {x : Side} {r : AbortReason} {s : State} {t : OutputTest}
    (h : (abortTestOf x r s).out.test = some t) : s.out.test = some t ∧ t.side ≠ x := by
  unfold abortTestOf at h
  split at h
  next y running =>
    split at h
    · simp [abortTest_test] at h
    next other =>
      obtain rfl : y = t := by simpa [running] using h
      exact ⟨running, other⟩
  next idle => simp [idle] at h

/-- No STOP warning is in ACTIVE_UNACK. -/
def NoStop (img : Mem) (ws : Vector Warning 48) : Prop :=
  ∀ w : Fin 48, ws[w].state = .activeUnack → (warningDef img w).cls ≠ .stop

theorem NoStop.set {img : Mem} {ws : Vector Warning 48} (h : NoStop img ws) {w : Fin 48} {x : Warning}
    (quiet : x.state = .activeUnack → ws[w].state = .activeUnack ∨ (warningDef img w).cls ≠ .stop) :
    NoStop img (ws.set w.val x w.isLt) := by
  intro v active
  by_cases same : w = v
  · subst same
    simp only [Fin.getElem_fin, Vector.getElem_set_self] at active
    exact (quiet active).elim (h w) id
  · rw [Fin.getElem_fin, Vector.getElem_set_ne _ _ (fun e => same (Fin.ext e))] at active
    exact h v active

theorem NoStop.of_states {img : Mem} {ws vs : Vector Warning 48} (h : NoStop img ws)
    (same : ∀ w : Fin 48, vs[w].state = ws[w].state) : NoStop img vs :=
  fun w active => h w (same w ▸ active)

theorem stopUnack_iff (s : State) : stopUnack s = false ↔ NoStop s.image s.warn.warnings := by
  simp [stopUnack, NoStop]

/-- A test that runs in `t` ran in `s`, and what it rests on there stands in `t`. -/
structure TestLess (s t : State) : Prop where
  sense : t.sense = s.sense
  image : t.image = s.image
  running : ∀ x, t.out.test = some x → ∃ y, s.out.test = some y ∧ y.side = x.side
  motion : t.out.test ≠ none → s.pulse.motion = .standstill → t.pulse.motion = .standstill
  noStop : t.out.test ≠ none → NoStop s.image s.warn.warnings → NoStop s.image t.warn.warnings
  claim : ∀ x, t.out.test = some x →
    s.win.claims.outputs = sideHolder x.side → t.win.claims.outputs = sideHolder x.side

section Less

variable {s t u : State}

theorem TestLess.refl : TestLess s s := ⟨rfl, rfl, fun x h => ⟨x, h, rfl⟩, fun _ h => h, fun _ h => h, fun _ _ h => h⟩

theorem TestLess.trans (h : TestLess s t) (g : TestLess t u) : TestLess s u := by
  have ran : u.out.test ≠ none → t.out.test ≠ none := fun run => by
    obtain ⟨x, ran⟩ := Option.ne_none_iff_exists'.mp run
    obtain ⟨y, ran, -⟩ := g.running x ran
    simp [ran]
  refine ⟨g.sense.trans h.sense, g.image.trans h.image, fun x hx => ?_, fun run m => g.motion run (h.motion (ran run) m),
    fun run m => h.image ▸ g.noStop run (h.image ▸ h.noStop (ran run) m), fun x hx held => ?_⟩
  · obtain ⟨y, hy, side⟩ := g.running x hx
    obtain ⟨z, hz, side'⟩ := h.running y hy
    exact ⟨z, hz, side'.trans side⟩
  · obtain ⟨y, hy, side⟩ := g.running x hx
    exact g.claim x hx (side ▸ h.claim y hy (side ▸ held))

/-- An operation that touches none of what a test rests on. -/
theorem TestLess.same (sense : t.sense = s.sense) (image : t.image = s.image) (test : t.out.test = s.out.test)
    (motion : t.pulse.motion = s.pulse.motion) (warnings : t.warn.warnings = s.warn.warnings)
    (claim : t.win.claims = s.win.claims) : TestLess s t :=
  ⟨sense, image, fun x h => ⟨x, test ▸ h, rfl⟩, fun _ h => motion ▸ h, fun _ h => warnings ▸ h,
    fun _ _ h => claim ▸ h⟩

theorem TestLess.ended (sense : t.sense = s.sense) (image : t.image = s.image) (test : t.out.test = none) :
    TestLess s t :=
  ⟨sense, image, fun _ h => by simp [test] at h, fun run => absurd test run, fun run => absurd test run,
    fun _ h => by simp [test] at h⟩

theorem endTest_less (r : Option AbortReason) (s : State) : TestLess s (endTest r s) :=
  .ended (by simp) (by simp) (endTest_test r s)

theorem abortTest_less (r : AbortReason) (s : State) : TestLess s (abortTest r s) := endTest_less _ s

/-- The claims of one side are lost, and its test is ended. -/
theorem TestLess.loses {x : Side} (sense : t.sense = s.sense) (image : t.image = s.image)
    (motion : t.pulse.motion = s.pulse.motion) (warnings : t.warn.warnings = s.warn.warnings)
    (test : ∀ y, t.out.test = some y → s.out.test = some y ∧ y.side ≠ x)
    (claim : t.win.claims.holder .outputs = (s.win.claims.holder .outputs).dropped (sideHolder x)) :
    TestLess s t := by
  refine ⟨sense, image, fun y h => ⟨y, (test y h).1, rfl⟩, fun _ h => motion ▸ h, fun _ h => warnings ▸ h,
    fun y h held => ?_⟩
  have other : sideHolder y.side ≠ sideHolder x := by
    have sides := (test y h).2
    revert sides
    cases y.side <;> cases x <;> simp [sideHolder]
  change t.win.claims.holder .outputs = _
  rw [claim, show s.win.claims.holder .outputs = _ from held, Holder.dropped, if_neg other]

/-! ## Warnings -/

theorem setWarning_less {w : Fin 48} {x : Warning} (quiet : x.state = .activeUnack →
    s.warn.warnings[w].state = .activeUnack ∨ (warningDef s.image w).cls ≠ .stop) :
    TestLess s (setWarning w x s) :=
  ⟨rfl, rfl, fun x h => ⟨x, h, rfl⟩, fun _ h => h, fun _ h => h.set quiet, fun _ _ h => h⟩

/-- An onset of STOP ends the test (R118); one of another class leaves what a test rests on. -/
theorem onset_less (w : Fin 48) (s : State) : TestLess s (onset w s) := by
  by_cases stop : (warningDef s.image w).cls = .stop
  · exact .ended (by simp) (by simp) (by simp [onset, stop, abortTest_test])
  · have entered : TestLess s (setWarning w (s.warn.warnings[w].atOnset s.warn.nextNumber s.time.now) s) :=
      setWarning_less fun _ => .inr stop
    refine entered.trans ?_
    simp only [onset]
    cases cls : (warningDef s.image w).cls with
    | stop => exact absurd cls stop
    | caution => dsimp only; split <;> apply TestLess.same <;> simp [enterList]
    | info => dsimp only; split <;> apply TestLess.same <;> simp [enterList]

theorem leaveList_less (w : Fin 48) (s : State) : TestLess s (leaveList w s) := by
  refine (setWarning_less (w := w) (x := s.warn.warnings[w].toInactive) ?_).trans ?_
  · simp [Warning.toInactive]
  · apply TestLess.same <;> simp [leaveList_warn, setWarning, returned, Warning.toInactive]

theorem restate_less (w : Fin 48) {st : WarnState} (quiet : st ≠ .activeUnack) (s : State) :
    TestLess s (restate w st s) := by
  refine (setWarning_less (w := w) (x := { s.warn.warnings[w] with state := st }) (fun e => absurd e quiet)).trans ?_
  apply TestLess.same <;> simp [restate]

theorem acknowledge_less (s : State) (w : Fin 48) : TestLess s (acknowledge s w) := by
  unfold acknowledge
  split
  · exact restate_less w (by simp) s
  · exact leaveList_less w s
  all_goals exact .refl

theorem moveWarning_less (w : Fin 48) (d : WarningDef) (c : Bool) (s : State) :
    TestLess s (moveWarning w d c s) := by
  simp only [moveWarning]
  split
  case h_1 =>
    split
    · split
      · exact onset_less w s
      · exact setWarning_less (by simp)
    · exact .refl
  case h_2 =>
    split
    · exact .refl
    · exact setWarning_less (by simp [Warning.toInactive])
  case h_3 =>
    split
    · exact .refl
    · split
      · exact restate_less w (by simp) s
      · exact leaveList_less w s
  case h_4 =>
    split
    · exact .refl
    · exact leaveList_less w s
  case h_5 =>
    split
    · exact onset_less w s
    · exact .refl

theorem judgeWarning_less (s : State) (w : Fin 48) : TestLess s (judgeWarning s w) := by
  simp only [judgeWarning]
  split
  · refine TestLess.trans ?_ (moveWarning_less _ _ _ _)
    exact setWarning_less fun h => .inl h
  · exact .refl

theorem judgeAll_less (s : State) : TestLess s (judgeAll s) :=
  List.foldlRecOn (motive := TestLess s) _ _ .refl fun t h w _ => h.trans (judgeWarning_less t w)

theorem finish_less (s t : State) : TestLess t (finish s t) := by
  refine (judgeAll_less t).trans ?_
  apply TestLess.same <;> simp [finish]

theorem settle_less (b : Bool) (s t : State) : TestLess t (settle b s t) := by
  unfold settle
  split
  · exact finish_less s t
  · apply TestLess.same <;> simp

theorem pressAck_less (s : State) : TestLess s (pressAck s) := by
  unfold pressAck
  split
  · exact acknowledge_less s _
  · exact .refl

theorem onsetExpiry_less (w : Fin 48) (s : State) : TestLess s (onsetExpiry w s) := by
  simp only [onsetExpiry]
  split
  · exact onset_less w s
  · exact .refl

/-! ## Motion -/

theorem handMotion_test (old : Motion) (s : State) :
    (handMotion old s).out.test = if old = .standstill then none else s.out.test := by
  simp only [handMotion]
  split
  · exact abortTest_test _ _
  · simp

/-- Leaving STANDSTILL ends the test (R119). -/
theorem setMotion_less (m : Motion) (s : State) : TestLess s (setMotion m s) := by
  unfold setMotion
  split
  · exact .refl
  · by_cases still : s.pulse.motion = .standstill
    · exact .ended (by simp [setPulse]) (by simp [setPulse]) (by rw [handMotion_test, if_pos still])
    · refine ⟨by simp [setPulse], by simp [setPulse], fun x h => ⟨x, ?_, rfl⟩, fun _ left => absurd left still,
        fun _ h => by simpa [setPulse] using h, fun _ _ h => by simpa [setPulse] using h⟩
      rw [handMotion_test, if_neg still] at h
      exact h

theorem setPulse_less {p : PulseUnit} (motion : p.motion = s.pulse.motion) : TestLess s (setPulse p s) :=
  .same rfl rfl rfl motion rfl rfl

theorem judgePermit_less (s : State) : TestLess s (judgePermit s) := .same rfl rfl rfl rfl rfl rfl

/-- The source judged: the motion state set after the channel, then the permit. -/
theorem sourceJudged_less {p : PulseUnit} (m : Motion) (motion : p.motion = s.pulse.motion) :
    TestLess s (judgePermit (setMotion m (setPulse p s))) :=
  ((setPulse_less motion).trans (setMotion_less _ _)).trans (judgePermit_less _)

theorem sourceLost_less (s : State) : TestLess s (sourceLost s) := sourceJudged_less _ rfl

theorem sourceReturn_less (s : State) : TestLess s (sourceReturn s) := sourceJudged_less _ rfl

theorem sampleWire_less (b : Bool) (s : State) : TestLess s (sampleWire b s) := by
  have sampled : TestLess s (wireSampled b s) := setPulse_less rfl
  rw [sampleWire_eq]
  split
  · exact sampled.trans (sourceLost_less _)
  · split
    · exact sampled.trans (sourceReturn_less _)
    · exact sampled

theorem takeK_less (k : Nat) (s : State) : TestLess s (takeK k s) := by
  have taken : TestLess s (kTaken k s) := setPulse_less rfl
  rw [takeK_eq]
  split
  · exact taken.trans (sourceReturn_less _)
  · exact taken

theorem evaluateRoad_less (s : State) : TestLess s (evaluateRoad s) := by
  have displayed := setPulse_less (s := s) (evaluate_causes s.pulse s.time.now (pulseParams s.image).timeout
    (pulseParams s.image).shift).1
  simp only [evaluateRoad]
  split
  · exact displayed.trans (setMotion_less _ _)
  · exact displayed

theorem wireEvent_less (b : Bool) (s : State) : TestLess s (wireEvent b s) :=
  (sampleWire_less b s).trans (settle_less _ _ _)

/-! ## A line's change -/

theorem brakeConsumers_less (old : LineState) (s : State) : TestLess s (brakeConsumers old s) := by
  refine (judgePermit_less s).trans ?_
  simp only [brakeConsumers]
  split
  · exact abortTest_less _ _
  · exact .refl

theorem brakeConsumers_active (s : State) : (brakeConsumers .active s).out.test = none := by
  simp [brakeConsumers, abortTest_test]

theorem deliverChange_less (r : Role) (old new : LineState) (s : State) : TestLess s (deliverChange r old new s) := by
  cases r
  case ignition =>
    simp only [deliverChange]
    split
    · exact .refl
    · simp only [ignitionChange]
      split
      · apply TestLess.same <;> simp
      · refine (abortTest_less .ignitionOff s).trans (.ended ?_ ?_ ?_) <;> simp [abortTest_test, resetQuick]
  case parkingBrake =>
    have proxied : TestLess s (brakeProxy s) := by
      unfold brakeProxy
      split
      · exact .refl
      · exact setMotion_less _ s
    exact proxied.trans (brakeConsumers_less old _)
  case ackButton =>
    simp only [deliverChange]
    split
    · exact pressAck_less s
    · exact .refl
  all_goals
    simp only [deliverChange]
    (try split) <;> apply TestLess.same <;> simp

/-- PARKING_BRAKE and IGNITION leaving ACTIVE end the test (R118, R119). -/
theorem deliverChange_ends {r : Role} (role : r = .parkingBrake ∨ r = .ignition) {new : LineState}
    (left : new ≠ .active) (s : State) : (deliverChange r .active new s).out.test = none := by
  obtain rfl | rfl := role
  · exact brakeConsumers_active _
  · simp [deliverChange, ignitionChange, left, resetQuick, abortTest_test]

/-! ## The lines' changes, taken one by one -/

/-- The test law while the changes of the lines in `l` are still to be taken. -/
structure TestDue (before : Vector Line 32) (l : List (Fin 32)) (s : State) : Prop where
  wired : ignitionWired s
  powered : s.out.test ≠ none → due before l s 0 ∧ brakeDue before l s
  motion : s.out.test ≠ none → s.pulse.motion = .standstill
  noStop : s.out.test ≠ none → NoStop s.image s.warn.warnings
  claim : ∀ x, s.out.test = some x → s.win.claims.outputs = sideHolder x.side

theorem testLaw_iff (before : Vector Line 32) (s : State) : testLaw s ↔ TestDue before [] s := by
  have lines : (due before [] s 0 ↔ ignitionOn s = true) ∧ (brakeDue before [] s ↔ roleActive s .parkingBrake = true) := by
    rw [ignitionOn_iff, brakeActive_iff]
    simp [due, brakeDue]
  constructor
  · rintro ⟨wired, tests⟩
    have runs : ∀ {p : Prop}, (∀ x, s.out.test = some x → p) → s.out.test ≠ none → p := fun h run => by
      obtain ⟨x, e⟩ := Option.ne_none_iff_exists'.mp run
      exact h x e
    exact ⟨wired, runs fun x e => ⟨lines.1.mpr (tests x e).1, lines.2.mpr (tests x e).2.2.1⟩,
      runs fun x e => (tests x e).2.1, runs fun x e => (tests x e).2.2.2.1, fun x e => (tests x e).2.2.2.2⟩
  · rintro ⟨wired, powered, motion, noStop, claim⟩
    refine ⟨wired, fun x e => ?_⟩
    have run : s.out.test ≠ none := by simp [e]
    exact ⟨lines.1.mp (powered run).1, motion run, lines.2.mp (powered run).2, noStop run, claim x e⟩

theorem TestLess.due {before : Vector Line 32} {l : List (Fin 32)} (h : TestLess s t) (d : TestDue before l s) :
    TestDue before l t := by
  have lines : lineState t = lineState s := by
    funext n
    simp [lineState, h.sense]
  have ran : t.out.test ≠ none → s.out.test ≠ none := fun run => by
    obtain ⟨x, e⟩ := Option.ne_none_iff_exists'.mp run
    obtain ⟨y, e, -⟩ := h.running x e
    simp [e]
  refine ⟨by simpa [ignitionWired, h.image] using d.wired, fun run => ?_, fun run => h.motion run (d.motion (ran run)),
    fun run => h.image ▸ h.noStop run (d.noStop (ran run)), fun x e => ?_⟩
  · simpa [Proofs.due, brakeDue, lines, h.image] using d.powered (ran run)
  · obtain ⟨y, ran, side⟩ := h.running x e
    exact h.claim x e (side ▸ d.claim y ran)

theorem TestLess.law (h : TestLess s t) (l : testLaw s) : testLaw t :=
  (testLaw_iff s.sense.lines t).mpr (h.due ((testLaw_iff _ s).mp l))

theorem TestDue.tail {before : Vector Line 32} {l : List (Fin 32)} {n : Fin 32} (h : TestDue before (n :: l) s)
    (settled : s.out.test ≠ none → (lineEntry s.image n).role = .parkingBrake ∨ (lineEntry s.image n).role = .ignition →
      before[n].debounced = .active → lineState s n = .active) : TestDue before l s := by
  refine ⟨h.wired, fun run => ?_, h.motion, h.noStop, h.claim⟩
  obtain ⟨on, m, assigned, active⟩ := h.powered run
  refine ⟨due_tail on ?_, m, assigned, due_tail active ?_⟩
  · rintro rfl
    exact settled run (.inr h.wired)
  · rintro rfl
    exact settled run (.inl (lineOfRole_role assigned))

/-- One change taken by its line's role, PARKING_BRAKE and IGNITION ending the test as they leave ACTIVE. -/
theorem TestDue.taken {before : Vector Line 32} {l : List (Fin 32)} {n : Fin 32} (h : TestDue before (n :: l) s)
    (less : TestLess s t)
    (ends : (lineEntry s.image n).role = .parkingBrake ∨ (lineEntry s.image n).role = .ignition →
      before[n].debounced = .active → lineState s n ≠ .active → t.out.test = none) : TestDue before l t := by
  have state : lineState t n = lineState s n := by simp [lineState, less.sense]
  refine (less.due h).tail fun run role was => ?_
  by_contra left
  exact run (ends (less.image ▸ role) was (state ▸ left))

theorem lineEvent_test {before : Vector Line 32} {l : List (Fin 32)} {n : Fin 32}
    (h : TestDue before (n :: l) s) : TestDue before l (lineEvent before s n) := by
  unfold lineEvent deliverLine
  split
  next unchanged => exact h.tail fun _ _ was => unchanged ▸ was
  next changed =>
    refine (finish_less s _).due ?_
    simp only [changed, if_false]
    refine h.taken (deliverChange_less _ _ _ s) fun role was left => ?_
    rw [was]
    exact deliverChange_ends role left s

theorem adoptedLine_test {before : Vector Line 32} {l : List (Fin 32)} {n : Fin 32}
    (h : TestDue before (n :: l) s) : TestDue before l (adoptedLine before s n) := by
  simp only [adoptedLine, deliverAdopted]
  split
  next unchanged => exact h.tail fun _ _ was => unchanged ▸ was
  next changed =>
    split
    next brake =>
      refine h.taken (brakeConsumers_less _ s) fun _ was _ => ?_
      rw [was]
      exact brakeConsumers_active s
    next other =>
      refine h.taken (deliverChange_less _ _ _ s) fun role was left => ?_
      rw [was]
      exact deliverChange_ends role left s

theorem testDue_fold {before : Vector Line 32} {f : State → Fin 32 → State}
    (h : ∀ s n l, TestDue before (n :: l) s → TestDue before l (f s n)) :
    ∀ (l : List (Fin 32)) (s : State), TestDue before l s → TestDue before [] (l.foldl f s)
  | [], _, d => d
  | n :: l, s, d => testDue_fold h l _ (h s n l d)

/-- The lines stand anew: a test rests on the lines as they were, whose changes are all still to be taken. -/
theorem testLaw_due {lines : Vector Line 32} (l : testLaw s) :
    TestDue s.sense.lines (List.finRange 32) { s with sense := { s.sense with lines := lines } } := by
  obtain ⟨wired, powered, motion, noStop, claim⟩ := (testLaw_iff s.sense.lines s).mp l
  refine ⟨wired, fun run => ?_, motion, noStop, claim⟩
  obtain ⟨on, n, assigned, active⟩ := powered run
  exact ⟨due_all (due_nil on), n, assigned, due_all (due_nil active)⟩

theorem takeLines_test (r : Vector Sample 32) (h : testLaw s) : testLaw (takeLines r s) := by
  refine (testLaw_iff s.sense.lines _).mpr (testDue_fold (fun s n l => lineEvent_test) _ _ ?_)
  refine TestLess.due (s := sampleLines r s) ?_ (testLaw_due h)
  apply TestLess.same <;> simp

theorem sensed_test (r : Vector Sample 32) (b : Bool) (v : Vector Sample 6) (h : testLaw s) :
    testLaw (sensed r b v s) := by
  refine TestLess.law ?_ (takeLines_test r h)
  refine (wireEvent_less b _).trans ?_
  apply TestLess.same <;> simp [sensed]

/-! ## Adoption -/

theorem clearWarnings_inactive (m : Mem) (s : State) (w : Fin 48) :
    (clearWarnings m s).warn.warnings[w].state = .inactive := by
  simp [clearWarnings, Warning.adopted, Warning.toInactive]

/-- A line that is ACTIVE after an adoption, SENSE0 apart, kept its entry. -/
theorem adoptLines_active {image : Mem} {n : Fin 32} (notFirst : n ≠ 0)
    (active : lineState (adoptLines image s) n = .active) : lineEntry image n = lineEntry s.image n := by
  by_contra changed
  simp [lineState, adoptLines, Ne.symm changed, Line.adopted, notFirst] at active

/-- An adoption ends the test where PARKING_BRAKE changes its entry; where it does not, the new image assigns it to
the same line, as it assigns SENSE0 the ignition. -/
theorem adopted_powered {image : Mem} (valid : firstFailing image = none) (h : testLaw s)
    (run : (adoptedLines s.sense.lines (adoptLines image s)).out.test ≠ none) :
    lineState (adoptLines image s) 0 = .active ∧
    ∃ n, lineOfRole image .parkingBrake = some n ∧ lineState (adoptLines image s) n = .active := by
  have taken : TestDue s.sense.lines [] (adoptedLines s.sense.lines (adoptLines image s)) :=
    testDue_fold (fun s n l => adoptedLine_test) _ _ (testLaw_due h)
  have lines : ∀ n, due s.sense.lines [] (adoptedLines s.sense.lines (adoptLines image s)) n →
      lineState (adoptLines image s) n = .active := fun n d => by simpa [lineState] using due_nil d
  obtain ⟨on, n, assigned, brake⟩ := taken.powered run
  have role : (lineEntry s.image n).role = .parkingBrake := by simpa using lineOfRole_role assigned
  have notFirst : n ≠ 0 := by
    rintro rfl
    have wired : (lineEntry s.image 0).role = .ignition := h.1
    rw [wired] at role
    cases role
  refine ⟨lines 0 on, n, valid_lineOfRole valid (by simp) (by simp) ?_, lines n brake⟩
  rw [adoptLines_active notFirst (lines n brake), role]

theorem adoptedLines_running (image : Mem) (s : State) : TestLess (adoptLines image s)
    (adoptedLines s.sense.lines (adoptLines image s)) := by
  refine List.foldlRecOn (motive := TestLess (adoptLines image s)) _ _ .refl fun t less n _ => less.trans ?_
  simp only [adoptedLine, deliverAdopted]
  split
  · exact .refl
  · split
    · exact brakeConsumers_less _ t
    · exact deliverChange_less _ _ _ t

theorem judgeGauges_state (s : State) (w : Fin 48) :
    (judgeGauges s).warn.warnings[w].state = s.warn.warnings[w].state := by
  simp only [judgeGauges, Vector.getElem_ofFn, Fin.getElem_fin]
  split <;> rfl

/-- The state of an adoption before the judgement: the new image with its lines' changes taken and no warning. -/
theorem adopted_law {image : Mem} (valid : firstFailing image = none) (h : testLaw s) (newImage : t.image = image)
    (sense : t.sense = (adoptLines image s).sense)
    (test : t.out.test = (adoptedLines s.sense.lines (adoptLines image s)).out.test)
    (motion : t.pulse.motion = s.pulse.motion) (claims : t.win.claims = s.win.claims)
    (states : ∀ w : Fin 48, t.warn.warnings[w].state = .inactive) : testLaw t := by
  have lines : lineState t = lineState (adoptLines image s) := by
    funext n
    simp [lineState, sense]
  refine ⟨by simpa [ignitionWired, newImage] using valid_wired valid, fun x running => ?_⟩
  rw [test] at running
  obtain ⟨on, n, assigned, brake⟩ := adopted_powered valid h (by simp [running])
  obtain ⟨y, before, side⟩ := (adoptedLines_running image s).running x running
  have ran : s.out.test = some y := before
  have facts := h.2 y ran
  obtain ⟨-, still, -, -, claim⟩ := facts
  have ignition : ignitionOn t = true := by rw [ignitionOn_iff, lines, on]
  have parked : roleActive t .parkingBrake = true := by
    rw [brakeActive_iff, newImage, lines]
    exact ⟨n, assigned, brake⟩
  have quiet : ∀ w : Fin 48, t.warn.warnings[w].state = .activeUnack → (warningDef t.image w).cls ≠ .stop :=
    fun w active => absurd ((states w).symm.trans active) (by simp)
  exact ⟨ignition, motion.trans still, parked, quiet, by rw [claims, claim, side]⟩

/-- The warnings are judged afresh after an adoption, from a list without any (R108). -/
theorem adoptImage_test {image : Mem} (valid : firstFailing image = none) (h : testLaw s) :
    testLaw (adoptImage image s) := by
  unfold adoptImage adoptWarnings
  refine TestLess.law (judgeAll_less _) (adopted_law valid h ?_ ?_ ?_ ?_ ?_ fun w => ?_)
  case refine_6 => rw [judgeGauges_state, clearWarnings_inactive]
  all_goals simp [installImage]

theorem takeAdoption_test (valid : firstFailing (stagingImage s) = none) (h : testLaw s) :
    testLaw (takeAdoption s) := by
  refine TestLess.law (s := adoptImage (stagingImage s) s) ?_ (adoptImage_test valid h)
  apply TestLess.same <;> simp [takeAdoption]

/-! ## Claims -/

theorem releaseClaim_less (x : Side) (k : Claim) (held : s.win.claims.holder k = sideHolder x) :
    TestLess s (releaseClaim x k s) := by
  by_cases outputs : k = .outputs
  · subst outputs
    refine .loses (x := x) (by simp) (by simp) (by simp) (by simp) (fun y h => ?_) ?_
    · exact abortTestOf_test (s := setClaim .outputs .free s) (by simpa [releaseClaim] using h)
    · rw [releaseClaim_holder, held]
      simp [Holder.dropped]
  · refine ⟨by simp, by simp, fun y h => ⟨y, by simpa [releaseClaim, outputs] using h, rfl⟩,
      fun _ h => by simpa using h, fun _ h => by simpa using h, fun y _ h => ?_⟩
    have kept := releaseClaim_holder x k .outputs s
    rw [if_neg (Ne.symm outputs)] at kept
    exact kept.trans h

theorem closeLink_less (s : State) : TestLess s (closeLink s) := by
  refine .loses (x := .workshop) (by simp) (by simp) (by simp) (by simp) (fun y h => ?_) ?_
  · simp only [closeLink, setNotice_out] at h
    simpa using abortTestOf_test h
  · have dropped := loseClaims_holder .workshop (setLink { (setReply s.link.reply.atClose s).link with
      request := none, session := false, sessionTimer := none } (setReply s.link.reply.atClose s)) .outputs
    simpa [closeLink, sideHolder] using dropped

theorem enterFallback_less (s : State) : TestLess s (enterFallback s) := by
  refine .loses (x := .window) (by simp) (by simp) (by simp) (by simp) (fun y h => ?_)
    (enterFallback_holder s .outputs)
  simp only [enterFallback, setNotice_out] at h
  simpa [setSupervision] using abortTestOf_test h

theorem softReset_less (s : State) : TestLess s (softReset s) := by
  refine .loses (x := .window) (by simp) (by simp) (by simp) (by simp) (fun y h => ?_) ?_
  · have kept : (softReset s).out.test = (abortTestOf .window .sideGone
        (dropClaims .window { s with win := s.win.softReset })).out.test := by simp [softReset]
    have ended := abortTestOf_test (kept.symm.trans h)
    exact ended
  · rw [softReset_claims]
    exact dropClaims_holder .window s .outputs

/-- A claim that was FREE is given: no test rests on it. -/
theorem setClaim_less {k : Claim} (x : Side) (free : s.win.claims.holder k = .free) :
    TestLess s (setClaim k (sideHolder x) s) := by
  refine ⟨rfl, rfl, fun y h => ⟨y, h, rfl⟩, fun _ h => h, fun _ h => h, fun y _ held => ?_⟩
  by_cases outputs : k = .outputs
  · subst outputs
    rw [show s.win.claims.outputs = .free from free] at held
    cases side : y.side <;> simp [side, sideHolder] at held
  · have kept := give_holder s.win.claims k .outputs (sideHolder x)
    rw [if_neg (Ne.symm outputs)] at kept
    exact kept.trans held

theorem takesClaim_less (r : Request) (s : State) : TestLess s (takeClaimService r s) := by
  unfold takeClaimService
  split
  · apply TestLess.same <;> simp
  · split
    next free =>
      refine (setClaim_less .workshop free).trans ?_
      apply TestLess.same <;> simp [sideHolder]
    all_goals apply TestLess.same <;> simp

theorem givesClaim_less (r : Request) (s : State) : TestLess s (giveClaimService r s) := by
  unfold giveClaimService
  split
  · apply TestLess.same <;> simp
  · split
    next held =>
      refine (releaseClaim_less .workshop _ held).trans ?_
      apply TestLess.same <;> simp
    all_goals apply TestLess.same <;> simp

theorem fetchData_less (x : BitVec 16) (i : Nat) (s : State) : TestLess s (fetchData x i s) := by
  have shifted : ∀ b, TestLess s (shiftOut b s) := fun b => by apply TestLess.same <;> simp
  simp only [fetchData]
  split
  · exact shifted _
  · split
    · split
      next free => exact (shifted _).trans (setClaim_less .window (by simpa using free.2))
      · exact shifted _
    · exact shifted _

theorem claimWrite_less (k : Claim) (v : Byte) (s : State) : TestLess s (claimWrite k v s) := by
  unfold claimWrite
  split
  next held => exact releaseClaim_less .window k held.2
  · apply TestLess.same <;> simp

/-! ## Supervision, restart and the window's words -/

theorem periodExpiry_less (s : State) : TestLess s (periodExpiry s) := by
  simp only [periodExpiry]
  split
  · split
    case h_3 => exact enterFallback_less s
    all_goals apply TestLess.same <;> simp [setSupervision]
  · exact .refl

theorem refreshWrite_less (v : Byte) (s : State) : TestLess s (refreshWrite v s) := by
  unfold refreshWrite
  split
  · apply TestLess.same <;> simp
  · simp only [refreshFault]
    split
    case h_3 => exact enterFallback_less s
    case h_4 => split <;> apply TestLess.same <;> simp [setSupervision]
    all_goals apply TestLess.same <;> simp

theorem restartWrite_less (v : Byte) (s : State) : TestLess s (restartWrite v s) := by
  unfold restartWrite
  split
  · exact softReset_less s
  · apply TestLess.same <;> simp

theorem writeData_less (x : BitVec 16) (i : Nat) (v : Byte) (s : State) : TestLess s (writeData x i v s) := by
  unfold writeData
  split
  next a _ =>
    unfold writeByte
    split
    · unfold portWrite
      by_cases refresh : a = 18
      · subst refresh
        exact refreshWrite_less v s
      by_cases restart : a = 19
      · subst restart
        exact restartWrite_less v s
      simp only [refresh, restart, if_false]
      (repeat' split) <;> apply TestLess.same <;> simp
    · split
      · exact claimWrite_less _ v s
      · (repeat' split) <;> apply TestLess.same <;> simp
  · exact .refl

theorem startTest_test (x : Side) (p : Pattern) (n : Nat) (held : holdsClaim s x .outputs = true)
    (conditions : testConditions s = true) (h : testLaw s) : testLaw (startTest x p n s) := by
  simp only [testConditions, Bool.and_eq_true, decide_eq_true_eq, Bool.not_eq_true', stopUnack_iff] at conditions
  obtain ⟨⟨⟨on, still⟩, brake⟩, quiet⟩ := conditions
  have lines : lineState (startTest x p n s) = lineState s := by
    funext n
    simp [lineState]
  have quietAfter : NoStop (startTest x p n s).image (startTest x p n s).warn.warnings := by simpa using quiet
  refine ⟨by simpa [ignitionWired] using h.1, fun y running => ?_⟩
  obtain rfl : x = y.side := by
    simp only [startTest, setNotice_out, computeLamps_frame, setTest] at running
    rw [← Option.some.inj running]
  refine ⟨by simpa only [ignitionOn, lines] using on, by simpa using still,
    by simpa [roleActive, roleState, lines] using brake, quietAfter, ?_⟩
  have claimed : s.win.claims.outputs = sideHolder y.side := of_decide_eq_true held
  simpa using claimed

/-- The timers, the sweep and the patterns change a running test in nothing but its own counts. -/
theorem TestLess.of_side (sense : t.sense = s.sense) (image : t.image = s.image)
    (side : t.out.test.map (·.side) = s.out.test.map (·.side)) (motion : t.pulse.motion = s.pulse.motion)
    (states : ∀ w : Fin 48, t.warn.warnings[w].state = s.warn.warnings[w].state)
    (claim : t.win.claims = s.win.claims) : TestLess s t := by
  refine ⟨sense, image, fun x h => ?_, fun _ h => motion ▸ h, fun _ h => h.of_states states, fun _ _ h => claim ▸ h⟩
  rw [h] at side
  simpa using side.symm

theorem stepTimers_less (s : State) : TestLess s (stepTimers s) := by
  apply TestLess.of_side <;> simp [stepTimers, tickOutputs, tickWarnings, Function.comp_def]

theorem countSweep_less (s : State) : TestLess s (countSweep s) := by
  refine .of_side (by simp) (by simp) ?_ (by simp) (by simp) (by simp)
  unfold countSweep
  split
  · split <;> simp_all [setTest]
  · rfl

theorem walkStep_less (s : State) : TestLess s (walkStep s) := by
  refine .of_side (by simp) (by simp) ?_ (by simp) (by simp) (by simp)
  unfold walkStep
  split
  · split <;> simp_all [setTest]
  · rfl

theorem buzzerHalf_less (s : State) : TestLess s (buzzerHalf s) := by
  refine .of_side (by simp) (by simp) ?_ (by simp) (by simp) (by simp)
  unfold buzzerHalf
  split
  · split <;> simp_all [setTest]
  · rfl

theorem gauges_less (s : State) : TestLess s (countSweep (handOver (judgeAnalog (evaluateEngine s)))) := by
  refine TestLess.trans ?_ (countSweep_less _)
  refine .of_side (by simp) (by simp) (by simp) (by simp [evaluateEngine_causes]) (fun w => ?_) (by simp)
  unfold handOver
  rw [judgeGauges_state]
  simp

end Less

theorem testLaw_kept : Kept testLaw := by
  constructor
  case judge => exact fun s => (judgeAll_less s).law
  case sense => exact fun r b v s h => sensed_test r b v (s := atSense s) h
  case timer => exact fun s h => (stepTimers_less (atStep s)).law h
  case road => exact fun s => (evaluateRoad_less s).law
  case gauges => exact fun s => (gauges_less s).law
  case onset => exact fun w s => (onsetExpiry_less w s).law
  case duration => exact fun s => (endTest_less none s).law
  case walk => exact fun s => (walkStep_less s).law
  case buzzer => exact fun s => (buzzerHalf_less s).law
  case period => exact fun s => (periodExpiry_less s).law
  case closes => exact fun s => (closeLink_less s).law
  case takesClaim => exact fun r s _ => (takesClaim_less r s).law
  case givesClaim => exact fun r s => (givesClaim_less r s).law
  case adopts => exact fun s passed => takeAdoption_test (adoptCheck_valid passed)
  case acknowledges => exact fun s w => (acknowledge_less s w).law
  case kFactor =>
    intro x k s _
    refine ((takeK_less k s).trans ?_).law
    apply TestLess.same <;> simp [takeKFactor]
  case starts => exact fun x p n s held conditions _ => startTest_test x p n held conditions
  case stops => exact fun s => (abortTest_less _ s).law
  case fetch => exact fun x i s => (fetchData_less x i s).law
  case claim => exact fun k v s => (claimWrite_less k v s).law
  case supvRefresh => exact fun v s => (refreshWrite_less v s).law
  case softRestart => exact fun v s => (restartWrite_less v s).law
  case write => exact fun x i v s => (writeData_less x i v s).law
  all_goals
    intros
    rename_i h
    refine TestLess.law ?_ h
    apply TestLess.same <;> simp [setArbiter, setPulse, setWindowOp]

theorem restart_test (s : State) : testLaw (restart s) := by
  refine ⟨?_, fun x h => ?_⟩
  · rw [ignitionWired, restart_image]
    exact valid_wired (recovered_valid _ _)
  · have less : TestLess (recovered s.store.array s.pending) (restart s) := by
      refine (judgeAll_less _).trans ?_
      simp only [restart]
      split <;> apply TestLess.same <;> simp
    obtain ⟨y, running, -⟩ := less.running x h
    simp [recovered, State.reset] at running

/-- Settles O59: an event that ends a condition of a running test, or its side's claim, ends the test with it. -/
theorem stepKeepsTestLaw : Obligations.StepKeepsTestLaw :=
  testLaw_kept.step (fun _ _ h => h) fun s _ => restart_test s

end Sys2Proof.Proofs

/-! The list law at every step: an onset puts its warning at the head of its class, and whatever leaves the listed
states leaves the list. -/

namespace Sys2Proof.Proofs

open Sys2Proof Sys2Proof.Machine Sys2Proof.Safety

/-! ## The law of a warning unit -/

/-- The number of a warning, 0 where it has none. -/
def onsetNumber (u : WarningUnit) (w : Fin 48) : Nat := (u.warnings[w].number).getD 0

/-- `v` stands before `w`: a higher class, or a later onset of the same one (R99). -/
def before (rank number : Fin 48 → Nat) (v w : Fin 48) : Prop :=
  rank v < rank w ∨
    (rank v = rank w ∧ (number w < number v ∨ (number w = 4294967295 ∧ number v = 4294967295)))

/-- A number given already: below the counter, or the last one with the counter at it (R97). -/
def given (next number : Nat) : Prop := number < next ∨ (number = 4294967295 ∧ next = 4294967295)

/-- The list law, of a unit whose warnings have these class ranks. -/
structure Listed (rank : Fin 48 → Nat) (u : WarningUnit) : Prop where
  nodup : u.list.Nodup
  members : ∀ w : Fin 48, w ∈ u.list ↔ u.warnings[w].state.listed = true
  counter : u.nextNumber ≤ 4294967295
  numbered : ∀ w ∈ u.list, u.warnings[w].number.isSome = true ∧ given u.nextNumber (onsetNumber u w)
  ordered : u.list.Pairwise (before rank (onsetNumber u))

theorem listLaw_iff (s : State) : listLaw s ↔ Listed (classRank s) s.warn := by
  constructor
  · rintro ⟨nodup, members, counter, numbered, ordered⟩
    refine ⟨nodup, members, counter, numbered, ordered.imp fun {v w} h => ?_⟩
    revert h
    simp only [before, classRank]
    cases (warningDef s.image v).cls <;> cases (warningDef s.image w).cls <;> exact id
  · rintro ⟨nodup, members, counter, numbered, ordered⟩
    refine ⟨nodup, members, counter, numbered, ordered.imp fun {v w} h => ?_⟩
    revert h
    simp only [before, classRank]
    cases (warningDef s.image v).cls <;> cases (warningDef s.image w).cls <;> exact id

section Unit

variable {rank : Fin 48 → Nat} {u : WarningUnit}

theorem putWarning_self (w : Fin 48) (x : Warning) : (putWarning w x u).warnings[w] = x := by
  simp [putWarning]

theorem putWarning_ne {v w : Fin 48} (x : Warning) (h : v ≠ w) :
    (putWarning w x u).warnings[v] = u.warnings[v] := by
  have other : w.val ≠ v.val := fun e => h (Fin.ext e.symm)
  simp [putWarning, other]

theorem onsetNumber_ne {v w : Fin 48} (x : Warning) (h : v ≠ w) :
    onsetNumber (putWarning w x u) v = onsetNumber u v := by
  rw [onsetNumber, putWarning_ne x h]
  rfl

/-- Warnings that keep state and number keep the law. -/
theorem Listed.of_same {v : WarningUnit} (h : Listed rank u) (list : v.list = u.list)
    (next : v.nextNumber = u.nextNumber)
    (same : ∀ w : Fin 48, v.warnings[w].state.listed = u.warnings[w].state.listed ∧
      (u.warnings[w].state.listed = true → v.warnings[w].number = u.warnings[w].number)) : Listed rank v := by
  have number : ∀ w ∈ u.list, v.warnings[w].number = u.warnings[w].number :=
    fun w mem => (same w).2 ((h.members w).mp mem)
  refine ⟨list ▸ h.nodup, fun w => by rw [list, h.members, (same w).1], next ▸ h.counter, fun w mem => ?_, ?_⟩
  · rw [list] at mem
    simpa only [onsetNumber, number w mem, next] using h.numbered w mem
  · rw [list]
    exact h.ordered.imp_of_mem fun {a b} ha hb => by
      simp only [before, onsetNumber, number a ha, number b hb]
      exact id

/-- A warning that stays listed with its number, or stays off the list. -/
theorem Listed.restate (h : Listed rank u) {w : Fin 48} {x : Warning}
    (state : x.state.listed = u.warnings[w].state.listed)
    (number : u.warnings[w].state.listed = true → x.number = u.warnings[w].number) :
    Listed rank (putWarning w x u) := by
  refine h.of_same rfl rfl fun v => ?_
  by_cases same : v = w
  · subst same
    rw [putWarning_self]
    exact ⟨state, number⟩
  · rw [putWarning_ne x same]
    exact ⟨rfl, fun _ => rfl⟩

/-- A warning that leaves the listed states leaves the list. -/
theorem Listed.leave (h : Listed rank u) {w : Fin 48} {x : Warning} (state : x.state.listed = false) :
    Listed rank { putWarning w x u with list := u.list.erase w } := by
  have other : ∀ v ∈ u.list.erase w, v ≠ w := fun v mem => (h.nodup.mem_erase_iff.mp mem).1
  refine ⟨h.nodup.erase w, fun v => ?_, h.counter, fun v mem => ?_, ?_⟩
  · by_cases same : v = w
    · subst same
      simpa [putWarning, state] using h.nodup.not_mem_erase
    · simpa [h.nodup.mem_erase_iff, same, putWarning_ne x same] using h.members v
  · have facts := h.numbered v (List.mem_of_mem_erase mem)
    rw [← putWarning_ne x (other v mem), ← onsetNumber_ne x (other v mem)] at facts
    exact facts
  · refine (h.ordered.sublist List.erase_sublist).imp_of_mem fun {a b} ha hb => ?_
    simp only [before, onsetNumber, putWarning_ne x (other a ha), putWarning_ne x (other b hb)]
    exact id

theorem dropWhile_ranks {w : Fin 48} : ∀ {l : List (Fin 48)}, l.Pairwise (fun a b => rank a ≤ rank b) →
    ∀ v ∈ l.dropWhile (fun v => decide (rank v < rank w)), rank w ≤ rank v
  | [], _, v, mem => by simp at mem
  | a :: l, sorted, v, mem => by
    obtain ⟨first, rest⟩ := List.pairwise_cons.mp sorted
    rw [List.dropWhile_cons] at mem
    split at mem
    · exact dropWhile_ranks rest v mem
    next notBelow =>
      have least : rank w ≤ rank a := by simpa using notBelow
      obtain rfl | later := List.mem_cons.mp mem
      · exact least
      · exact least.trans (first v later)

/-- An onset: the warning takes the counter's number and stands at the head of its class (R97, R99). -/
theorem Listed.enter (h : Listed rank u) {w : Fin 48} {x : Warning} (state : x.state.listed = true)
    (number : x.number = some u.nextNumber) :
    Listed rank { putWarning w x u with
      nextNumber := min (u.nextNumber + 1) 4294967295, list := insertOnset rank w (u.list.erase w) } := by
  have perm := insertOnset_perm rank w (u.list.erase w)
  have other : ∀ v ∈ u.list.erase w, v ≠ w := fun v mem => (h.nodup.mem_erase_iff.mp mem).1
  have counter := h.counter
  have old : ∀ v ∈ u.list.erase w, given u.nextNumber (onsetNumber u v) :=
    fun v mem => (h.numbered v (List.mem_of_mem_erase mem)).2
  refine ⟨perm.nodup_iff.mpr (List.nodup_cons.mpr ⟨h.nodup.not_mem_erase, h.nodup.erase w⟩), fun v => ?_,
    Nat.min_le_right _ _, fun v mem => ?_, ?_⟩
  · rw [perm.mem_iff, List.mem_cons]
    by_cases same : v = w
    · subst same
      simpa [putWarning] using state
    · simpa [h.nodup.mem_erase_iff, same, putWarning_ne x same] using h.members v
  · obtain rfl | mem := List.mem_cons.mp (perm.mem_iff.mp mem)
    · simp only [onsetNumber, putWarning_self, number, given, Option.isSome_some, Option.getD_some, true_and]
      omega
    · have facts := h.numbered v (List.mem_of_mem_erase mem)
      simp only [onsetNumber, putWarning_ne x (other v mem), given] at facts ⊢
      refine ⟨facts.1, ?_⟩
      have numbered := facts.2
      omega
  · have sorted : (u.list.erase w).Pairwise (before rank (onsetNumber u)) := h.ordered.sublist List.erase_sublist
    have ranks : (u.list.erase w).Pairwise (fun a b => rank a ≤ rank b) := sorted.imp fun {a b} o => by
      simp only [before] at o
      omega
    have kept : ∀ a ∈ u.list.erase w, ∀ b ∈ u.list.erase w, before rank (onsetNumber u) a b →
        before rank (onsetNumber (putWarning w x u)) a b := fun a ha b hb => by
      rw [before, before, onsetNumber_ne x (other a ha), onsetNumber_ne x (other b hb)]
      exact id
    have sortedAfter := sorted.imp_of_mem fun {a b} ha hb => kept a ha b hb
    rw [← List.takeWhile_append_dropWhile (p := fun v => decide (rank v < rank w)) (l := u.list.erase w),
      List.pairwise_append] at sortedAfter
    obtain ⟨higher, rest, across⟩ := sortedAfter
    refine List.pairwise_append.mpr ⟨higher, List.pairwise_cons.mpr ⟨fun v mem => ?_, rest⟩, fun v mem a later => ?_⟩
    · have mem' := List.dropWhile_subset _ mem
      have least := dropWhile_ranks ranks v mem
      have below := old v mem'
      have own : onsetNumber (putWarning w x u) w = u.nextNumber := by
        rw [onsetNumber, putWarning_self, number]
        rfl
      change before rank (onsetNumber (putWarning w x u)) w v
      simp only [before, own, onsetNumber_ne x (other v mem'), given] at below ⊢
      omega
    · obtain rfl | later := List.mem_cons.mp later
      · left
        simpa using List.mem_takeWhile_imp mem
      · exact across v mem a later

end Unit

/-! ## The Warning Unit's operations -/

section Operations

variable {s t : State}

/-- The law goes over where the unit is as it was, whatever has changed beside. -/
theorem listLaw_of (h : listLaw s) (warn : t.warn = s.warn) (image : t.image = s.image) : listLaw t := by
  rw [listLaw_iff] at h ⊢
  rw [show classRank t = classRank s from funext fun w => by simp only [classRank, image], warn]
  exact h

theorem onset_list (w : Fin 48) (h : listLaw s) : listLaw (onset w s) := by
  rw [listLaw_iff] at h ⊢
  rw [show classRank (onset w s) = classRank s from funext fun w => by simp [classRank], onset_warn, enterList_warn]
  exact h.enter rfl rfl

theorem leaveList_list (w : Fin 48) (h : listLaw s) : listLaw (leaveList w s) := by
  rw [listLaw_iff] at h ⊢
  rw [show classRank (leaveList w s) = classRank s from funext fun w => by simp [classRank], leaveList_warn]
  exact h.leave (w := w) rfl

theorem setWarning_list {w : Fin 48} {x : Warning} (h : listLaw s)
    (state : x.state.listed = s.warn.warnings[w].state.listed)
    (number : s.warn.warnings[w].state.listed = true → x.number = s.warn.warnings[w].number) :
    listLaw (setWarning w x s) := by
  rw [listLaw_iff] at h ⊢
  exact h.restate state number

theorem restate_list (w : Fin 48) {st : WarnState} (h : listLaw s)
    (state : st.listed = s.warn.warnings[w].state.listed) : listLaw (restate w st s) := by
  refine listLaw_of (setWarning_list (w := w) (x := { s.warn.warnings[w] with state := st }) h state fun _ => rfl) ?_ ?_
  · simp [restate]
  · simp [restate]

theorem acknowledge_list (w : Fin 48) (h : listLaw s) : listLaw (acknowledge s w) := by
  unfold acknowledge
  split
  next active => exact restate_list w h (by rw [active]; rfl)
  next => exact leaveList_list w h
  all_goals exact h

theorem moveWarning_list (w : Fin 48) (d : WarningDef) (c : Bool) (h : listLaw s) : listLaw (moveWarning w d c s) := by
  simp only [moveWarning]
  split
  next inactive =>
    split
    · split
      · exact onset_list w h
      · exact setWarning_list h (by rw [inactive]; rfl) fun _ => rfl
    · exact h
  next pending =>
    split
    · exact h
    · exact setWarning_list h (by rw [pending]; rfl) fun _ => rfl
  next active =>
    split
    · exact h
    · split
      · exact restate_list w h (by rw [active]; rfl)
      · exact leaveList_list w h
  next =>
    split
    · exact h
    · exact leaveList_list w h
  next =>
    split
    · exact onset_list w h
    · exact h

theorem judgeAll_list (h : listLaw s) : listLaw (judgeAll s) := by
  refine List.foldlRecOn (motive := listLaw) _ _ h fun t h w _ => ?_
  simp only [judgeWarning]
  split
  · exact moveWarning_list _ _ _ (setWarning_list h rfl fun _ => rfl)
  · exact h

theorem finish_list (s : State) (h : listLaw t) : listLaw (finish s t) :=
  listLaw_of (judgeAll_list h) (by simp [finish]) (by simp [finish])

theorem settle_list (b : Bool) (s : State) (h : listLaw t) : listLaw (settle b s t) := by
  unfold settle
  split
  · exact finish_list s h
  · exact listLaw_of h (by simp) (by simp)

theorem pressAck_list (h : listLaw s) : listLaw (pressAck s) := by
  unfold pressAck
  split
  · exact acknowledge_list _ h
  · exact h

theorem onsetExpiry_list (w : Fin 48) (h : listLaw s) : listLaw (onsetExpiry w s) := by
  simp only [onsetExpiry]
  split
  · exact onset_list w h
  · exact h

/-! ## A sense sample, a gauge cycle and a timer step -/

theorem deliverChange_list (r : Role) (old new : LineState) (h : listLaw s) : listLaw (deliverChange r old new s) := by
  cases r
  case ackButton =>
    simp only [deliverChange]
    split
    · exact pressAck_list h
    · exact h
  all_goals
    simp only [deliverChange]
    (try split) <;> refine listLaw_of h ?_ ?_ <;> simp

theorem lineEvent_list (before : Vector Line 32) (n : Fin 32) (h : listLaw s) : listLaw (lineEvent before s n) := by
  unfold lineEvent deliverLine
  split
  · exact h
  next changed =>
    simp only [changed, if_false]
    exact finish_list s (deliverChange_list _ _ _ h)

theorem sensed_list (r : Vector Sample 32) (b : Bool) (v : Vector Sample 6) (h : listLaw s) :
    listLaw (sensed r b v s) := by
  have sampled : listLaw (publishSense s (sampleLines r s)) := listLaw_of h (by simp) (by simp)
  have lines : listLaw (takeLines r s) :=
    List.foldlRecOn (motive := listLaw) _ _ sampled fun _ h n _ => lineEvent_list _ n h
  have wire : listLaw (wireEvent b (takeLines r s)) :=
    settle_list _ _ (listLaw_of lines (by simp) (by simp))
  exact listLaw_of wire (by simp [sensed]) (by simp [sensed])

/-- The timers and the hand-over change neither the state nor the number of a warning. -/
theorem listLaw_of_same (h : listLaw s) (image : t.image = s.image) (list : t.warn.list = s.warn.list)
    (next : t.warn.nextNumber = s.warn.nextNumber)
    (same : ∀ w : Fin 48, t.warn.warnings[w].state = s.warn.warnings[w].state ∧
      t.warn.warnings[w].number = s.warn.warnings[w].number) : listLaw t := by
  rw [listLaw_iff] at h ⊢
  rw [show classRank t = classRank s from funext fun w => by simp only [classRank, image]]
  exact h.of_same list next fun w => ⟨by rw [(same w).1], fun _ => (same w).2⟩

theorem judgeGauges_number (s : State) (w : Fin 48) :
    (judgeGauges s).warn.warnings[w].number = s.warn.warnings[w].number := by
  simp only [judgeGauges, Vector.getElem_ofFn, Fin.getElem_fin]
  split <;> rfl

theorem stepTimers_list (h : listLaw s) : listLaw (stepTimers s) := by
  refine listLaw_of_same h ?_ ?_ ?_ fun w => ⟨?_, ?_⟩ <;> simp [stepTimers, tickWarnings]

theorem gauges_list (h : listLaw s) : listLaw (countSweep (handOver (judgeAnalog (evaluateEngine s)))) := by
  refine listLaw_of_same h (by simp) (by simp) (by simp) fun w => ⟨?_, ?_⟩
  · simp only [countSweep_frame, handOver, judgeGauges_state]
    simp
  · simp only [countSweep_frame, handOver, judgeGauges_number]
    simp

/-! ## Adoption and full restart -/

/-- With every warning off the list and the list empty the law holds, whatever the classes. -/
theorem listLaw_empty (list : s.warn.list = []) (counter : s.warn.nextNumber ≤ 4294967295)
    (states : ∀ w : Fin 48, s.warn.warnings[w].state.listed = false) : listLaw s := by
  rw [listLaw_iff]
  refine ⟨by simp [list], fun w => by rw [list, states w]; simp, counter, by simp [list], by simp [list]⟩

theorem takeAdoption_list (h : listLaw s) : listLaw (takeAdoption s) := by
  refine listLaw_of (s := adoptImage (stagingImage s) s) ?_ (by simp [takeAdoption]) (by simp [takeAdoption])
  generalize stagingImage s = image
  unfold adoptImage adoptWarnings
  refine judgeAll_list (listLaw_empty ?_ ?_ fun w => ?_)
  · simp [clearWarnings]
  · simpa [installImage] using ((listLaw_iff s).mp h).counter
  · rw [judgeGauges_state, clearWarnings_inactive]
    rfl

theorem restart_list (s : State) : listLaw (restart s) := by
  have start : listLaw (recovered s.store.array s.pending) := by
    refine listLaw_empty rfl (by simp [recovered]) fun w => ?_
    simp [recovered, Warning.reset, WarnState.listed]
  have judged := judgeAll_list start
  simp only [restart]
  split <;> refine listLaw_of judged ?_ ?_ <;> simp

end Operations

theorem listLaw_kept : Kept listLaw := by
  constructor
  case judge => exact fun s => judgeAll_list
  case sense => exact fun r b v s h => sensed_list r b v (s := atSense s) h
  case timer => exact fun s h => stepTimers_list (s := atStep s) h
  case gauges => exact fun s => gauges_list
  case onset => exact fun w s => onsetExpiry_list w
  case adopts => exact fun s _ => takeAdoption_list
  case acknowledges => exact fun s w => acknowledge_list w
  all_goals
    intros
    rename_i h
    refine listLaw_of h ?_ ?_ <;> simp [setArbiter, setPulse, setWindowOp]

/-- Settles O56: of all operations only an onset, a return and an acknowledgement touch list, state or number. -/
theorem stepKeepsListLaw : Obligations.StepKeepsListLaw :=
  listLaw_kept.step (fun _ _ h => h) fun s _ => restart_list s

end Sys2Proof.Proofs

/-! The full restart: the state after reset keeps every law. -/

namespace Sys2Proof.Proofs

open Sys2Proof Sys2Proof.Machine Sys2Proof.Safety

/-! ## The state after reset -/

/-- A property that every full restart leaves is one of the state after reset, which a full restart gives again. -/
theorem reset_of_restart {P : State → Prop} (h : ∀ s, P (restart s)) : P State.reset := by
  rw [← Tests.test_reset_is_full_restart]
  exact h State.reset

theorem restart_storageLaw (s : State) : storageLaw (restart s) := by
  have kept := restart_keeps s
  exact ⟨kept.ram ⟨List.Pairwise.nil, fun c h => by simp [recovered] at h⟩, kept.jobs List.nodup_nil⟩

theorem restart_recordLaw (s : State) : recordLaw (restart s) :=
  (restart_keeps s).records (recovered_unique _ _)

theorem restart_claimLaw (s : State) : claimLaw (restart s) := by
  intro k w
  rw [restart_claims] at w
  cases k <;> cases w

theorem reset_overflowLaw : overflowLaw State.reset :=
  ⟨(by decide : State.reset.faults.overflow ≤ 255), (by decide : NvArray.blank.header.content.2 ≤ 255),
    fun _ _ _ e => by cases e⟩

theorem restart_imageLaw (s : State) : imageLaw (restart s) := by
  rw [imageLaw, restart_image]
  exact recovered_valid _ _

/-- Settles O53: a full restart of the blank array gives the state after reset, and every full restart keeps the
laws. -/
theorem resetStateKeepsLaws : Obligations.ResetStateKeepsLaws :=
  ⟨rfl, rfl, congrArg Host.Outcome.next Tests.test_reset_is_full_restart, reset_of_restart restart_storageLaw,
    reset_of_restart restart_odometerLaw, reset_of_restart restart_list, reset_of_restart restart_recordLaw,
    reset_overflowLaw, reset_of_restart restart_claimLaw, reset_of_restart restart_test,
    reset_of_restart restart_permit, reset_of_restart restart_imageLaw⟩

end Sys2Proof.Proofs

/-! The images of the window: what a rewrite leaves in an image, and which images an event's publication rewrites. -/

namespace Sys2Proof.Proofs

open Sys2Proof Sys2Proof.Machine Sys2Proof.Safety

/-! ## A rewrite of an image -/

/-- A read of the byte just written, where no cell of this address stands behind a cell at or above it. -/
theorem Mem.read_write_of_sorted {m : Mem} {a : Nat} {v : Byte}
    (h : List.Pairwise (fun c d : Host.Cell => a ≤ c.1 → d.1 ≠ a) m) : (Mem.write m a v).read a = v := by
  induction m with
  | nil =>
    unfold Mem.write
    split <;> simp_all [Mem.read]
  | cons c m ih =>
    obtain ⟨b, w⟩ := c
    obtain ⟨first, rest⟩ := List.pairwise_cons.mp h
    have absent : a ≤ b → Mem.read m a = 0 := fun le => Mem.read_eq_zero m a fun d mem => first d mem le
    unfold Mem.write
    split
    next below =>
      split
      next zero => rw [Mem.read, if_neg (by omega), absent (by omega), zero]
      next => simp [Mem.read]
    next =>
      split
      next here =>
        split
        next zero => rw [absent (by omega), zero]
        next => simp [Mem.read]
      next above => rw [Mem.read, if_neg (by omega), ih rest]

theorem Mem.fill_sorted (m : Mem) (base size : Nat) (bytes : List Byte) (positive : size ≠ 0) :
    List.Pairwise (fun c d : Host.Cell => base + size - 1 ≤ c.1 → d.1 ≠ base + size - 1)
      (Mem.fill m base size bytes) := by
  unfold Mem.fill
  refine List.pairwise_append.mpr ⟨?_, List.pairwise_append.mpr ⟨?_, ?_, ?_⟩, ?_⟩
  · refine List.pairwise_of_forall_mem_list fun c mem d _ le => ?_
    have below : c.1 < base := by simpa using (List.mem_filter.mp mem).2
    omega
  · exact (Mem.cells_wf base (bytes.take size)).1.imp fun {c d} lt le => by omega
  · refine List.pairwise_of_forall_mem_list fun c _ d mem _ => ?_
    have above : base + size ≤ d.1 := by simpa using (List.mem_filter.mp mem).2
    omega
  · intro c _ d mem _
    have above : base + size ≤ d.1 := by simpa using (List.mem_filter.mp mem).2
    omega
  · intro c mem d _ le
    have below : c.1 < base := by simpa using (List.mem_filter.mp mem).2
    omega

/-- A rewrite of an image: the lead goes up by one, the trail equals it, and the content stands between (R176). -/
theorem rewriteImage_written (area : Area) (long : 2 ≤ area.2) (bytes : List Byte) (s : State) :
    imageWritten area bytes s (rewriteImage area.1 area.2 bytes s) := by
  have inner : ∀ k, k + 1 < area.2 → ramRead (rewriteImage area.1 area.2 bytes s) (area.1 + k) =
      ((ramRead s area.1 + 1) :: bytes).getD k 0 := fun k low => by
    unfold ramRead
    rw [rewriteImage_ram, Mem.read_write_ne _ _ _ _ (by omega), Mem.read_fill_inside _ _ _ _ _ (by omega)]
    rfl
  have lead := inner 0 (by omega)
  refine ⟨lead, ?_, fun k low => ?_⟩
  · have trail : ramRead (rewriteImage area.1 area.2 bytes s) (area.1 + (area.2 - 1)) = ramRead s area.1 + 1 := by
      rw [show area.1 + (area.2 - 1) = area.1 + area.2 - 1 by omega]
      unfold ramRead
      rw [rewriteImage_ram]
      exact Mem.read_write_of_sorted (Mem.fill_sorted _ _ _ _ (by omega))
    exact trail.trans lead.symm
  · rw [show area.1 + 1 + k = area.1 + (k + 1) by omega, inner (k + 1) (by omega)]
    rfl

/-- Every byte of the area reads as before. -/
def areaSame (area : Area) (s t : State) : Prop :=
  ∀ a, area.1 ≤ a → a < area.1 + area.2 → ramRead t a = ramRead s a

theorem imageWritten_congr {area : Area} {bytes : List Byte} {r s t u : State} (positive : area.2 ≠ 0)
    (first : areaSame area r s) (h : imageWritten area bytes s t) (last : areaSame area t u) :
    imageWritten area bytes r u := by
  obtain ⟨lead, trail, shows⟩ := h
  have leadKept := last area.1 le_rfl (by omega)
  refine ⟨?_, ?_, fun k low => ?_⟩
  · rw [leadKept, lead, first area.1 le_rfl (by omega)]
  · rw [last _ (by omega) (by omega), leadKept, trail]
  · rw [last _ (by omega) (by omega)]
    exact shows k low

theorem ramRead_congr {s u : State} (ram : u.win.ram = s.win.ram) (a : Nat) : ramRead u a = ramRead s a := by
  rw [ramRead, ramRead, ram]

theorem imageWritten_of_ram {area : Area} {bytes : List Byte} {s u t : State} (ram : u.win.ram = s.win.ram)
    (h : imageWritten area bytes u t) : imageWritten area bytes s t := by
  obtain ⟨lead, rest⟩ := h
  exact ⟨lead.trans (congrArg (· + 1) (ramRead_congr ram _)), rest⟩

theorem areaSame_of_ramKept {area : Area} {areas : List Area} {s t : State} (h : ramKept areas s t)
    (apart : ∀ r ∈ areas, area.1 + area.2 ≤ r.1 ∨ r.1 + r.2 ≤ area.1) : areaSame area s t := by
  refine fun a low high => h a fun r mem => ?_
  have := apart r mem
  omega

theorem setNotice_ram (n : Notice) (s : State) (a : Nat) : ramRead (setNotice n s) a = ramRead s a := rfl

/-- Two states that agree in every block, the images and the notices set aside. -/
theorem besideImages_eq {s t : State} (time : t.time = s.time) (sense : t.sense = s.sense) (pulse : t.pulse = s.pulse)
    (dist : t.dist = s.dist) (analog : t.analog = s.analog) (door : t.door = s.door) (warn : t.warn = s.warn)
    (out : t.out = s.out) (faults : t.faults = s.faults) (store : t.store = s.store) (link : t.link = s.link)
    (win : { t.win with ram := [], notice := 0 } = { s.win with ram := [], notice := 0 }) (image : t.image = s.image)
    (pending : t.pending = s.pending) : besideImages t = besideImages s := by
  unfold besideImages
  rw [time, sense, pulse, dist, analog, door, warn, out, faults, store, link, win, image, pending]

section Publication

variable (b s : State)

/-! ## What each image's publication writes -/

theorem publishSense_outside {a : Nat} (h : a < 0x1040 ∨ 0x1080 ≤ a) :
    ramRead (publishSense b s) a = ramRead s a := by
  unfold publishSense
  split
  · rfl
  · exact ramRead_rewriteImage_outside _ _ _ _ _ (by simp) (by omega)

theorem publishDoor_outside (f : Bool) {a : Nat} (h : a < 0x1080 ∨ 0x10C0 ≤ a) :
    ramRead (publishDoor f b s) a = ramRead s a := by
  unfold publishDoor
  split
  · rw [setNotice_ram]
    exact ramRead_rewriteImage_outside _ _ _ _ _ (by simp) (by omega)
  · split
    · exact ramRead_rewriteImage_outside _ _ _ _ _ (by simp) (by omega)
    · rfl

theorem publishWarnings_outside (f : Bool) {a : Nat} (h : a < 0x1100 ∨ 0x1200 ≤ a) :
    ramRead (publishWarnings f b s) a = ramRead s a := by
  unfold publishWarnings
  split
  · rw [setNotice_ram]
    exact ramRead_rewriteImage_outside _ _ _ _ _ (by simp) (by omega)
  · split
    · exact ramRead_rewriteImage_outside _ _ _ _ _ (by simp) (by omega)
    · rfl

theorem publishJournal_outside {a : Nat} (h : a < 0x1200 ∨ 0x1300 ≤ a) :
    ramRead (publishJournal b s) a = ramRead s a := by
  unfold publishJournal
  split
  · rfl
  · exact ramRead_rewriteImage_outside _ _ _ _ _ (by simp) (by omega)

theorem publishFaults_outside (f : Bool) {a : Nat} (h : a < 0x1400 ∨ 0x1800 ≤ a) :
    ramRead (publishFaults f b s) a = ramRead s a := by
  unfold publishFaults
  split
  · rw [setNotice_ram]
    exact ramRead_rewriteImage_outside _ _ _ _ _ (by simp) (by omega)
  · rfl

theorem publishOutput_outside {a : Nat} (h : a < 0x10C0 ∨ 0x1100 ≤ a) :
    ramRead (publishOutput b s) a = ramRead s a := by
  unfold publishOutput
  split
  · rfl
  · exact ramRead_rewriteImage_outside _ _ _ _ _ (by simp) (by omega)

theorem publishSense_written (h : senseBytes b ≠ senseBytes s) :
    imageWritten senseArea (senseBytes s) s (publishSense b s) := by
  rw [publishSense, senseContent_eq, senseContent_eq, if_neg h]
  exact rewriteImage_written senseArea (by simp [senseArea]) _ s

theorem publishSense_same (h : senseBytes b = senseBytes s) : publishSense b s = s := by
  rw [publishSense, senseContent_eq, senseContent_eq, if_pos h]

theorem publishDoor_written {f : Bool} (h : f = true ∨ doorBytes b ≠ doorBytes s) :
    imageWritten doorArea (doorBytes s) s (publishDoor f b s) := by
  have written := rewriteImage_written doorArea (by simp [doorArea]) (doorBytes s) s
  rw [publishDoor, doorContent_eq, doorContent_eq]
  split
  · exact imageWritten_congr (by simp [doorArea]) (fun _ _ _ => rfl) written fun _ _ _ => rfl
  next notForced =>
    have changed : doorBytes b ≠ doorBytes s := h.resolve_left fun e => notForced (by simp [e])
    rw [if_pos changed]
    exact written

theorem publishDoor_same (h : doorBytes b = doorBytes s) (fields : doorFields b = doorFields s) :
    publishDoor false b s = s := by
  simp [publishDoor, doorContent_eq, h, fields]

theorem publishWarnings_written {f : Bool}
    (h : f = true ∨ listFields b ≠ listFields s ∨ listSeconds b ≠ listSeconds s) :
    imageWritten listArea (listBytes s) s (publishWarnings f b s) := by
  have written := rewriteImage_written listArea (by simp [listArea]) (listBytes s) s
  rw [publishWarnings, listContent_eq]
  split
  · exact imageWritten_congr (by simp [listArea]) (fun _ _ _ => rfl) written fun _ _ _ => rfl
  next notForced =>
    have seconds : listSeconds b ≠ listSeconds s := by
      obtain e | e | e := h
      · simp [e] at notForced
      · simp [e] at notForced
      · exact e
    rw [if_pos seconds]
    exact written

theorem publishWarnings_same (fields : listFields b = listFields s) (seconds : listSeconds b = listSeconds s) :
    publishWarnings false b s = s := by
  simp [publishWarnings, seconds, fields]

theorem publishJournal_written (h : b.door.journal ≠ s.door.journal) :
    imageWritten journalArea (journalBytes s) s (publishJournal b s) := by
  rw [publishJournal, journalContent_eq, if_neg h]
  exact rewriteImage_written journalArea (by simp [journalArea]) _ s

theorem publishFaults_written {f : Bool} (h : f = true ∨ b.faults.viewEvents ≠ s.faults.viewEvents) :
    imageWritten faultArea (faultBytes s) s (publishFaults f b s) := by
  have written := rewriteImage_written faultArea (by simp [faultArea]) (faultBytes s) s
  rw [publishFaults, faultContent_eq, if_pos (by obtain e | e := h <;> simp [e])]
  exact imageWritten_congr (by simp [faultArea]) (fun _ _ _ => rfl) written fun _ _ _ => rfl

theorem publishOutput_written (h : outputBytes b ≠ outputBytes s) :
    imageWritten outputArea (outputBytes s) s (publishOutput b s) := by
  rw [publishOutput, outputContent_eq, outputContent_eq, if_neg h]
  exact rewriteImage_written outputArea (by simp [outputArea]) _ s

theorem publishOutput_same (h : outputBytes b = outputBytes s) : publishOutput b s = s := by
  rw [publishOutput, outputContent_eq, outputContent_eq, if_pos h]

theorem rewriteImage_notice (base size : Nat) (bytes : List Byte) (n : Notice) :
    noticeSet (rewriteImage base size bytes s) n = noticeSet s n := rfl

theorem publishSense_notice (n : Notice) : noticeSet (publishSense b s) n = noticeSet s n := by
  unfold publishSense
  split <;> rfl

theorem publishJournal_notice (n : Notice) : noticeSet (publishJournal b s) n = noticeSet s n := by
  unfold publishJournal
  split <;> rfl

theorem publishOutput_notice (n : Notice) : noticeSet (publishOutput b s) n = noticeSet s n := by
  unfold publishOutput
  split <;> rfl

theorem publishDoor_notice (f : Bool) (n : Notice) : noticeSet (publishDoor f b s) n =
    (noticeSet s n || (decide (.doorsChanged = n) && (f || decide (doorFields b ≠ doorFields s)))) := by
  unfold publishDoor
  split
  next forced => rw [noticeSet_setNotice, rewriteImage_notice, forced, Bool.and_true]
  next unforced =>
    rw [Bool.eq_false_iff.mpr unforced, Bool.and_false, Bool.or_false]
    split <;> rfl

theorem publishWarnings_notice (f : Bool) (n : Notice) : noticeSet (publishWarnings f b s) n =
    (noticeSet s n || (decide (.warningsChanged = n) && (f || decide (listFields b ≠ listFields s)))) := by
  unfold publishWarnings
  split
  next forced => rw [noticeSet_setNotice, rewriteImage_notice, forced, Bool.and_true]
  next unforced =>
    rw [Bool.eq_false_iff.mpr unforced, Bool.and_false, Bool.or_false]
    split <;> rfl

theorem publishFaults_notice (f : Bool) (n : Notice) : noticeSet (publishFaults f b s) n =
    (noticeSet s n ||
      (decide (.faultMemoryChanged = n) && (f || decide (b.faults.viewEvents ≠ s.faults.viewEvents)))) := by
  unfold publishFaults
  split
  next forced => rw [noticeSet_setNotice, rewriteImage_notice, forced, Bool.and_true]
  next unforced => rw [Bool.eq_false_iff.mpr unforced, Bool.and_false, Bool.or_false]

/-! ## The whole publication -/

variable {b s}

theorem publishAll_sense (f g : Bool) (h : senseBytes b ≠ senseBytes s) :
    imageWritten senseArea (senseBytes s) s (publishAll f g b s) := by
  refine imageWritten_congr (by simp [senseArea]) (fun _ _ _ => rfl) (publishSense_written b s h) fun a low high => ?_
  simp only [senseArea] at low high
  unfold publishAll
  rw [publishOutput_outside _ _ (by omega), publishFaults_outside _ _ _ (by omega),
    publishJournal_outside _ _ (by omega), publishWarnings_outside _ _ _ (by omega),
    publishDoor_outside _ _ _ (by omega)]

theorem publishAll_sense_same (f g : Bool) (h : senseBytes b = senseBytes s) :
    areaSame senseArea s (publishAll f g b s) := by
  intro a low high
  simp only [senseArea] at low high
  unfold publishAll
  rw [publishOutput_outside _ _ (by omega), publishFaults_outside _ _ _ (by omega),
    publishJournal_outside _ _ (by omega), publishWarnings_outside _ _ _ (by omega),
    publishDoor_outside _ _ _ (by omega), publishSense_same b s h]

theorem publishAll_door (f : Bool) {g : Bool} (h : g = true ∨ doorBytes b ≠ doorBytes s) :
    imageWritten doorArea (doorBytes s) s (publishAll f g b s) := by
  have same : doorBytes (publishSense b s) = doorBytes s := by simp [doorBytes]
  have written := publishDoor_written b (publishSense b s) (f := g) (by rwa [same])
  rw [same] at written
  refine imageWritten_congr (by simp [doorArea]) (fun a low high => ?_) written fun a low high => ?_
  · simp only [doorArea] at low high
    exact publishSense_outside _ _ (by omega)
  · simp only [doorArea] at low high
    unfold publishAll
    rw [publishOutput_outside _ _ (by omega), publishFaults_outside _ _ _ (by omega),
      publishJournal_outside _ _ (by omega), publishWarnings_outside _ _ _ (by omega)]

theorem publishAll_door_same (f : Bool) (h : doorBytes b = doorBytes s) (fields : doorFields b = doorFields s) :
    areaSame doorArea s (publishAll f false b s) := by
  intro a low high
  simp only [doorArea] at low high
  unfold publishAll
  rw [publishOutput_outside _ _ (by omega), publishFaults_outside _ _ _ (by omega),
    publishJournal_outside _ _ (by omega), publishWarnings_outside _ _ _ (by omega),
    publishDoor_same _ _ (by rw [h]; simp [doorBytes]) (by rw [fields]; simp [doorFields]),
    publishSense_outside _ _ (by omega)]

theorem publishAll_list {f : Bool} (g : Bool)
    (h : f = true ∨ listFields b ≠ listFields s ∨ listSeconds b ≠ listSeconds s) :
    imageWritten listArea (listBytes s) s (publishAll f g b s) := by
  have same : listBytes (publishDoor g b (publishSense b s)) = listBytes s := by simp [listBytes]
  have fields : listFields (publishDoor g b (publishSense b s)) = listFields s := by simp [listFields]
  have seconds : listSeconds (publishDoor g b (publishSense b s)) = listSeconds s := by simp [listSeconds]
  have written := publishWarnings_written b (publishDoor g b (publishSense b s)) (f := f) (by rwa [fields, seconds])
  rw [same] at written
  refine imageWritten_congr (by simp [listArea]) (fun a low high => ?_) written fun a low high => ?_
  · simp only [listArea] at low high
    rw [publishDoor_outside _ _ _ (by omega), publishSense_outside _ _ (by omega)]
  · simp only [listArea] at low high
    unfold publishAll
    rw [publishOutput_outside _ _ (by omega), publishFaults_outside _ _ _ (by omega),
      publishJournal_outside _ _ (by omega)]

theorem publishAll_list_same (g : Bool) (fields : listFields b = listFields s)
    (seconds : listSeconds b = listSeconds s) : areaSame listArea s (publishAll false g b s) := by
  intro a low high
  simp only [listArea] at low high
  unfold publishAll
  rw [publishOutput_outside _ _ (by omega), publishFaults_outside _ _ _ (by omega),
    publishJournal_outside _ _ (by omega),
    publishWarnings_same _ _ (by rw [fields]; simp [listFields]) (by rw [seconds]; simp [listSeconds]),
    publishDoor_outside _ _ _ (by omega), publishSense_outside _ _ (by omega)]

theorem publishAll_journal (f g : Bool) (h : b.door.journal ≠ s.door.journal) :
    imageWritten journalArea (journalBytes s) s (publishAll f g b s) := by
  have same : journalBytes (publishWarnings f b (publishDoor g b (publishSense b s))) = journalBytes s := by
    simp [journalBytes]
  have written := publishJournal_written b (publishWarnings f b (publishDoor g b (publishSense b s))) (by simpa using h)
  rw [same] at written
  refine imageWritten_congr (by simp [journalArea]) (fun a low high => ?_) written fun a low high => ?_
  · simp only [journalArea] at low high
    rw [publishWarnings_outside _ _ _ (by omega), publishDoor_outside _ _ _ (by omega),
      publishSense_outside _ _ (by omega)]
  · simp only [journalArea] at low high
    unfold publishAll
    rw [publishOutput_outside _ _ (by omega), publishFaults_outside _ _ _ (by omega)]

theorem publishAll_faults (f g : Bool) (h : b.faults.viewEvents ≠ s.faults.viewEvents) :
    imageWritten faultArea (faultBytes s) s (publishAll f g b s) := by
  have same : faultBytes (publishJournal b (publishWarnings f b (publishDoor g b (publishSense b s)))) =
      faultBytes s := by
    simp [faultBytes, recordCount]
  have written := publishFaults_written b
    (publishJournal b (publishWarnings f b (publishDoor g b (publishSense b s)))) (f := false) (by simpa using h)
  rw [same] at written
  refine imageWritten_congr (by simp [faultArea]) (fun a low high => ?_) written fun a low high => ?_
  · simp only [faultArea] at low high
    rw [publishJournal_outside _ _ (by omega), publishWarnings_outside _ _ _ (by omega),
      publishDoor_outside _ _ _ (by omega), publishSense_outside _ _ (by omega)]
  · simp only [faultArea] at low high
    unfold publishAll
    rw [publishOutput_outside _ _ (by omega)]

theorem publishAll_output (f g : Bool) (h : outputBytes b ≠ outputBytes s) :
    imageWritten outputArea (outputBytes s) s (publishAll f g b s) := by
  have same : outputBytes (publishFaults false b (publishJournal b (publishWarnings f b (publishDoor g b
      (publishSense b s))))) = outputBytes s := by
    simp [outputBytes]
  have written := publishOutput_written b (publishFaults false b (publishJournal b (publishWarnings f b
    (publishDoor g b (publishSense b s))))) (by rwa [same])
  rw [same] at written
  refine imageWritten_congr (by simp [outputArea]) (fun a low high => ?_) written fun a low high => rfl
  simp only [outputArea] at low high
  rw [publishFaults_outside _ _ _ (by omega), publishJournal_outside _ _ (by omega),
    publishWarnings_outside _ _ _ (by omega), publishDoor_outside _ _ _ (by omega),
    publishSense_outside _ _ (by omega)]

theorem publishAll_output_same (f g : Bool) (h : outputBytes b = outputBytes s) :
    areaSame outputArea s (publishAll f g b s) := by
  intro a low high
  simp only [outputArea] at low high
  unfold publishAll
  rw [publishOutput_same _ _ (by rw [h]; simp [outputBytes]), publishFaults_outside _ _ _ (by omega),
    publishJournal_outside _ _ (by omega), publishWarnings_outside _ _ _ (by omega),
    publishDoor_outside _ _ _ (by omega), publishSense_outside _ _ (by omega)]

theorem publishAll_besideImages (f g : Bool) : besideImages (publishAll f g b s) = besideImages s := by
  simp [besideImages]

/-- The notices of a publication: DOORS_CHANGED for a field of the door image, WARNINGS_CHANGED for one of the list,
FAULT_MEMORY_CHANGED for an event of the view (R86, R101, R137). -/
theorem publishAll_notice (f g : Bool) (n : Notice) : noticeSet (publishAll f g b s) n =
    (noticeSet s n ||
      (decide (.doorsChanged = n) && (g || decide (doorFields b ≠ doorFields s))) ||
      (decide (.warningsChanged = n) && (f || decide (listFields b ≠ listFields s))) ||
      (decide (.faultMemoryChanged = n) && decide (b.faults.viewEvents ≠ s.faults.viewEvents))) := by
  have fields : listFields (publishDoor g b (publishSense b s)) = listFields s := by simp [listFields]
  have doors : doorFields (publishSense b s) = doorFields s := by simp [doorFields]
  unfold publishAll
  rw [publishOutput_notice, publishFaults_notice, publishJournal_notice, publishWarnings_notice, publishDoor_notice,
    publishSense_notice, fields, doors]
  simp

/-! ## What the images show -/

theorem senseBytes_congr (sense : b.sense = s.sense) (image : b.image = s.image) : senseBytes b = senseBytes s := by
  unfold senseBytes ignitionOn lineState
  rw [sense, image]

theorem doorFields_congr (door : b.door = s.door) (image : b.image = s.image) : doorFields b = doorFields s := by
  simp only [doorFields, door, image]

theorem doorBytes_congr (door : b.door = s.door) (image : b.image = s.image) : doorBytes b = doorBytes s := by
  simp only [doorBytes, door, image]

theorem listFields_congr (warn : b.warn = s.warn) (image : b.image = s.image) : listFields b = listFields s := by
  simp only [listFields, warn, image]

theorem listSeconds_congr (warn : b.warn = s.warn) : listSeconds b = listSeconds s := by
  simp only [listSeconds, warn]

theorem listBytes_congr (warn : b.warn = s.warn) (image : b.image = s.image) : listBytes b = listBytes s := by
  simp only [listBytes, warn, image]

theorem outputBytes_congr (out : b.out = s.out) : outputBytes b = outputBytes s := by
  simp only [outputBytes, out]

/-- A publication where only the Doorway Monitor's state may show a change. -/
theorem publish_onlyDoor (sense : b.sense = s.sense) (image : b.image = s.image) (warn : b.warn = s.warn)
    (journal : b.door.journal = s.door.journal) (views : b.faults = s.faults) (out : b.out = s.out) :
    publish b s = publishDoor false b s := by
  have fields : listFields b = listFields (publishDoor false b s) := listFields_congr (by simp [warn]) (by simp [image])
  have seconds : listSeconds b = listSeconds (publishDoor false b s) := listSeconds_congr (by simp [warn])
  have output : outputBytes b = outputBytes (publishDoor false b s) := outputBytes_congr (by simp [out])
  unfold publish publishAll
  rw [publishSense_same b s (senseBytes_congr sense image), publishWarnings_same _ _ fields seconds, publishJournal,
    if_pos (by simp [journal]), publishFaults, if_neg (by simp [views]), publishOutput_same _ _ output]

/-- A publication where only the Warning Unit's and the Output Unit's state may show a change. -/
theorem publish_listOutput (sense : b.sense = s.sense) (image : b.image = s.image) (fields : doorFields b = doorFields s)
    (bytes : doorBytes b = doorBytes s) (journal : b.door.journal = s.door.journal)
    (views : b.faults = s.faults) : publish b s = publishOutput b (publishWarnings false b s) := by
  unfold publish publishAll
  rw [publishSense_same b s (senseBytes_congr sense image), publishDoor_same b s bytes fields, publishJournal,
    if_pos (by simp [journal]), publishFaults, if_neg (by simp [views])]

/-- A publication where only the Output Unit's state may show a change. -/
theorem publish_onlyOutput (sense : b.sense = s.sense) (image : b.image = s.image) (door : b.door = s.door)
    (warn : b.warn = s.warn) (views : b.faults = s.faults) : publish b s = publishOutput b s := by
  rw [publish_listOutput sense image (doorFields_congr door image) (doorBytes_congr door image) (by rw [door]) views,
    publishWarnings_same _ _ (listFields_congr warn image) (listSeconds_congr warn)]

end Publication

end Sys2Proof.Proofs

/-! Time, the lines' debouncing and the timers: what a sample, a phase edge, a timer step and the expiries of timers
with one effect do. -/

namespace Sys2Proof.Proofs

open Sys2Proof Sys2Proof.Machine Sys2Proof.Safety

/-! ## Debouncing -/

/-- A run of samples of one state, other than the debounced one, on a line without that candidate. -/
theorem debounce_run (n : Nat) (st : LineState) (l : Line) (k : Nat) (other : st ≠ l.debounced)
    (counting : (l.candidate = none ∧ k = 0) ∨ (l.candidate = some st ∧ l.run = k)) :
    l.debounce n st =
      if requiredCount n st ≤ k + 1 then { l with debounced := st, candidate := none, run := 0 }
      else { l with candidate := some st, run := k + 1 } := by
  obtain ⟨none, rfl⟩ | ⟨some, rfl⟩ := counting
  · simp [Line.debounce, other, none]
  · simp [Line.debounce, other, some]

theorem sample_counted {e : LineEntry} (used : e.role ≠ .unused) (l : Line) (r : Sample) :
    l.sample e false r = ({ l with lastClass := some (rawClass e.diagnosis r) } : Line).debounce e.n
      (sampleState e.openedActive (rawClass e.diagnosis r)) := by
  simp [Line.sample, used]

/-- Samples of one state fewer than the required count leave the debounced state and count the run; the one that
completes the count takes it (R8). -/
theorem samples_run {e : LineEntry} (used : e.role ≠ .unused) {st : LineState} : ∀ (rs : List Sample) (l : Line)
    (k : Nat), st ≠ l.debounced → ((l.candidate = none ∧ k = 0) ∨ (l.candidate = some st ∧ l.run = k)) → rs ≠ [] →
    (∀ r ∈ rs, sampleState e.openedActive (rawClass e.diagnosis r) = st) →
    let l' := rs.foldl (fun x r => x.sample e false r) l
    (k + rs.length < requiredCount e.n st →
      l'.debounced = l.debounced ∧ l'.candidate = some st ∧ l'.run = k + rs.length) ∧
    (k + rs.length = requiredCount e.n st → l'.debounced = st ∧ l'.candidate = none ∧ l'.run = 0)
  | [], _, _, _, _, empty, _ => absurd rfl empty
  | r :: rs, l, k, other, counting, _, same => by
    have step := debounce_run e.n st { l with lastClass := some (rawClass e.diagnosis r) } k other counting
    have first := same r (by simp)
    rw [List.foldl_cons, sample_counted used, first, step]
    by_cases last : rs = []
    · subst last
      dsimp only [List.foldl_nil, List.length_cons, List.length_nil]
      refine ⟨fun short => ?_, fun full => ?_⟩
      · rw [if_neg (by omega)]
        exact ⟨rfl, rfl, rfl⟩
      · rw [if_pos (by omega)]
        exact ⟨rfl, rfl, rfl⟩
    · have longer := List.length_pos_iff.mpr last
      by_cases short : requiredCount e.n st ≤ k + 1
      · rw [if_pos short]
        simp only [List.length_cons]
        exact ⟨fun h => by omega, fun h => by omega⟩
      · rw [if_neg short]
        have rest := samples_run used rs { l with
            lastClass := some (rawClass e.diagnosis r), candidate := some st, run := k + 1 } (k + 1) other
          (.inr ⟨rfl, rfl⟩) last fun r mem => same r (by simp [mem])
        simp only [List.length_cons]
        rw [show k + (rs.length + 1) = k + 1 + rs.length by omega]
        exact rest

/-- Settles O7, by induction on the samples. -/
theorem debounceNeedsFullRun : Obligations.DebounceNeedsFullRun := by
  intro e l st rs used fresh other some same
  have run := samples_run used rs l 0 other (.inl ⟨fresh, rfl⟩) some same
  have required : (if st = .short ∨ st = .broken then max e.n 20 else e.n) = requiredCount e.n st := by
    cases st <;> rfl
  simpa only [required, Nat.zero_add] using run

/-! ## Phase edges -/

/-- Settles O12: `atEdge` moves time alone, `edgeLamps` the pins alone. -/
theorem phaseEdgeSwitchesPins : Obligations.PhaseEdgeSwitchesPins := by
  intro s phase
  refine ⟨edgeLamps phase (atEdge phase s), rfl, ?_⟩
  cases phase with
  | slow =>
    refine ⟨rfl, fun m => ?_, rfl⟩
    simp only [edgeLamps, atEdge, Vector.getElem_ofFn, Fin.getElem_fin, Lamp.atEdge]
    cases s.out.lamps[m.val].appearance <;> rfl
  | fast =>
    refine ⟨rfl, fun m => ?_, rfl⟩
    simp only [edgeLamps, atEdge, Vector.getElem_ofFn, Fin.getElem_fin, Lamp.atEdge]
    cases s.out.lamps[m.val].appearance <;> rfl

/-! ## The maturity -/

/-- The permit has a bit of its own in the door image (R86). -/
theorem doorFlags_permit {k r l p q : Bool}
    (h : octet (flag k + 2 * flag r + 4 * flag l + 8 * flag p) = octet (flag k + 2 * flag r + 4 * flag l + 8 * flag q)) :
    p = q := by
  revert k r l p q
  decide

theorem doorBytes_flags (s : State) : (doorBytes s)[4]? =
    some (octet (flag s.door.kneel + 2 * flag s.door.ramp + 4 * flag s.door.latch + 8 * flag s.door.dpermit)) := by
  simp [doorBytes]

theorem doorFields_flags (s : State) : (doorFields s)[4]? =
    some (octet (flag s.door.kneel + 2 * flag s.door.ramp + 4 * flag s.door.latch + 8 * flag s.door.dpermit)) := by
  simp [doorFields, flag_bit, byte, octet]

/-- The state after a maturity's judgement. -/
def matured (s : State) : State := setDoor { s.door with matureDue := false, dpermit := permitJudged s } s

theorem takeMaturity_due {s : State} (due : s.door.matureDue = true) : takeMaturity s = matured s := by
  rw [takeMaturity, if_pos due]
  rfl

/-- Settles O9: the permit alone can change in what the door image shows. -/
theorem maturityJudgesPermit : Obligations.MaturityJudgesPermit := by
  intro s
  have run : exec .standstillMature s = .next (publish s (takeMaturity s)) := rfl
  constructor
  · intro idle
    rw [run, takeMaturity, if_neg (by simp [idle]), publish_self]
  · intro due
    have doors : publish s (matured s) = publishDoor false s (matured s) :=
      publish_onlyDoor rfl rfl rfl rfl rfl rfl
    rw [takeMaturity_due due] at run
    refine ⟨_, run, ?_⟩
    intro p
    refine ⟨publishAll_besideImages false false, fun changed => ?_, fun same => ?_, ?_, fun n => ?_⟩
    · have bytes : doorBytes s ≠ doorBytes (matured s) := fun e => by
        have flags := congrArg (·[4]?) e
        simp only [doorBytes_flags, Option.some.injEq] at flags
        exact changed (doorFlags_permit flags).symm
      have fields : doorFields s ≠ doorFields (matured s) := fun e => by
        have flags := congrArg (·[4]?) e
        simp only [doorFields_flags, Option.some.injEq] at flags
        exact changed (doorFlags_permit flags).symm
      rw [doors]
      refine ⟨by simp [publishDoor_notice, fields], ?_⟩
      rw [doorBytes_congr (s := matured s) (by simp) (by simp)]
      exact publishDoor_written s (matured s) (.inr bytes)
    · have permit : permitJudged s = s.door.dpermit := same
      rw [doors, publishDoor_same]
      · rfl
      · simp [doorBytes, matured, permit]
      · simp [doorFields, matured, permit, openSequence]
    · intro a outside
      rw [doors, publishDoor_outside _ _ _ (by simpa [doorArea] using outside)]
      rfl
    · rw [doors, publishDoor_notice]
      have start : noticeSet (matured s) n = noticeSet s n := rfl
      rw [start]
      exact ⟨fun set => by simp [set], fun other => by
        rw [decide_eq_false (fun e => other (by simp [e])), Bool.false_and, Bool.or_false]⟩

/-! ## A timer step -/

/-- What a timer step changes in a timer at `i` (R3). -/
theorem tick_eq (i : Nat) (x : Timer) :
    x.tick i = if x.since = i then x else { left := x.left - 1, since := x.since } := by
  unfold Timer.tick
  split <;> rfl

section Step

variable (s : State)

theorem atStep_rest : (atStep s).sense = s.sense ∧ (atStep s).pulse = s.pulse ∧ (atStep s).dist = s.dist ∧
    (atStep s).analog = s.analog ∧ (atStep s).door = s.door ∧ (atStep s).warn = s.warn ∧ (atStep s).out = s.out ∧
    (atStep s).faults = s.faults ∧ (atStep s).link = s.link ∧ (atStep s).win = s.win ∧ (atStep s).image = s.image :=
  ⟨rfl, rfl, rfl, rfl, rfl, rfl, rfl, rfl, rfl, rfl, rfl⟩

theorem stepTimers_channel (c : Fin 6) : (stepTimers s).analog.channels[c] =
    if s.analog.crankHold = true then s.analog.channels[c]
    else { s.analog.channels[c] with hold := s.analog.channels[c].hold.map (Timer.tick s.time.now) } := by
  have block : (stepTimers s).analog = (tickHolds (tickDoors (tickAge (tickWarnings s)))).analog := by
    simp [stepTimers]
  rw [block]
  by_cases crank : s.analog.crankHold = true <;> simp [tickHolds, crank, setAnalog]

theorem stepTimers_doorway (n : Fin 4) : (stepTimers s).door.doorways[n] =
    { s.door.doorways[n] with
      travel := s.door.doorways[n].travel.map (Timer.tick s.time.now)
      conflict := s.door.doorways[n].conflict.map (Timer.tick s.time.now) } := by
  simp [stepTimers, tickDoors]

theorem stepTimers_warning (w : Fin 48) : (stepTimers s).warn.warnings[w] =
    { s.warn.warnings[w] with
      timer := s.warn.warnings[w].timer.map (Timer.tick s.time.now)
      age := if s.warn.warnings[w].state.listed = true ∧ s.warn.warnings[w].onsetAt ≠ s.time.now
        then s.warn.warnings[w].age + 1 else s.warn.warnings[w].age } := by
  simp [stepTimers, tickWarnings]

theorem stepTimers_watch : (stepTimers s).dist.watch =
    match s.dist.watch with
    | .timing x => .timing (x.tick s.time.now)
    | .armed => .armed
    | .spent => .spent := by
  have block : (stepTimers s).dist.watch =
      (tickWatch (tickOutputs (tickHolds (tickDoors (tickAge (tickWarnings s)))))).dist.watch := by
    simp [stepTimers]
  rw [block, tickWatch]
  split <;> simp_all [setDist]

theorem tickAge_age : (tickAge s).door.age =
    match s.door.age, s.pulse.standstillAt with
    | some a, some z => if z < s.time.now then some (min (a + 1) 200) else some a
    | a, _ => a := by
  unfold tickAge
  cases age : s.door.age <;> cases s.pulse.standstillAt <;> try exact age
  dsimp only
  split
  · rfl
  · exact age

theorem tickAge_mature : (tickAge s).door.matureDue = (s.door.matureDue ||
    match s.door.age, s.pulse.standstillAt with
    | some a, some z => decide (z < s.time.now) && decide (a < 200) &&
        decide (a + 1 = ((pulseParams s.image).permitDelay + 9) / 10)
    | _, _ => false) := by
  unfold tickAge
  cases s.door.age <;> cases s.pulse.standstillAt <;> try exact (Bool.or_false _).symm
  next a z =>
    dsimp only
    split
    next later =>
      simp only [setDoor, permitSteps, stepsOf, later, decide_true, Bool.true_and]
      congr 1
      by_cases young : a < 200
      · simp only [Nat.min_eq_left (show a + 1 ≤ 200 by omega), young, Nat.lt_add_one]
      · simp [young]
    next early => simp [early]

theorem stepTimers_age : (stepTimers s).door.age = (tickAge (tickWarnings s)).door.age ∧
    (stepTimers s).door.matureDue = (tickAge (tickWarnings s)).door.matureDue := by
  simp [stepTimers, tickDoors]

theorem stepTimers_door : (stepTimers s).door = { s.door with
    doorways := (stepTimers s).door.doorways, age := (stepTimers s).door.age
    matureDue := (stepTimers s).door.matureDue } := by
  have kept : (tickAge (tickWarnings s)).door = { s.door with
      age := (tickAge (tickWarnings s)).door.age, matureDue := (tickAge (tickWarnings s)).door.matureDue } := by
    simp only [tickAge]
    split
    · split <;> rfl
    · rfl
  have block : (stepTimers s).door = (tickDoors (tickAge (tickWarnings s))).door := by simp [stepTimers]
  rw [block, tickDoors, setDoor, kept]

theorem stepTimers_out : (stepTimers s).out = (tickOutputs s).out := by
  simp [stepTimers, tickOutputs]

theorem stepTimers_link : (stepTimers s).link = (tickLink s).link := by
  simp [stepTimers, tickLink]

theorem stepTimers_warn : (stepTimers s).warn = { s.warn with warnings := (stepTimers s).warn.warnings } := by
  have block : (stepTimers s).warn = (tickWarnings s).warn := by simp [stepTimers]
  rw [block]
  rfl

theorem stepTimers_dist : (stepTimers s).dist = { s.dist with watch := (stepTimers s).dist.watch } := by
  have block : (stepTimers s).dist =
      (tickWatch (tickOutputs (tickHolds (tickDoors (tickAge (tickWarnings s)))))).dist := by
    simp [stepTimers]
  rw [block, tickWatch]
  split <;> simp [setDist]

theorem stepTimers_analog :
    (stepTimers s).analog = { s.analog with channels := (stepTimers s).analog.channels } := by
  have block : (stepTimers s).analog = (tickHolds (tickDoors (tickAge (tickWarnings s)))).analog := by
    simp [stepTimers]
  rw [block, tickHolds]
  split <;> simp [setAnalog]

theorem stepTimers_rest : (stepTimers s).time = s.time ∧ (stepTimers s).sense = s.sense ∧
    (stepTimers s).pulse = s.pulse ∧ (stepTimers s).faults = s.faults ∧ (stepTimers s).store = s.store ∧
    (stepTimers s).win = s.win ∧ (stepTimers s).image = s.image ∧ (stepTimers s).pending = s.pending := by
  simp [stepTimers]

theorem stepTimers_win : (stepTimers s).win = s.win := by
  simp [stepTimers]

end Step

theorem timerStep_fields (s : State) : listFields s = listFields (stepTimers (atStep s)) := by
  obtain ⟨-, -, -, -, -, warn, -, -, -, -, -⟩ := atStep_rest s
  have image' : (stepTimers (atStep s)).image = s.image := by simp [stepTimers]
  have states : ∀ w : Fin 48, (stepTimers (atStep s)).warn.warnings[w].state = s.warn.warnings[w].state ∧
      (stepTimers (atStep s)).warn.warnings[w].number = s.warn.warnings[w].number := fun w => by
    rw [stepTimers_warning, warn]
    exact ⟨rfl, rfl⟩
  unfold listFields
  rw [image', stepTimers_warn, warn]
  simp only [states]

theorem timerStep_ram (s : State) : (stepTimers (atStep s)).win.ram = s.win.ram := by
  rw [stepTimers_win]
  rfl

theorem timerStep_images (s : State) : doorFields s = doorFields (stepTimers (atStep s)) ∧
    doorBytes s = doorBytes (stepTimers (atStep s)) := by
  obtain ⟨-, -, -, -, door, -, -, -, -, -, image⟩ := atStep_rest s
  have image' : (stepTimers (atStep s)).image = s.image := by simp [stepTimers]
  have states : ∀ n : Fin 4, (stepTimers (atStep s)).door.doorways[n].state = s.door.doorways[n].state ∧
      (stepTimers (atStep s)).door.doorways[n].obstructed = s.door.doorways[n].obstructed ∧
      (stepTimers (atStep s)).door.doorways[n].emergency = s.door.doorways[n].emergency := fun n => by
    rw [stepTimers_doorway, door]
    exact ⟨rfl, rfl, rfl⟩
  constructor
  · unfold doorFields openSequence
    rw [stepTimers_door, door, image']
    simp only [states]
  · unfold doorBytes
    rw [stepTimers_door, door, image']
    simp only [states]

/-- What a timer step leaves to its publication: no field of the sense, door, journal and fault images changes. -/
theorem timerStep_published (s : State) : publish s (stepTimers (atStep s)) =
    publishOutput s (publishWarnings false s (stepTimers (atStep s))) := by
  refine publish_listOutput ?_ ?_ (timerStep_images s).1 (timerStep_images s).2 ?_ ?_
  · simp [stepTimers]
  · simp [stepTimers]
  · rw [stepTimers_door]
    simp
  · simp [stepTimers]

/-- Settles O8: one conjunct for each block's timers, then the two images that they reach. -/
theorem timerStepCountsEveryTimer : Obligations.TimerStepCountsEveryTimer := by
  intro s
  refine ⟨publish s (stepTimers (atStep s)), rfl, ?_⟩
  intro i tick
  have ticks : Timer.tick (atStep s).time.now = tick := funext fun x => tick_eq i x
  obtain ⟨-, pulse, dist, analog, door, warn, out, -, link, -, image⟩ := atStep_rest s
  refine ⟨fun c => ?_, fun n => ?_, fun w => ?_, ?_, ?_, ?_, ?_, ?_, ?_, ?_, ?_, ?_, ?_, ?_, ?_, ?_⟩
  · simp only [publish_frame, stepTimers_channel, ticks, analog]
  · simp only [publish_frame, stepTimers_doorway, ticks, door]
  · simp only [publish_frame, stepTimers_warning, ticks, warn]
    rfl
  · simp only [publish_frame, stepTimers_watch, ticks, dist] <;> rfl
  · simp only [publish_frame, stepTimers_age, tickAge_age]
    simp only [tickWarnings_frame, door, pulse]
    rfl
  · simp only [publish_frame, stepTimers_age, tickAge_mature]
    simp only [tickWarnings_frame, door, pulse, image]
    rfl
  · simp only [publish_frame, stepTimers_out, tickOutputs, ticks, out]
  · simp only [publish_frame, stepTimers_out, tickOutputs, ticks, out]
  · simp only [publish_frame, stepTimers_out, tickOutputs, ticks, out]
  · simp only [publish_frame, stepTimers_link, tickLink, ticks, link, setLink]
  · refine (publishAll_besideImages false false).trans (besideImages_eq ?_ ?_ ?_ ?_ ?_ ?_ ?_ ?_ ?_ ?_ ?_ ?_ ?_ ?_)
    all_goals simp only [publish_frame, stepTimers_rest]
    case refine_4 => rw [stepTimers_dist, dist]
    case refine_5 => rw [stepTimers_analog, analog]
    case refine_6 => rw [stepTimers_door, door]
    case refine_7 => rw [stepTimers_warn, warn]
    case refine_8 =>
      rw [stepTimers_out]
      simp only [tickOutputs, out]
    all_goals rfl
  · intro seconds
    refine ⟨fun changed => ?_, fun same a outside => ?_⟩
    · rw [listBytes_congr (s := stepTimers (atStep s)) (by simp) (by simp)]
      refine imageWritten_of_ram (timerStep_ram s) (publishAll_list false (.inr (.inr fun e => ?_)))
      exact changed (by simpa [seconds, listSeconds, onsetSeconds] using e.symm)
    · have seconds' : listSeconds s = listSeconds (stepTimers (atStep s)) := by
        simpa [seconds, listSeconds, onsetSeconds] using same.symm
      rw [timerStep_published, publishWarnings_same _ _ (timerStep_fields s) seconds',
        publishOutput_outside _ _ (by simpa [outputArea] using outside)]
      exact ramRead_congr (timerStep_ram s) a
  · intro changed
    rw [outputBytes_congr (s := stepTimers (atStep s)) (by simp)] at changed ⊢
    exact imageWritten_of_ram (timerStep_ram s) (publishAll_output false false changed.symm)
  · intro same a outside
    rw [outputBytes_congr (s := stepTimers (atStep s)) (by simp)] at same
    rw [timerStep_published, publishOutput_same _ _ (same.symm.trans (outputBytes_congr (by simp))),
      publishWarnings_outside _ _ _ (by simpa [listArea] using outside)]
    exact ramRead_congr (timerStep_ram s) a
  · intro a outside
    simp only [List.mem_cons, List.not_mem_nil, or_false, forall_eq_or_imp, forall_eq, listArea, outputArea] at outside
    rw [timerStep_published, publishOutput_outside _ _ (by omega), publishWarnings_outside _ _ _ (by omega)]
    exact ramRead_congr (timerStep_ram s) a
  · have unset : (publishOutput s (publishWarnings false s (stepTimers (atStep s)))).win.notice =
        (publishWarnings false s (stepTimers (atStep s))).win.notice := by simp
    rw [timerStep_published, unset, publishWarnings, if_neg (by simp [timerStep_fields s])]
    split <;> simp [stepTimers_win, atStep]

end Sys2Proof.Proofs

/-! The end of an event: the warnings judged once, and what the judgement and the publication write. -/

namespace Sys2Proof.Proofs

open Sys2Proof Sys2Proof.Machine Sys2Proof.Safety

/-! ## The judgement at an event's end -/

/-- The images that judged warnings write. -/
def warningAreas : List Area := [outputArea, listArea, faultArea]

/-- The notices that judged warnings set. -/
def warningNotices : List Notice := [.warningsChanged, .faultMemoryChanged, .outputTest, .slotDone]

section Finish

variable {b u : State}

theorem finish_sources (b u : State) : SameSources (finish b u) u := by
  constructor <;> simp [finish]

/-- Every warning is judged once at an event's end, against the state after the event. -/
theorem finish_judged (b u : State) :
    warningsJudged (finish b u) (finish b u).time.now u.warn (finish b u).warn := by
  have judged := judgeAll_judges (finish_sources b u)
  have warn : (finish b u).warn = (judgeAll u).warn := by simp [finish]
  have time : (finish b u).time = u.time := by simp [finish]
  rw [warn, time]
  exact judged

/-- Two states that agree in all that `besideWarnings` keeps. -/
theorem besideWarnings_eq {s t : State} (time : t.time = s.time) (sense : t.sense = s.sense) (pulse : t.pulse = s.pulse)
    (dist : t.dist = s.dist) (analog : t.analog = s.analog) (door : t.door = s.door)
    (handed : t.warn.handed = s.warn.handed) (supervision : t.out.supervision = s.out.supervision)
    (clear : t.faults.clear = s.faults.clear) (store : { t.store with queue := [] } = { s.store with queue := [] })
    (link : besideReply t.link = besideReply s.link)
    (ops : { t.win.ops with test := .idle } = { s.win.ops with test := .idle })
    (win : { t.win with ram := [], notice := 0, slots := s.win.slots, ops := s.win.ops } =
      { s.win with ram := [], notice := 0 })
    (image : t.image = s.image) (pending : t.pending = s.pending) : besideWarnings t = besideWarnings s := by
  have window := congrArg (fun x : WindowPort => { x with
    slots := Vector.replicate 8 SlotState.free, ops := { s.win.ops with test := WindowOp.idle } }) win
  have window' : { t.win with
      ram := [], notice := 0, slots := Vector.replicate 8 SlotState.free, ops := { t.win.ops with test := .idle } } =
      { s.win with ram := [], notice := 0, slots := Vector.replicate 8 SlotState.free
                   ops := { s.win.ops with test := .idle } } := by
    rw [ops]
    exact window
  unfold besideWarnings
  rw [time, sense, pulse, dist, analog, door, handed, supervision, clear, store, link, window', image, pending]

/-- The judgement and its consequences leave all that `besideWarnings` keeps. -/
theorem finish_beside (b u : State) : besideWarnings (finish b u) = besideWarnings u := by
  have ops : { (finish b u).win.ops with test := WindowOp.idle } = { u.win.ops with test := WindowOp.idle } := by
    obtain e | e := (finish_reach b u).op <;> rw [e]
  refine besideWarnings_eq ?_ ?_ ?_ ?_ ?_ ?_ ?_ ?_ ?_ ?_ ?_ ops ?_ ?_ ?_ <;> simp [finish, besideReply]

/-- A publication where no field of the sense, the door and the journal image has changed. -/
theorem publish_reachWarnings (sense : senseBytes b = senseBytes u) (fields : doorFields b = doorFields u)
    (doors : doorBytes b = doorBytes u) (journal : b.door.journal = u.door.journal) :
    Reach warningAreas warningNotices u (publish b u) := by
  refine ⟨fun a outside => ?_, fun n => ?_, .inl (by simp), fun q => ⟨by simp [q], by simp, by simp, by simp⟩⟩
  · have apart : ∀ r ∈ warningAreas, a < r.1 ∨ r.1 + r.2 ≤ a := fun r mem => outside r (by simp [mem])
    simp only [warningAreas, List.mem_cons, List.not_mem_nil, or_false, forall_eq_or_imp, forall_eq, outputArea,
      listArea, faultArea] at apart
    unfold publish publishAll
    rw [publishOutput_outside _ _ (by omega), publishFaults_outside _ _ _ (by omega), publishJournal,
      if_pos (by simp [journal]), publishWarnings_outside _ _ _ (by omega), publishSense_same b u sense,
      publishDoor_same b u doors fields]
  · have kept : n ∉ warningNotices → n ≠ .warningsChanged ∧ n ≠ .faultMemoryChanged := fun other =>
      ⟨fun e => other (by simp [e, warningNotices]), fun e => other (by simp [e, warningNotices])⟩
    rw [publish, publishAll_notice]
    refine ⟨fun set => by simp [set], fun other => ?_⟩
    simp [fields, Ne.symm (kept other).1, Ne.symm (kept other).2]

theorem finish_reachWarnings (sense : senseBytes b = senseBytes u) (fields : doorFields b = doorFields u)
    (doors : doorBytes b = doorBytes u) (journal : b.door.journal = u.door.journal) :
    Reach warningAreas warningNotices u (finish b u) := by
  refine ((judgeAll_reach u).mono (by simp) (by simp [warningNotices])).trans
    (publish_reachWarnings ?_ ?_ ?_ ?_)
  · exact sense.trans (senseBytes_congr (by simp) (by simp))
  · exact fields.trans (doorFields_congr (by simp) (by simp))
  · exact doors.trans (doorBytes_congr (by simp) (by simp))
  · simp [journal]

/-- What judged warnings reach, from the state before the event whose window and link it had left alone. -/
theorem reach_warning {s t : State} (h : Reach warningAreas warningNotices u t) (win : u.win = s.win)
    (test : u.out.test = s.out.test) (link : u.link = s.link) : warningReach s t := by
  obtain ⟨ram, notices, -, quiet⟩ := h
  refine ⟨fun a outside => ?_, fun n => ?_, fun none => ?_⟩
  · rw [ram a (by rw [win]; exact outside), ramRead, ramRead, win]
  · have n' := notices n
    simp only [noticeSet, win] at n'
    exact n'
  · have quiet' := quiet (test.trans none)
    unfold noDelivery at quiet' ⊢
    rw [win, link] at quiet'
    exact quiet'

end Finish

/-! ## The analog timers -/

section Analog

variable (s : State) (n : Fin 5)

/-- The state after the hold timer of a sender has expired, the warnings not yet judged. -/
def holdEnded (s : State) (n : Fin 5) : State :=
  setAnalog { s.analog with
    channels := s.analog.channels.set n.castSucc.val { s.analog.channels[n.castSucc] with
      status := .invalid, fault := true, hold := none } n.castSucc.isLt } s

theorem holdExpiry_expired (h : expired s.analog.channels[n.castSucc].hold = true) :
    holdExpiry n s = holdEnded s n := by
  rw [holdExpiry, if_pos h]
  rfl

theorem senderFault_holdEnded : senderFault (holdEnded s n) n = true := by
  simp [senderFault, holdEnded, setAnalog]

/-- The state that the end of a hold leaves: a fault newly set has the warnings judged. -/
theorem holdTimer_judged : warningReach s (settle (senderFault s n != true) s (holdEnded s n)) ∧
    (settle (senderFault s n != true) s (holdEnded s n)).analog = (holdEnded s n).analog ∧
    besideWarnings (settle (senderFault s n != true) s (holdEnded s n)) = besideWarnings (holdEnded s n) := by
  unfold settle
  split
  · exact ⟨reach_warning (finish_reachWarnings (senseBytes_congr rfl rfl) (doorFields_congr rfl rfl)
      (doorBytes_congr rfl rfl) rfl) rfl rfl rfl, (finish_sources _ _).analog, finish_beside _ _⟩
  · refine ⟨reach_warning (publish_reachWarnings (senseBytes_congr rfl rfl) (doorFields_congr rfl rfl)
      (doorBytes_congr rfl rfl) rfl) rfl rfl rfl, by simp, ?_⟩
    exact besideWarnings_eq (by simp) (by simp) (by simp) (by simp) (by simp) (by simp) (by simp) (by simp) (by simp)
      (by simp) (by simp) (by simp) (by simp) (by simp) (by simp)

end Analog

theorem enqueue_store (o : Object) (s : State) :
    enqueue o s = { s with store := { s.store with queue := addJob s.store.queue o } } := by
  unfold enqueue addJob
  split <;> rfl

/-- A save trigger: the save count starts again, and the ring and both trips are enqueued (R43). -/
theorem saveTrigger_eq (s : State) : saveTrigger s = { s with
    dist := { s.dist with ticks := 0 }
    store := { s.store with queue := addJob (addJob (addJob s.store.queue .ring) .tripA) .tripB } } := by
  simp only [saveTrigger, enqueue_store]
  rfl

/-- Settles O20: the hold timer's channel, then what a new fault flag has judged; the watch's save. -/
theorem analogTimerExpiries : Obligations.AnalogTimerExpiries := by
  intro s n c
  have held : exec (.holdTimerExpiry n) s =
      .next (settle (senderFault s n != senderFault (holdExpiry n s) n) s (holdExpiry n s)) := rfl
  have watch : exec .lowSupplyWatchExpiry s = .next (watchExpiry s) := rfl
  refine ⟨fun idle => ?_, fun due => ?_, fun x timing zero => ?_, fun idle => ?_⟩
  · have same : holdExpiry n s = s := if_neg (Bool.eq_false_iff.mp idle)
    rw [held, same, bne_self_eq_false, settle, if_neg (by simp), publish_self]
  · rw [holdExpiry_expired s n due, senderFault_holdEnded] at held
    obtain ⟨reach, analog, beside⟩ := holdTimer_judged s n
    refine ⟨_, held, analog, fun fresh => ?_, fun old => ?_, ?_, reach⟩
    · have changed : (senderFault s n != true) = true := congrArg (· != true) fresh
      rw [changed, settle, if_pos rfl]
      exact finish_judged s (holdEnded s n)
    · have unchanged : (senderFault s n != true) = false := congrArg (· != true) old
      rw [unchanged, settle, if_neg (by simp)]
      simp [holdEnded]
    · exact congrArg (fun u : State => { u with analog := s.analog }) beside
  · rw [watch, watchExpiry, timing]
    simp only [zero, if_true, saveTrigger_eq, setDist]
  · rw [watch, watchExpiry]
    cases timer : s.dist.watch with
    | timing x => exact congrArg Host.Outcome.next (if_neg (idle x timer))
    | armed => rfl
    | spent => rfl

/-! ## The pulse edges -/

theorem acceptPulseV_invalid {s : State} (h : sourceValid s.pulse = false) : acceptPulseV s = setPulse { s.pulse with
    lastEdge := stampOf s.time.now, count := min (s.pulse.count + 1) 65535 } s := by
  simp [acceptPulseV, h]

/-- An accepted edge that does not fill the accumulator (R19). -/
theorem acceptPulseV_short {s : State} (h : sourceValid s.pulse = true) (short : s.pulse.acc + 100 < s.pulse.k) :
    acceptPulseV s = setPulse { s.pulse with
      lastEdge := stampOf s.time.now, count := min (s.pulse.count + 1) 65535, acc := s.pulse.acc + 100 } s := by
  simp [acceptPulseV, h, feed, Nat.not_le.mpr short]

/-- An accepted edge that emits a distance tick (R20). -/
theorem acceptPulseV_tick {s : State} (h : sourceValid s.pulse = true) (full : s.pulse.k ≤ s.pulse.acc + 100) :
    acceptPulseV s = distanceTick (setPulse { s.pulse with
      lastEdge := stampOf s.time.now, count := min (s.pulse.count + 1) 65535
      acc := s.pulse.acc + 100 - s.pulse.k } s) := by
  simp [acceptPulseV, h, feed, full]

theorem distanceTick_last {s : State} (last : s.dist.live = 999999999) (few : s.dist.ticks < 100) :
    distanceTick s = setDist { s.dist with tripA := s.dist.tripA.tick, tripB := s.dist.tripB.tick } s := by
  have same : s.dist.ticks ≠ 100 := by omega
  simp [distanceTick, Distance.tick, odometerMax, last, setDist, same]

theorem distanceTick_counts {s : State} (live : s.dist.live ≠ 999999999) (ticks : s.dist.ticks ≠ 99) :
    distanceTick s = setDist { s.dist with
      live := s.dist.live + 1, ticks := s.dist.ticks + 1
      tripA := s.dist.tripA.tick, tripB := s.dist.tripB.tick } s := by
  simp [distanceTick, Distance.tick, odometerMax, live, setDist, ticks]

theorem distanceTick_saves {s : State} (live : s.dist.live ≠ 999999999) (ticks : s.dist.ticks = 99) :
    distanceTick s = { s with
      dist := { s.dist with
        live := s.dist.live + 1, ticks := 0, tripA := s.dist.tripA.tick, tripB := s.dist.tripB.tick }
      store := { s.store with queue := addJob (addJob (addJob s.store.queue .ring) .tripA) .tripB } } := by
  simp [distanceTick, Distance.tick, odometerMax, live, setDist, ticks, saveTrigger_eq]

/-- Settles O19: one clause for each branch of the filter, the accumulator, the odometer and the save count. -/
theorem pulseEdges : Obligations.PulseEdges := by
  intro s gap i moved stamped late trip
  have run : exec (.pulseVEdge gap) s =
      .next (if edgeAccepted i s.pulse.lastEdge then acceptPulseV moved else moved) := rfl
  have runEngine : exec (.pulseEEdge gap) s = .next (if edgeAccepted i s.pulse.engineEdge then
      setPulse { moved.pulse with
        engineEdge := stampOf i, engineCount := min (moved.pulse.engineCount + 1) 65535 } moved
      else moved) := rfl
  have accepted : edgeAccepted i s.pulse.lastEdge = true ↔ late := by simp [edgeAccepted, late, span, stampOf]
  refine ⟨fun early => ?_, fun l invalid => ?_, fun l valid short => ?_, fun l valid full last few => ?_,
    fun l valid full live ticks => ?_, fun l valid full live ticks => ?_, fun early => ?_, fun l => ?_⟩
  · rw [run, if_neg (fun e => early (accepted.mp e))]
  · rw [run, if_pos (accepted.mpr l), acceptPulseV_invalid (s := moved) invalid]
    rfl
  · rw [run, if_pos (accepted.mpr l), acceptPulseV_short (s := moved) valid short]
    rfl
  · rw [run, if_pos (accepted.mpr l), acceptPulseV_tick (s := moved) valid full,
      distanceTick_last (s := setPulse _ moved) last few]
    rfl
  · rw [run, if_pos (accepted.mpr l), acceptPulseV_tick (s := moved) valid full,
      distanceTick_counts (s := setPulse _ moved) live ticks]
    rfl
  · rw [run, if_pos (accepted.mpr l), acceptPulseV_tick (s := moved) valid full,
      distanceTick_saves (s := setPulse _ moved) live ticks]
    rfl
  · have refused : edgeAccepted i s.pulse.engineEdge = false := decide_eq_false (Nat.not_le.mpr early)
    rw [runEngine, if_neg (by simp [refused])]
  · have taken : edgeAccepted i s.pulse.engineEdge = true := decide_eq_true l
    rw [runEngine, if_pos taken]
    rfl

end Sys2Proof.Proofs

/-! The Output Unit: the buzzer's timers, the lamps, and the output test with the delivery of its result. -/

namespace Sys2Proof.Proofs

open Sys2Proof Sys2Proof.Machine Sys2Proof.Safety

/-! ## Slots -/

/-- Window RAM below the images is kept by every publication. -/
theorem publishAll_below (f g : Bool) (b s : State) {a : Nat} (low : a < 0x1000) :
    ramRead (publishAll f g b s) a = ramRead s a := by
  unfold publishAll
  rw [publishOutput_outside _ _ (by omega), publishFaults_outside _ _ _ (by omega),
    publishJournal_outside _ _ (by omega), publishWarnings_outside _ _ _ (by omega),
    publishDoor_outside _ _ _ (by omega), publishSense_outside _ _ (by omega)]

theorem publishAll_slotByte (f g : Bool) (b s : State) (n : Fin 8) {k : Nat} (low : k < 64) :
    slotByte (publishAll f g b s) n k = slotByte s n k :=
  publishAll_below f g b s (by rw [slotBase]; omega)

section Slots

variable (n : Fin 8) (result : Result) (detail : Byte) (s : State)

theorem finishSlot_slots : (finishSlot n result detail s).win.slots = s.win.slots.set n.val .done n.isLt := by
  simp [finishSlot, setSlotState]

theorem finishSlot_bytes (wf : s.win.ram.wf) :
    slotByte (finishSlot n result detail s) n 3 = result.code ∧ slotByte (finishSlot n result detail s) n 4 = detail := by
  have apart : slotBase n + 3 ≠ slotBase n + 4 := by omega
  constructor
  · change (Mem.write (Mem.write s.win.ram (slotBase n + 3) result.code) (slotBase n + 4) detail).read _ = _
    rw [Mem.read_write_ne _ _ _ _ apart, Mem.read_write_self _ _ _ wf]
  · change (Mem.write (Mem.write s.win.ram (slotBase n + 3) result.code) (slotBase n + 4) detail).read _ = _
    rw [Mem.read_write_self _ _ _ (Mem.write_wf _ _ _ wf)]

theorem finishSlot_notice (m : Notice) :
    noticeSet (finishSlot n result detail s) m = (noticeSet s m || decide (.slotDone = m)) := by
  rw [finishSlot, noticeSet_setNotice]
  rfl

end Slots

/-! ## An event that shows in the output image alone -/

section Output

variable {s u : State}

/-- The output image is written at most, and no notice is set. -/
theorem publish_outputReach (sense : s.sense = u.sense) (image : s.image = u.image) (door : s.door = u.door)
    (warn : s.warn = u.warn) (faults : s.faults = u.faults) (win : u.win = s.win) :
    ramKept [outputArea] s (publish s u) ∧ (publish s u).win.notice = s.win.notice := by
  rw [publish_onlyOutput sense image door warn faults]
  refine ⟨fun a outside => ?_, by simp [win]⟩
  rw [publishOutput_outside _ _ (by simpa [outputArea] using outside), ramRead, win]
  rfl

theorem interval_next {a : Arbiter} {b : Burst} (now : Nat) (burst : a.current = some b) (zero : b.timer.left = 0)
    (more : ¬ b.cls.intervals ≤ b.position + 1) : a.interval now = { a with
      level := decide ((b.position + 1) % 2 = 0)
      current := some { cls := b.cls, position := b.position + 1, timer := { left := 20, since := now } } } := by
  simp [Arbiter.interval, burst, zero, more, newTimer, stepsOf]

theorem interval_last {a : Arbiter} {b : Burst} (now : Nat) (burst : a.current = some b) (zero : b.timer.left = 0)
    (last : b.cls.intervals ≤ b.position + 1) : a.interval now = a.resume now := by
  simp [Arbiter.interval, burst, zero, last]

theorem interval_idle {a : Arbiter} (now : Nat) (idle : ∀ b, a.current = some b → b.timer.left ≠ 0) :
    a.interval now = a := by
  unfold Arbiter.interval
  cases current : a.current with
  | none => rfl
  | some b => exact if_neg (idle b current)

theorem resume_eq (a : Arbiter) (now : Nat) : a.resume now = repeatStopped now a := by
  unfold Arbiter.resume repeatStopped
  cases a.pending <;> rfl

theorem walkStep_due {x : OutputTest} (run : s.out.test = some x) (pattern : x.pattern = .lampWalk)
    (due : expired x.half = true) : walkStep s = computeLamps (setTest (some { x with
      step := x.step + 1, half := some { left := 50, since := s.time.now } }) s) := by
  simp [walkStep, run, pattern, due, newTimer, stepsOf]

theorem walkStep_idle (idle : ∀ x, s.out.test = some x → x.pattern = .lampWalk → expired x.half = false) :
    walkStep s = s := by
  unfold walkStep
  split
  next x run =>
    refine if_neg fun ⟨pattern, due⟩ => ?_
    rw [idle x run pattern] at due
    cases due
  next => rfl

theorem buzzerHalf_due {x : OutputTest} (run : s.out.test = some x) (pattern : x.pattern = .buzzer)
    (due : expired x.half = true) : buzzerHalf s = setTest (some { x with
      buzzOn := !x.buzzOn, half := some { left := 50, since := s.time.now } }) s := by
  simp [buzzerHalf, run, pattern, due, newTimer, stepsOf]

theorem buzzerHalf_idle (idle : ∀ x, s.out.test = some x → x.pattern = .buzzer → expired x.half = false) :
    buzzerHalf s = s := by
  unfold buzzerHalf
  split
  next x run =>
    refine if_neg fun ⟨pattern, due⟩ => ?_
    rw [idle x run pattern] at due
    cases due
  next => rfl

/-- Each lamp after a computation is the one of R114, its pin driven from its appearance. -/
theorem computeLamps_lamp (s : State) (m : Fin 16) : (computeLamps s).out.lamps[m] =
    { appearance := (lampComputed s m).1, owner := (lampComputed s m).2
      pin := pinLevel s.time.now (lampComputed s m).1 } := by
  simp [computeLamps]

theorem lampComputed_test {m : Fin 16} {x : OutputTest} {a : Appearance} (run : s.out.test = some x)
    (tested : testAppearance x m = some a) : lampComputed s m = (a, .test) := by
  simp [lampComputed, run, tested]

/-- A running LAMP_WALK test stepped: the lamps computed from it, and the output image. -/
theorem walked (s : State) {y : OutputTest} (pattern : y.pattern = .lampWalk) :
    let t := publish s (computeLamps (setTest (some y) s))
    t.out.test = some y ∧
    (∀ m : Fin 16, t.out.lamps[m].owner = .test ∧ t.out.lamps[m].appearance = if m = y.step then .fast else .off) ∧
    besideImages t = besideImages { s with out := { s.out with test := t.out.test, lamps := t.out.lamps } } ∧
    ramKept [outputArea] s t ∧ t.win.notice = s.win.notice := by
  intro t
  have out : t.out = (computeLamps (setTest (some y) s)).out := by simp [t]
  refine ⟨by rw [out]; simp [setTest], fun m => ?_, ?_, publish_outputReach ?_ ?_ ?_ ?_ ?_ ?_⟩
  · have tested : testAppearance y m = some (if y.step = m then .fast else .off) := by simp [testAppearance, pattern]
    rw [out, computeLamps_lamp, lampComputed_test (x := y) (by simp [setTest]) tested]
    exact ⟨rfl, by simp only [eq_comm]⟩
  · refine (publishAll_besideImages false false).trans ?_
    rw [out]
    refine besideImages_eq ?_ ?_ ?_ ?_ ?_ ?_ ?_ ?_ ?_ ?_ ?_ ?_ ?_ ?_ <;> simp [computeLamps, setTest]
  all_goals simp [setTest]

/-- Settles O24: each timer's own change, published to the output image alone. -/
theorem buzzerAndPatternTimersStep : Obligations.BuzzerAndPatternTimersStep := by
  intro s a now reach
  have half : exec .repeatHalfExpiry s = .next (publish s (setArbiter (a.repeatHalf now) s)) := rfl
  have interval : exec .burstIntervalExpiry s = .next (publish s (setArbiter (a.interval now) s)) := rfl
  have walk : exec .lampWalkStep s = .next (publish s (walkStep s)) := rfl
  have buzzer : exec .testBuzzerHalf s = .next (publish s (buzzerHalf s)) := rfl
  have reached : ∀ a' : Arbiter, reach (publish s (setArbiter a' s)) a' := fun a' =>
    ⟨publishAll_besideImages false false, publish_outputReach rfl rfl rfl rfl rfl rfl⟩
  have same : publish s (setArbiter a s) = s := publish_self s
  refine ⟨fun due => ⟨_, half, ?_⟩, fun idle => ?_, ?_, fun idle => ?_, fun x run pattern due => ⟨_, walk, ?_⟩,
    fun idle => ?_, fun x run pattern due => ⟨_, buzzer, ?_⟩, fun idle => ?_⟩
  · rw [Arbiter.repeatHalf, if_pos due]
    exact reached _
  · rw [half, Arbiter.repeatHalf, if_neg (Bool.eq_false_iff.mp idle), same]
  · intro b burst zero silent last
    have lasts : last ↔ b.cls.intervals ≤ b.position + 1 := by cases cls : b.cls <;> simp [last, cls, BurstClass.intervals]
    refine ⟨_, interval, fun more => ?_, fun ends quiet => ?_, fun ends c pending => ?_⟩
    · rw [interval_next now burst zero (fun e => more (lasts.mpr e))]
      exact reached _
    · rw [interval_last now burst zero (lasts.mp ends), resume_eq, repeatStopped, quiet]
      exact reached _
    · rw [interval_last now burst zero (lasts.mp ends), resume_eq, repeatStopped, pending]
      exact reached _
  · rw [interval, interval_idle now idle, same]
  · rw [walkStep_due run pattern due]
    exact walked s (y := { x with step := x.step + 1, half := some { left := 50, since := s.time.now } }) pattern
  · rw [walk, walkStep_idle idle, publish_self]
  · rw [buzzerHalf_due run pattern due]
    exact ⟨publishAll_besideImages false false, publish_outputReach rfl rfl rfl rfl rfl rfl⟩
  · rw [buzzer, buzzerHalf_idle idle, publish_self]

end Output

/-! ## The end of a test -/

section TestEnd

variable {s : State} {x : OutputTest}

/-- The state in which a test has ended and its result has not been delivered yet. -/
def testDropped (r : Option AbortReason) (s : State) : State :=
  setNotice .outputTest (computeLamps { s with out := { s.out with test := none, lastResult := endResult r } })

/-- The result that the end of a test delivers (R118, R120). -/
def endedWith : Option AbortReason → Result
  | none => .ok
  | some _ => .aborted

/-- The detail of the result: the code of the reason, 0 without one. -/
def endDetail : Option AbortReason → Byte
  | none => 0
  | some r => r.code

/-- The data of a workshop test's reply. -/
def endData : Option AbortReason → List Byte
  | none => []
  | some r => [r.code]

theorem endTest_eq (r : Option AbortReason) (run : s.out.test = some x) : endTest r s =
    deliver .test x.side (endedWith r) (endDetail r) (endData r) (testDropped r s) := by
  simp only [endTest, run]
  cases r <;> rfl

theorem endTest_idle (r : Option AbortReason) (idle : s.out.test = none) : endTest r s = s := by
  simp [endTest, idle]

theorem endTest_out (r : Option AbortReason) (run : s.out.test = some x) :
    (endTest r s).out = (testDropped r s).out := by
  rw [endTest_eq r run]
  simp

theorem lampComputed_idle {m : Fin 16} (idle : s.out.test = none) : lampComputed s m =
    if s.out.supervision.stage = .fallback ∧ lampNormal s.image m = .hostRequest then
      (sourceAppearance s m (lampFallback s.image m), .fallback)
    else (sourceAppearance s m (lampNormal s.image m), .normal) := by
  simp [lampComputed, idle]

theorem computeLamps_owner (idle : s.out.test = none) (m : Fin 16) : (computeLamps s).out.lamps[m].owner ≠ .test := by
  rw [computeLamps_lamp, lampComputed_idle idle]
  split <;> simp

/-- A window test's result reaches the slot that the window's record names. -/
theorem endTest_slot (r : Option AbortReason) (run : s.out.test = some x) (side : x.side = .window) {n : Fin 8}
    (slot : s.win.ops.test = .slot n) :
    endTest r s = setWindowOp .test .idle (finishSlot n (endedWith r) (endDetail r) (testDropped r s)) := by
  have named : (testDropped r s).win.ops.get .test = .slot n := by simpa [testDropped, WindowOps.get] using slot
  rw [endTest_eq r run, side]
  simp only [deliver, deliverWindow, named]

/-- A workshop test's result reaches the reply that waits for it. -/
theorem endTest_reply (r : Option AbortReason) (run : s.out.test = some x) (side : x.side = .workshop) {tag : BitVec 7}
    (waiting : s.link.reply = .waiting tag (some .test)) :
    endTest r s = setReply (.ready tag ([19, (endedWith r).code] ++ endData r)) (testDropped r s) := by
  have waits : (testDropped r s).link.reply = .waiting tag (some .test) := by simpa [testDropped] using waiting
  rw [endTest_eq r run, side]
  simp only [deliver, deliverLink, waits, if_true]
  rfl

/-- The reply buffer holds what it was set to, a hold that ends with it or not. -/
theorem setReply_reply (r : Reply) (u : State) : (setReply r u).link.reply = r := by
  unfold setReply
  dsimp only
  split <;> rfl

theorem testDropped_slots (r : Option AbortReason) (s : State) : (testDropped r s).win.slots = s.win.slots := by
  simp [testDropped]

theorem testDropped_ops (r : Option AbortReason) (s : State) : (testDropped r s).win.ops = s.win.ops := by
  simp [testDropped]

theorem finishSlot_ops (n : Fin 8) (result : Result) (detail : Byte) (u : State) :
    (finishSlot n result detail u).win.ops = u.win.ops := by
  simp

theorem setWindowOp_slots (k : Operation) (w : WindowOp) (u : State) :
    (setWindowOp k w u).win.slots = u.win.slots := rfl

theorem publish_slots (b u : State) : (publish b u).win.slots = u.win.slots := by simp

theorem publish_ops (b u : State) : (publish b u).win.ops = u.win.ops := by simp

theorem testDropped_wf (r : Option AbortReason) (wf : s.win.ram.wf) : (testDropped r s).win.ram.wf := by
  simpa [testDropped] using wf

/-- The end of a test leaves all that `besideWarnings` keeps. -/
theorem endTest_beside (r : Option AbortReason) (s : State) : besideWarnings (endTest r s) = besideWarnings s := by
  have ops : { (endTest r s).win.ops with test := WindowOp.idle } = { s.win.ops with test := WindowOp.idle } := by
    obtain e | e := (endTest_reach r s).op <;> rw [e]
  refine besideWarnings_eq ?_ ?_ ?_ ?_ ?_ ?_ ?_ ?_ ?_ ?_ ?_ ops ?_ ?_ ?_ <;> simp [besideReply]

theorem publish_beside (b u : State) : besideWarnings (publish b u) = besideWarnings u := by
  refine besideWarnings_eq ?_ ?_ ?_ ?_ ?_ ?_ ?_ ?_ ?_ ?_ ?_ ?_ ?_ ?_ ?_ <;> simp

theorem setWindowOp_test (u : State) :
    (setWindowOp .test .idle u).win.ops = { u.win.ops with test := .idle } := rfl

theorem setWindowOp_notice (k : Operation) (w : WindowOp) (u : State) (n : Notice) :
    noticeSet (setWindowOp k w u) n = noticeSet u n := rfl

theorem deliver_notice (k : Operation) (side : Side) (result : Result) (detail : Byte) (data : List Byte) {n : Notice}
    {u : State} (set : noticeSet u n = true) : noticeSet (deliver k side result detail data u) n = true := by
  have window : noticeSet (deliverWindow k result detail u) n = true := by
    unfold deliverWindow
    split
    · rw [setWindowOp_notice, finishSlot_notice, set, Bool.true_or]
    · rw [setWindowOp_notice, set]
  have link : noticeSet (deliverLink k result data u) n = true := by
    simpa [noticeSet] using set
  cases side
  · exact window
  · exact link

theorem endTest_notice (r : Option AbortReason) (run : s.out.test = some x) :
    noticeSet (endTest r s) .outputTest = true := by
  rw [endTest_eq r run]
  exact deliver_notice _ _ _ _ _ (by rw [testDropped, noticeSet_setNotice]; simp)

theorem publishOutput_reach {may : List Notice} (b u : State) : Reach [outputArea] may u (publishOutput b u) := by
  unfold publishOutput
  split
  · exact .refl
  · exact rewriteImage_reach _ _ (by simp [outputArea]) (by simp) _ _

/-- The end of a test, published: the output image and the slot of the test alone. -/
theorem endTest_published (r : Option AbortReason) (s : State) :
    Reach [outputArea] testNotices s (publish s (endTest r s)) := by
  rw [publish_onlyOutput (by simp) (by simp) (by simp) (by simp) (by simp)]
  exact ((endTest_reach r s).mono (by simp) (List.Subset.refl _)).trans (publishOutput_reach _ _)

/-- Settles O25: the end of a test without a reason, with its delivery to either side. -/
theorem testDurationEndsTest : Obligations.TestDurationEndsTest := by
  intro s
  have run : exec .testDurationExpiry s = .next (publish s (if testExpired s then endTest none s else s)) := rfl
  refine ⟨fun idle => ?_, fun x test zero => ?_⟩
  · have running : testExpired s = false := by
      unfold testExpired
      split
      next x test => exact decide_eq_false (idle x test)
      next => rfl
    rw [run, running, if_neg (by simp), publish_self]
  · have expired : testExpired s = true := by simp [testExpired, test, zero]
    rw [expired, if_pos rfl] at run
    have out : (publish s (endTest none s)).out = (testDropped none s).out := by
      rw [← endTest_out none test]
      simp
    obtain ⟨ram, notices, -, -⟩ := endTest_published none s
    refine ⟨_, run, ?_, ?_, ?_, by simp, by simp, fun m => ?_, fun n side slot => ?_, fun tag side waiting => ?_,
      (publish_beside _ _).trans (endTest_beside none s), by simp, by simp, by simp, ram, notices⟩
    · rw [out]
      simp [testDropped]
    · rw [out]
      simp [testDropped, endResult]
    · rw [publish, publishAll_notice, endTest_notice none test]
      rfl
    · rw [out]
      exact computeLamps_owner rfl m
    · have ended := endTest_slot none test side slot
      refine ⟨?_, ?_, ?_, fun wf => ?_⟩
      · rw [publish_slots, ended, setWindowOp_slots, finishSlot_slots, testDropped_slots]
      · rw [publish_ops, ended, setWindowOp_test, finishSlot_ops, testDropped_ops]
      · rw [publish, publishAll_notice, ended, setWindowOp_notice, finishSlot_notice]
        simp
      · have bytes := finishSlot_bytes n (endedWith none) (endDetail none) (testDropped none s) (testDropped_wf none wf)
        rw [publish, publishAll_slotByte _ _ _ _ _ (by omega), publishAll_slotByte _ _ _ _ _ (by omega), ended]
        exact bytes
    · rw [endTest_reply none test side waiting]
      refine ⟨?_, ?_⟩
      · simp [setReply_reply, endedWith, endData, Result.code]
      · simp [testDropped]

end TestEnd

end Sys2Proof.Proofs

/-! The Window Port: reads and claims, the bytes of a WRITE, the slots' state bytes and the port words. -/

namespace Sys2Proof.Proofs

open Sys2Proof Sys2Proof.Machine Sys2Proof.Safety

/-! ## Refused writes and quiet events -/

/-- A port fault keeps an address captured already. -/
theorem portFault_eq (a : Nat) (s : State) : portFault a s =
    { s with win := { s.win with
        capture := some (s.win.capture.getD (BitVec.ofNat 13 a))
        faultCount := min (s.win.faultCount + 1) 255
        notice := s.win.notice ||| 0x200 } } := by
  unfold portFault
  cases s.win.capture <;> rfl

/-- An event that leaves what the images show publishes nothing. -/
theorem publish_quiet {b s : State} (sense : b.sense = s.sense) (image : b.image = s.image) (door : b.door = s.door)
    (warn : b.warn = s.warn) (faults : b.faults = s.faults) (output : outputBytes b = outputBytes s) :
    publish b s = s := by
  rw [publish_onlyOutput sense image door warn faults, publishOutput_same _ _ output]

/-- What a byte of the window leaves as it was, if it ends no test and enters or leaves no stage. -/
structure QuietWrite (s t : State) : Prop where
  sense : t.sense = s.sense
  image : t.image = s.image
  door : t.door = s.door
  warn : t.warn = s.warn
  faults : t.faults = s.faults
  output : outputBytes t = outputBytes s
  fallback : supervisionFallback t = supervisionFallback s

section Quiet

variable {s t : State}

theorem QuietWrite.publish (h : QuietWrite s t) : publish s t = t :=
  publish_quiet h.sense.symm h.image.symm h.door.symm h.warn.symm h.faults.symm h.output.symm

theorem QuietWrite.settle (h : QuietWrite s t) :
    settle (supervisionFallback s != supervisionFallback t) s t = t := by
  rw [Machine.settle, h.fallback, bne_self_eq_false, if_neg (by simp), h.publish]

theorem QuietWrite.refl : QuietWrite s s := ⟨rfl, rfl, rfl, rfl, rfl, rfl, rfl⟩

/-- A change of the Window Port alone. -/
theorem quiet_win (w : WindowPort) : QuietWrite s { s with win := w } := ⟨rfl, rfl, rfl, rfl, rfl, rfl, rfl⟩

theorem portFault_quiet (a : Nat) : QuietWrite s (portFault a s) := by
  rw [portFault_eq]
  exact quiet_win _

/-- A change of supervision that leaves FALLBACK as it is. -/
theorem setSupervision_quiet {v : Supervision}
    (stage : decide (v.stage = .fallback) = decide (s.out.supervision.stage = .fallback)) :
    QuietWrite s (setSupervision v s) := ⟨rfl, rfl, rfl, rfl, rfl, rfl, stage⟩

theorem periodWrite_quiet (value : Byte) : QuietWrite s (periodWrite value s) := by
  unfold periodWrite
  dsimp only
  split
  · exact portFault_quiet _
  · split
    next off =>
      split
      · exact .refl
      · exact setSupervision_quiet (by simp [off])
    next watching =>
      split
      · exact setSupervision_quiet (by simp [watching])
      · exact setSupervision_quiet (by simp)
    next => exact portFault_quiet _
    next => exact portFault_quiet _

theorem modeWrite_quiet (value : Byte) : QuietWrite s (modeWrite value s) := by
  unfold modeWrite
  dsimp only
  split
  · exact portFault_quiet _
  · split
    · exact setSupervision_quiet rfl
    · exact setSupervision_quiet rfl
    · exact portFault_quiet _
    · exact portFault_quiet _

theorem attentionSet_quiet (mask : Byte) : QuietWrite s (attentionSet mask s) := by
  unfold attentionSet
  dsimp only
  split
  · rw [portFault_eq]
    exact quiet_win _
  · exact quiet_win _

theorem clearPortFault_quiet (offset : Fin 4) (value : Byte) : QuietWrite s (clearPortFault offset value s) := by
  unfold clearPortFault
  split
  · exact quiet_win _
  · exact portFault_quiet _

theorem postSlot_quiet (n : Fin 8) : QuietWrite s (postSlot n s) := by
  unfold postSlot
  split
  · exact quiet_win _
  · exact .refl
  · exact portFault_quiet _
  · exact portFault_quiet _

theorem freeSlot_quiet (n : Fin 8) : QuietWrite s (freeSlot n s) := by
  unfold freeSlot
  split
  · exact .refl
  · exact quiet_win _
  · exact portFault_quiet _
  · exact quiet_win _

theorem claimWrite_fallback (k : Claim) (value : Byte) :
    supervisionFallback (claimWrite k value s) = supervisionFallback s := by
  simp [supervisionFallback]

end Quiet

/-! ## Addresses -/

theorem claimAt_claim (k : Claim) : claimAt (0x0020 + claimNumber k) = some k := by cases k <;> rfl

theorem claimAt_none {a : Nat} (h : a < 0x0020 ∨ 0x0023 < a) : claimAt a = none := by
  unfold claimAt
  by_cases low : a < 0x0020
  · exact if_pos low
  · rw [if_neg low, claimOfNumber]
    iterate 4 rw [if_neg (by omega)]

theorem slotAt_slot (n : Fin 8) {offset : Nat} (low : offset < 64) : slotAt (0x0100 + 64 * n.val + offset) = n := by
  apply Fin.ext
  simp only [slotAt, finOf, Fin.val_ofNat]
  omega

/-! ## A data byte of a WRITE -/

section Write

variable {s : State} {start : BitVec 16} {index a : Nat} {value : Byte}

/-- A data byte past 0x1FFF is dropped. -/
theorem windowWrite_past (past : 0x2000 ≤ start.toNat % 0x2000 + index) :
    exec (.windowWrite start index value) s = .next s := by
  have dropped : writeData start index value s = s := by
    simp [writeData, burstAddress, Nat.not_lt.mpr past]
  change Host.Outcome.next (settle _ s (writeData start index value s)) = _
  rw [dropped, QuietWrite.refl.settle]

/-- A data byte acts on its address. -/
theorem windowWrite_at (at_ : start.toNat % 0x2000 + index = a) (inside : a < 0x2000) :
    exec (.windowWrite start index value) s = .next
      (settle (supervisionFallback s != supervisionFallback (writeByte a value s)) s (writeByte a value s)) := by
  have written : writeData start index value s = writeByte a value s := by
    simp [writeData, burstAddress, at_, inside]
  change Host.Outcome.next (settle (_ != supervisionFallback (writeData start index value s)) s
    (writeData start index value s)) = _
  rw [written]

/-- A data byte whose effect shows in no image has that effect alone. -/
theorem windowWrite_quiet {t : State} (at_ : start.toNat % 0x2000 + index = a) (inside : a < 0x2000)
    (effect : writeByte a value s = t) (quiet : QuietWrite s t) :
    exec (.windowWrite start index value) s = .next t := by
  rw [windowWrite_at at_ inside, effect, quiet.settle]

theorem writeByte_port (low : a < 0x0020) : writeByte a value s = portWrite a value s := if_pos low

theorem writeByte_claim (k : Claim) : writeByte (0x0020 + claimNumber k) value s = claimWrite k value s := by
  simp only [writeByte, claimAt_claim, if_neg (Nat.not_lt.mpr (Nat.le_add_right _ _))]

theorem writeByte_past (high : 0x0023 < a) : writeByte a value s =
    if isSlot a then slotWrite a value s else if isFreeRam a then ramWrite a value s else portFault a s := by
  simp only [writeByte, claimAt_none (.inr high), if_neg (show ¬ a < 0x0020 by omega)]

theorem writeByte_slot (n : Fin 8) {offset : Nat} (low : offset < 64) :
    writeByte (0x0100 + 64 * n.val + offset) value s = slotWrite (0x0100 + 64 * n.val + offset) value s := by
  rw [writeByte_past (by omega), if_pos]
  simp only [isSlot, Bool.and_eq_true, decide_eq_true_eq]
  omega

theorem writeByte_free (free : (0x0300 ≤ a ∧ a < 0x0310) ∨ (0x0400 ≤ a ∧ a < 0x0C00)) :
    writeByte a value s = ramWrite a value s := by
  rw [writeByte_past (by omega), if_neg, if_pos]
  · simpa [isFreeRam] using free
  · simp only [isSlot, Bool.and_eq_true, decide_eq_true_eq]
    omega

theorem writeByte_refused
    (closed : (0x1000 ≤ a ∧ a < 0x2000) ∨ (0x0C00 ≤ a ∧ a < 0x1000) ∨ (0x0310 ≤ a ∧ a < 0x0400) ∨
      (0x0024 ≤ a ∧ a < 0x0100) ∨ a ≤ 6 ∨ (9 ≤ a ∧ a ≤ 11) ∨ (24 ≤ a ∧ a < 32)) :
    writeByte a value s = portFault a s := by
  by_cases port : a < 0x0020
  · rw [writeByte_port port]
    unfold portWrite
    iterate 10 rw [if_neg (by omega)]
    rw [dif_neg (by omega)]
  · rw [writeByte_past (by omega), if_neg, if_neg]
    · simp only [isFreeRam, Bool.or_eq_true, Bool.and_eq_true, decide_eq_true_eq]
      omega
    · simp only [isSlot, Bool.and_eq_true, decide_eq_true_eq]
      omega

/-- A byte of a slot past its state byte, by the slot's state. -/
theorem slotWrite_inside (n : Fin 8) {offset : Nat} (positive : 0 < offset) (low : offset < 64) :
    slotWrite (0x0100 + 64 * n.val + offset) value s =
      match s.win.slots[n] with
      | .free => ramWrite (0x0100 + 64 * n.val + offset) value s
      | .posted => ramWrite (0x0100 + 64 * n.val + offset) value s
      | .taken => portFault (0x0100 + 64 * n.val + offset) s
      | .done => portFault (0x0100 + 64 * n.val + offset) s := by
  simp only [slotWrite, slotAt_slot n low, if_neg (show ¬ (0x0100 + 64 * n.val + offset) % 64 = 0 by omega)] <;> rfl

/-- The state byte of a slot. -/
theorem slotWrite_state (n : Fin 8) : slotWrite (0x0100 + 64 * n.val) value s =
    if value = 0 then freeSlot n s else if value = 1 then postSlot n s else portFault (0x0100 + 64 * n.val) s := by
  have at_ : slotAt (0x0100 + 64 * n.val) = n := slotAt_slot n (offset := 0) (by omega)
  simp only [slotWrite, at_, if_pos (show (0x0100 + 64 * n.val) % 64 = 0 by omega)]

end Write

/-- Settles O52: an address belongs to one class, and each class has its own effect. -/
theorem windowWrites : Obligations.WindowWrites := by
  intro s value refused stored
  have fault : ∀ a, portFault a s = refused a := fun a => portFault_eq a s
  have store : ∀ a, ramWrite a value s = stored a := fun _ => rfl
  refine ⟨?_, fun offset => ⟨fun zero => ?_, fun other => ?_⟩⟩
  · intro start index a run
    have word : ∀ {t : State}, a < 0x0020 → portWrite a value s = t → QuietWrite s t → run = .next t :=
      fun low effect => windowWrite_quiet rfl (show a < 0x2000 by omega) ((writeByte_port low).trans effect)
    refine ⟨fun past => windowWrite_past past, fun free => ⟨?_, fun wf => ?_, fun b other => ?_⟩, fun closed => ?_,
      fun n offset positive low at_ => ⟨fun open_ => ?_, fun closed => ?_⟩, fun at_ => ?_, fun at_ => ?_,
      fun high => ⟨fun at_ => ?_, fun at_ => ?_⟩, fun at_ => ?_, fun at_ => ?_, fun at_ => ?_, fun at_ => ?_,
      fun offset at_ => ?_, fun k at_ => ?_⟩
    · exact windowWrite_quiet rfl (show a < 0x2000 by omega) (writeByte_free free) (quiet_win _)
    · exact Mem.read_write_self _ _ _ wf
    · exact Mem.read_write_ne _ _ _ _ other
    · rw [← fault]
      exact windowWrite_quiet rfl (show a < 0x2000 by omega) (writeByte_refused closed) (portFault_quiet _)
    · refine windowWrite_quiet at_ (by omega) ((writeByte_slot n low).trans ?_) (quiet_win _)
      rw [slotWrite_inside n positive low, at_]
      obtain state | state := open_ <;> rw [state] <;> rfl
    · rw [← fault, at_]
      refine windowWrite_quiet at_ (by omega) ((writeByte_slot n low).trans ?_) (portFault_quiet _)
      rw [slotWrite_inside n positive low]
      obtain state | state := closed <;> rw [state]
    · exact word (by omega) (by rw [at_]; rfl) (attentionSet_quiet _)
    · exact word (by omega) (by rw [at_]; rfl) (quiet_win _)
    · cases high
      · exact word (by simp at at_; omega) (by rw [at_]; rfl) (quiet_win _)
      · exact word (by simp at at_; omega) (by rw [at_]; rfl) (quiet_win _)
    · cases high
      · exact word (by simp at at_; omega) (by rw [at_]; rfl) (quiet_win _)
      · exact word (by simp at at_; omega) (by rw [at_]; rfl) (quiet_win _)
    · exact word (by omega) (by rw [at_]; rfl) (periodWrite_quiet _)
    · exact word (by omega) (by rw [at_]; rfl) (modeWrite_quiet _)
    · exact windowWrite_at at_ (by omega)
    · exact windowWrite_at at_ (by omega)
    · refine word (by omega) ?_ (clearPortFault_quiet offset _)
      rw [at_]
      fin_cases offset <;> rfl
    · have low : claimNumber k < 4 := by cases k <;> decide
      have release : exec (.claimReleaseWrite k value) s = .next (publish s (claimWrite k value s)) := rfl
      refine (windowWrite_at at_ (by omega)).trans ?_
      rw [writeByte_claim, claimWrite_fallback, bne_self_eq_false, release]
      rfl
  · exact congrArg _ (if_pos zero)
  · exact congrArg _ ((if_neg other).trans (fault _))

/-- Settles O47: the state byte by the slot's state, and the attention bits. -/
theorem slotStatesAndAttention : Obligations.SlotStatesAndAttention := by
  intro s n state refused
  have fault : ∀ a t, portFault a t = refused a t := portFault_eq
  have post : exec (.slotPost n) s = .next (postSlot n s) := rfl
  have free : exec (.slotFree n) s = .next (freeSlot n s) := rfl
  refine ⟨fun is => ⟨?_, ?_⟩, fun is => ⟨?_, ?_⟩, fun is => ⟨?_, ?_⟩, fun is => ⟨?_, ?_⟩,
    fun start index value at_ => ?_, ?_⟩
  · simp only [post, postSlot, is]; rfl
  · simp only [free, freeSlot, is]
  · simp only [post, postSlot, is]
  · simp only [free, freeSlot, is]; rfl
  · simp only [post, postSlot, is, fault]; rfl
  · simp only [free, freeSlot, is, fault]; rfl
  · simp only [post, postSlot, is, fault]; rfl
  · simp only [free, freeSlot, is]; rfl
  · have written : ∀ {t : State}, slotWrite (0x0100 + 64 * n.val) value s = t → QuietWrite s t →
        exec (.windowWrite start index value) s = .next t := fun effect =>
      windowWrite_quiet at_ (by omega) ((writeByte_slot n (offset := 0) (by omega)).trans effect)
    refine ⟨fun zero => ?_, fun one => ?_, fun notZero notOne => ?_⟩
    · exact written (by rw [slotWrite_state, if_pos zero]) (freeSlot_quiet n)
    · exact written (by rw [slotWrite_state, if_neg (by rw [one]; decide), if_pos one]) (postSlot_quiet n)
    · rw [← fault]
      exact written (by rw [slotWrite_state, if_neg notZero, if_neg notOne]) (portFault_quiet _)
  · intro mask marked
    have set : exec (.attnSet mask) s = .next
        (if (List.finRange 8).any (fun m => named mask m && decide (s.win.slots[m] ≠ .posted)) then portFault 7 marked
         else marked) := by
      change Host.Outcome.next (attentionSet mask s) = _
      simp only [attentionSet, Option.isNone_iff_eq_none, named]
      rfl
    refine ⟨fun all => ?_, fun ⟨m, bit, other⟩ => ?_, rfl⟩
    · rw [set, if_neg]
      simp only [named, List.any_eq_true, List.mem_finRange, true_and, Bool.and_eq_true, decide_eq_true_eq, not_exists,
        not_and, not_not]
      exact all
    · rw [set, if_pos, fault]
      simp only [named, List.any_eq_true, List.mem_finRange, true_and, Bool.and_eq_true, decide_eq_true_eq]
      exact ⟨m, bit, other⟩

end Sys2Proof.Proofs

/-! The port words and the claims of the window. -/

namespace Sys2Proof.Proofs

open Sys2Proof Sys2Proof.Machine Sys2Proof.Safety

/-! ## Notices, bit by bit -/

theorem noticeBits_getLsbD (high : Bool) (value : Byte) {b : Nat} (small : b < 13) :
    (noticeBits high value).getLsbD b = (decide ((8 ≤ b) = (high = true)) && value.getLsbD (b % 8)) := by
  cases high
  · by_cases big : 8 ≤ b
    · simp [noticeBits, small, big]
    · simp [noticeBits, small, big, Nat.mod_eq_of_lt (Nat.lt_of_not_le big)]
  · by_cases big : 8 ≤ b
    · have rest : b % 8 = b - 8 := by omega
      simp [noticeBits, small, big, rest]
    · simp [noticeBits, small, big, Nat.lt_of_not_le big]

/-- NOTICE_CLEAR clears the named bits. -/
theorem clearNotices_getLsbD (high : Bool) (value : Byte) (s : State) (b : Nat) :
    (clearNotices high value s).win.notice.getLsbD b =
      (s.win.notice.getLsbD b && !(decide ((8 ≤ b) = (high = true)) && value.getLsbD (b % 8))) := by
  by_cases small : b < 13
  · rw [← noticeBits_getLsbD high value small]
    simp [clearNotices, small]
  · simp [clearNotices, BitVec.getLsbD_of_ge _ _ (Nat.le_of_not_lt small)]

/-- NOTICE_ENABLE replaces the named byte of the enables. -/
theorem enableNotices_getLsbD (high : Bool) (value : Byte) (s : State) {b : Nat} (small : b < 13) :
    (enableNotices high value s).win.enable.getLsbD b =
      if (8 ≤ b) = (high = true) then value.getLsbD (b % 8) else s.win.enable.getLsbD b := by
  have ones : (0xFF : Byte).getLsbD (b % 8) = true := by
    have low : b % 8 < 8 := Nat.mod_lt _ (by omega)
    interval_cases b % 8 <;> rfl
  simp only [enableNotices, BitVec.getLsbD_or, BitVec.getLsbD_and, BitVec.getLsbD_not, noticeBits_getLsbD high _ small,
    small, ones]
  by_cases named : (8 ≤ b) = (high = true) <;> simp [named]

/-- Every bit of the notice word is a notice's. -/
theorem exists_bit {b : Nat} (small : b < 13) : ∃ n : Notice, n.bit = b := by
  have listed : ∀ k : Fin 13, (noticeOrder[k.val]'(by simp [noticeOrder])).bit = k.val := by decide
  exact ⟨_, listed ⟨b, small⟩⟩

/-- NOTEn is low exactly where some notice is pending and enabled. -/
theorem noteLow_iff (s : State) :
    noteLow s = true ↔ ∃ n : Notice, noticeSet s n = true ∧ s.win.enable.getLsbD n.bit = true := by
  simp only [noteLow, decide_eq_true_eq, noticeSet, ← Bool.and_eq_true, ← BitVec.getLsbD_and]
  constructor
  · intro some
    by_contra none
    push Not at none
    refine some (BitVec.eq_of_getLsbD_eq fun b small => ?_)
    obtain ⟨n, rfl⟩ := exists_bit small
    simpa using none n
  · rintro ⟨n, bit⟩ zero
    rw [zero] at bit
    simp at bit

/-! ## SUPV_CONTROL -/

section Control

variable {s : State} {value : Byte}

theorem periodWrite_refused (bad : 250 < value.toNat ∨ s.out.supervision.stage = .warned ∨
    s.out.supervision.stage = .fallback) : periodWrite value s = portFault 0x0010 s := by
  unfold periodWrite
  by_cases big : 250 < value.toNat
  · exact if_pos big
  · obtain stage | stage := bad.resolve_left big <;> simp only [big, stage, if_false]

theorem periodWrite_off (off : s.out.supervision.stage = .off) (small : value.toNat ≤ 250) : periodWrite value s =
    if value.toNat = 0 then s
    else setSupervision { s.out.supervision with
      period := value.toNat, stage := .watching, expected := 0x5A
      timer := periodTimer s.time.now value.toNat } s := by
  simp only [periodWrite, Nat.not_lt.mpr small, off, if_false]

theorem periodWrite_watching (watching : s.out.supervision.stage = .watching) (small : value.toNat ≤ 250) :
    periodWrite value s =
      if value.toNat = 0 then
        setSupervision { s.out.supervision with stage := .off, period := 0, timer := none, expected := 0x5A } s
      else setSupervision { s.out.supervision with
        period := value.toNat, timer := periodTimer s.time.now value.toNat } s := by
  simp only [periodWrite, Nat.not_lt.mpr small, watching, if_false]

theorem modeWrite_refused (bad : 1 < value.toNat ∨ s.out.supervision.stage = .warned ∨
    s.out.supervision.stage = .fallback) : modeWrite value s = portFault 0x0011 s := by
  unfold modeWrite
  by_cases big : 1 < value.toNat
  · exact if_pos big
  · obtain stage | stage := bad.resolve_left big <;> simp only [big, stage, if_false]

theorem modeWrite_stored (small : value.toNat ≤ 1)
    (free : ¬ (s.out.supervision.stage = .warned ∨ s.out.supervision.stage = .fallback)) :
    modeWrite value s = setSupervision { s.out.supervision with resets := decide (value = 1) } s := by
  unfold modeWrite
  cases stage : s.out.supervision.stage with
  | off => simp only [Nat.not_lt.mpr small, stage, if_false]
  | watching => simp only [Nat.not_lt.mpr small, stage, if_false]
  | warned => exact absurd (.inl stage) free
  | fallback => exact absurd (.inr stage) free

end Control

/-- Settles O48: each word's own effect, bit by bit, and SUPV_CONTROL by the value and the stage. -/
theorem noticeAndSupervisionWords : Obligations.NoticeAndSupervisionWords := by
  refine ⟨fun s high value => ⟨⟨_, rfl, rfl, clearNotices_getLsbD high value s⟩,
    ⟨_, rfl, rfl, fun b small => enableNotices_getLsbD high value s small⟩, noteLow_iff s⟩, ?_⟩
  intro s value v held put refused
  have fault : ∀ a, portFault a s = refused a := fun a => portFault_eq a s
  have zero_iff : value.toNat = 0 ↔ value = 0 := by
    rw [← BitVec.toNat_inj]
    rfl
  have period : ∀ {t : State}, periodWrite value s = t → exec (.supvControlPeriod value) s = .next t := congrArg _
  have mode : ∀ {t : State}, modeWrite value s = t → exec (.supvControlMode value) s = .next t := congrArg _
  refine ⟨fun bad => period ?_, fun off zero => period ?_, fun off other low => period ?_,
    fun watching zero => period ?_, fun watching other low => period ?_, fun bad => mode ?_, fun low free => mode ?_⟩
  · rw [← fault]
    exact periodWrite_refused bad
  · rw [periodWrite_off off (by rw [zero]; decide), if_pos (zero_iff.mpr zero)]
  · rw [periodWrite_off off low, if_neg (mt zero_iff.mp other)]
    rfl
  · rw [periodWrite_watching watching (by rw [zero]; decide), if_pos (zero_iff.mpr zero)]
    rfl
  · rw [periodWrite_watching watching low, if_neg (mt zero_iff.mp other)]
    rfl
  · rw [← fault]
    exact modeWrite_refused bad
  · exact modeWrite_stored low free

/-! ## Claims -/

theorem claimNumber_lt (k : Claim) : claimNumber k < 4 := by cases k <;> decide

/-- A data byte of a READ at a claim byte reads the holder. -/
theorem readByte_claim (k : Claim) (s : State) :
    readByte s (0x0020 + claimNumber k) = (s.win.claims.holder k).code := by
  simp only [readByte, claimAt_claim, if_neg (Nat.not_lt.mpr (Nat.le_add_right _ _))]

/-- The start of a READ at a claim byte takes the claim if it is FREE. -/
theorem fetchData_claim (k : Claim) (s : State) : fetchData (BitVec.ofNat 16 (0x0020 + claimNumber k)) 0 s =
    if s.win.claims.holder k = .free then setClaim k .window (shiftOut (s.win.claims.holder k).code s)
    else shiftOut (s.win.claims.holder k).code s := by
  have start : burstAddress (BitVec.ofNat 16 (0x0020 + claimNumber k)) 0 = some (0x0020 + claimNumber k) := by
    cases k <;> rfl
  simp only [fetchData, start, claimAt_claim, readByte_claim, true_and]

/-- Any other data byte takes nothing. -/
theorem fetchData_other (start : BitVec 16) (index : Nat) (s : State)
    (other : index ≠ 0 ∨ start.toNat % 0x2000 < 0x0020 ∨ 0x0023 < start.toNat % 0x2000) :
    fetchData start index s = shiftOut
      (if start.toNat % 0x2000 + index < 0x2000 then readByte s (start.toNat % 0x2000 + index) else 0xFF) s := by
  by_cases inside : start.toNat % 0x2000 + index < 0x2000
  · simp only [fetchData, burstAddress, if_pos inside]
    split
    next k claim =>
      refine if_neg fun ⟨first, _⟩ => ?_
      have none := claimAt_none (a := start.toNat % 0x2000 + index) (by omega)
      rw [none] at claim
      cases claim
    next => rfl
  · simp only [fetchData, burstAddress, if_neg inside]

/-- A write other than a release by the holder is refused. -/
theorem claimWrite_refused {k : Claim} {value : Byte} {s : State}
    (bad : value ≠ 0 ∨ s.win.claims.holder k ≠ .window) :
    claimWrite k value s = portFault (0x0020 + claimNumber k) s :=
  if_neg fun ⟨zero, held⟩ => bad.elim (· zero) (· held)

theorem claimWrite_released {k : Claim} {s : State} (held : s.win.claims.holder k = .window) :
    claimWrite k 0 s = releaseClaim .window k s := if_pos ⟨rfl, held⟩

/-- A release that ends no test changes the claim alone. -/
theorem releaseClaim_quiet {k : Claim} {side : Side} {s : State} (quiet : k ≠ .outputs ∨ s.out.test = none) :
    releaseClaim side k s = setClaim k .free s := by
  unfold releaseClaim
  dsimp only
  split
  next outputs =>
    have none : (setClaim k .free s).out.test = none := quiet.resolve_left (· outputs)
    simp only [abortTestOf, none]
  next => rfl

/-- A release of OUTPUTS ends a test of its side. -/
theorem releaseClaim_ends {side : Side} {s : State} {x : OutputTest} (run : s.out.test = some x)
    (own : x.side = side) :
    releaseClaim side .outputs s = endTest (some .claimReleased) (setClaim .outputs .free s) := by
  have running : (setClaim .outputs .free s).out.test = some x := run
  simp only [releaseClaim, abortTestOf, running, own, if_true, abortTest]

/-- A test's end published sets no notice but those of the test. -/
theorem endTest_notices (r : Option AbortReason) {b s : State} (sense : b.sense = s.sense) (image : b.image = s.image)
    (door : b.door = s.door) (warn : b.warn = s.warn) (faults : b.faults = s.faults) :
    Reach [outputArea] testNotices s (publish b (endTest r s)) := by
  rw [publish_onlyOutput (by simp [sense]) (by simp [image]) (by simp [door]) (by simp [warn]) (by simp [faults])]
  exact ((endTest_reach r s).mono (by simp) (List.Subset.refl _)).trans (publishOutput_reach _ _)

/-- Settles O46: the bytes of the window, the claims that a READ takes, and the releases. -/
theorem claimBytes : Obligations.ClaimBytes := by
  refine ⟨fun s a _ => readByte_eq s a, ?_⟩
  intro s k a
  have read : ∀ start index, exec (.claimTakeRead start index) s = .next (fetchData start index s) := fun _ _ => rfl
  have write : ∀ value, exec (.claimReleaseWrite k value) s = .next (publish s (claimWrite k value s)) := fun _ => rfl
  refine ⟨fun free => ?_, fun held => ?_, fun start index other => ?_, fun held quiet => ?_, fun x held outputs run side => ?_, fun value bad => ?_⟩
  · rw [read, fetchData_claim, if_pos free, free]
    rfl
  · rw [read, fetchData_claim, if_neg held]
    rfl
  · rw [read, fetchData_other start index s other]
    exact ⟨_, rfl, fun inside => if_pos inside, fun past => if_neg (Nat.not_lt.mpr past)⟩
  · have released : QuietWrite s (setClaim k .free s) := quiet_win _
    rw [write, claimWrite_released held, releaseClaim_quiet quiet, released.publish]
    rfl
  · have ran : endTest (some .claimReleased) (setClaim k .free s) = releaseClaim .window k s := by
      rw [outputs]
      exact (releaseClaim_ends run side).symm
    have reach := endTest_notices (some .claimReleased) (b := s) (s := setClaim k .free s) rfl rfl rfl rfl rfl
    have running : (setClaim k .free s).out.test = some x := run
    have out : (publish s (endTest (some .claimReleased) (setClaim k .free s))).out =
        (testDropped (some .claimReleased) (setClaim k .free s)).out := by
      rw [← endTest_out _ running]
      simp
    refine ⟨_, write 0, ?_⟩
    rw [claimWrite_released held, ← ran]
    refine ⟨by simp [setClaim], ?_, ?_, (reach.notices .claimChanged).2 (by simp)⟩
    · rw [out]
      simp [testDropped]
    · rw [out]
      simp [testDropped, endResult]
  · rw [write, claimWrite_refused bad, (portFault_quiet _).publish, portFault_eq]

end Sys2Proof.Proofs

/-! The lamps: what each source gives, the refresh, and what a test's end does to them. -/

namespace Sys2Proof.Proofs

open Sys2Proof Sys2Proof.Machine Sys2Proof.Safety

/-! ## The sources of a lamp -/

/-- A warning gives a lamp its appearance. -/
def LampAssigned (s : State) (m : Fin 16) (w : Fin 48) : Prop :=
  (warningDef s.image w).enabled = true ∧ (warningDef s.image w).lamp = some m

/-- The appearance that a warning gives, by its class and state. -/
def lampGiven (s : State) (w : Fin 48) : Appearance :=
  warningAppearance (warningDef s.image w).cls s.warn.warnings[w].state

/-- One warning taken into the appearance of a lamp. -/
def lampTaken (s : State) (m : Fin 16) (a : Appearance) (w : Fin 48) : Appearance :=
  let d := warningDef s.image w
  if d.enabled ∧ d.lamp = some m then a.sup (warningAppearance d.cls s.warn.warnings[w].state) else a

theorem rank_sup (a b : Appearance) : a.rank ≤ (a.sup b).rank ∧ b.rank ≤ (a.sup b).rank := by
  unfold Appearance.sup
  split <;> omega

theorem sup_cases (a b : Appearance) : a.sup b = a ∨ a.sup b = b := by
  unfold Appearance.sup
  split <;> simp

theorem lampTaken_bounds (s : State) (m : Fin 16) (a : Appearance) (w : Fin 48) :
    a.rank ≤ (lampTaken s m a w).rank ∧
      (LampAssigned s m w → (lampGiven s w).rank ≤ (lampTaken s m a w).rank) ∧
      (lampTaken s m a w = a ∨ (LampAssigned s m w ∧ lampGiven s w = lampTaken s m a w)) := by
  unfold lampTaken
  dsimp only
  split
  next assigned =>
    refine ⟨(rank_sup _ _).1, fun _ => (rank_sup a _).2, ?_⟩
    exact (sup_cases a _).imp id fun e => ⟨assigned, e.symm⟩
  next other => exact ⟨le_rfl, fun assigned => absurd assigned other, .inl rfl⟩

/-- The appearance of a fold is the highest that its warnings give. -/
theorem lampFold_bounds (s : State) (m : Fin 16) : ∀ (l : List (Fin 48)) (a : Appearance),
    a.rank ≤ (l.foldl (lampTaken s m) a).rank ∧
      (∀ w ∈ l, LampAssigned s m w → (lampGiven s w).rank ≤ (l.foldl (lampTaken s m) a).rank) ∧
      (l.foldl (lampTaken s m) a = a ∨ ∃ w, LampAssigned s m w ∧ lampGiven s w = l.foldl (lampTaken s m) a)
  | [], _ => ⟨le_rfl, by simp, .inl rfl⟩
  | v :: l, a => by
    obtain ⟨low, given, made⟩ := lampTaken_bounds s m a v
    obtain ⟨rest, others, from_⟩ := lampFold_bounds s m l (lampTaken s m a v)
    rw [List.foldl_cons]
    refine ⟨low.trans rest, fun w mem assigned => ?_, ?_⟩
    · obtain rfl | mem := List.mem_cons.mp mem
      · exact (given assigned).trans rest
      · exact others w mem assigned
    · obtain same | ⟨w, assigned, gives⟩ := from_
      · rw [same]
        exact made.imp id fun ⟨assigned, gives⟩ => ⟨v, assigned, gives⟩
      · exact .inr ⟨w, assigned, gives⟩

theorem warningsAppearance_bounds (s : State) (m : Fin 16) :
    (∀ w, LampAssigned s m w → (lampGiven s w).rank ≤ (warningsAppearance s m).rank) ∧
      (warningsAppearance s m = .off ∨ ∃ w, LampAssigned s m w ∧ lampGiven s w = warningsAppearance s m) := by
  obtain ⟨-, given, made⟩ := lampFold_bounds s m (List.finRange 48) .off
  exact ⟨fun w => given w (List.mem_finRange w), made⟩

theorem fast_of_rank {a : Appearance} (h : 3 ≤ a.rank) : a = .fast := by
  cases a <;> simp [Appearance.rank] at h ⊢

theorem doorwayAppearance (s : State) (n : Fin 4) : sourceAppearance s m (.doorway n) =
    if doorwayOpen s n = true then (if s.pulse.motion = .moving then .fast else .on) else .off := by
  have any : doorwayOpen s n = true → anyOpen s = true := fun open_ =>
    List.any_eq_true.mpr ⟨n, List.mem_finRange n, open_⟩
  rw [sourceAppearance]
  split
  next open_ => simp [doorOpenMoving, any open_]
  next => rfl

theorem anyOpen_iff (s : State) : anyOpen s = true ↔ ∃ n : Fin 4, notClosed s n = true := by
  simp [anyOpen, notClosed_eq]

theorem doorwayAnyAppearance (s : State) : sourceAppearance s m .doorwayAny =
    if ∃ n : Fin 4, notClosed s n = true then (if s.pulse.motion = .moving then .fast else .on) else .off := by
  simp only [sourceAppearance, doorOpenMoving, ← anyOpen_iff]
  by_cases open_ : anyOpen s = true <;> simp [open_]

theorem hostAppearance (s : State) (m : Fin 16) : sourceAppearance s m .hostRequest =
    if ramRead s (0x0300 + m.val) = 1 then .on else if ramRead s (0x0300 + m.val) = 2 then .slow
    else if ramRead s (0x0300 + m.val) = 3 then .fast else .off := by
  simp only [sourceAppearance, appearanceOfCode]
  generalize ramRead s (0x0300 + m.val) = b
  have code : ∀ k : Nat, k < 256 → (b.toNat = k ↔ b = BitVec.ofNat 8 k) := fun k small => by
    rw [← BitVec.toNat_inj, BitVec.toNat_ofNat, Nat.mod_eq_of_lt (by omega)]
  simp only [code 1 (by omega), code 2 (by omega), code 3 (by omega)]
  rfl

/-! ## The lamps that a computation gives -/

/-- The source of a lamp that no test includes (R114). -/
def lampSource (s : State) (m : Fin 16) : LampSource :=
  if s.out.supervision.stage = .fallback ∧ lampNormal s.image m = .hostRequest then lampFallback s.image m
  else lampNormal s.image m

/-- The owner of a lamp that no test includes. -/
def lampOwner (s : State) (m : Fin 16) : Owner :=
  if s.out.supervision.stage = .fallback ∧ lampNormal s.image m = .hostRequest then .fallback else .normal

theorem lampComputed_untested {s : State} {m : Fin 16}
    (untested : (s.out.test.bind fun x => testAppearance x m) = none) :
    lampComputed s m = (sourceAppearance s m (lampSource s m), lampOwner s m) := by
  simp only [lampComputed, lampSource, lampOwner, untested]
  split <;> rfl

theorem lampComputed_tested {s : State} {m : Fin 16} {a : Appearance}
    (tested : (s.out.test.bind fun x => testAppearance x m) = some a) : lampComputed s m = (a, .test) := by
  simp only [lampComputed, tested]

/-- What the sources of lamps but WARNINGS read, with the supervision, stands alike. -/
structure SameShown (s t : State) : Prop where
  sense : t.sense = s.sense
  pulse : t.pulse = s.pulse
  door : t.door = s.door
  image : t.image = s.image
  supervision : t.out.supervision = s.out.supervision
  requests : ∀ m : Fin 16, ramRead t (0x0300 + m.val) = ramRead s (0x0300 + m.val)

section Shown

variable {s t u : State}

theorem SameShown.refl : SameShown s s := ⟨rfl, rfl, rfl, rfl, rfl, fun _ => rfl⟩

theorem SameShown.trans (h : SameShown s t) (g : SameShown t u) : SameShown s u :=
  ⟨g.sense.trans h.sense, g.pulse.trans h.pulse, g.door.trans h.door, g.image.trans h.image,
    g.supervision.trans h.supervision, fun m => (g.requests m).trans (h.requests m)⟩

theorem sourceAppearance_congr (sense : t.sense = s.sense) (pulse : t.pulse = s.pulse) (door : t.door = s.door)
    (image : t.image = s.image) {m : Fin 16} (request : ramRead t (0x0300 + m.val) = ramRead s (0x0300 + m.val))
    {src : LampSource} (warn : src = .warnings → t.warn = s.warn) : sourceAppearance t m src = sourceAppearance s m src := by
  have line : lineState t = lineState s := funext fun n => by simp only [lineState, sense]
  have open_ : doorwayOpen t = doorwayOpen s := funext fun n => by simp only [doorwayOpen, door, image]
  cases src with
  | none => rfl
  | hostRequest => simp only [sourceAppearance, request]
  | warnings => simp only [sourceAppearance, warningsAppearance, warn rfl, image]
  | senseMirror l a => simp only [sourceAppearance, line]
  | doorway n =>
    simp only [sourceAppearance, doorOpenMoving, anyOpen, open_, pulse]
    rfl
  | doorwayAny =>
    simp only [sourceAppearance, doorOpenMoving, anyOpen, open_, pulse]
    rfl
  | stopRequest => simp only [sourceAppearance, door]
  | permit => simp only [sourceAppearance, door]

theorem SameShown.source (h : SameShown s t) (m : Fin 16) : lampSource t m = lampSource s m := by
  simp only [lampSource, h.supervision, h.image]

theorem SameShown.owner (h : SameShown s t) (m : Fin 16) : lampOwner t m = lampOwner s m := by
  simp only [lampOwner, h.supervision, h.image]

theorem SameShown.appearance (h : SameShown s t) {m : Fin 16} {src : LampSource}
    (warn : src = .warnings → t.warn = s.warn) : sourceAppearance t m src = sourceAppearance s m src :=
  sourceAppearance_congr h.sense h.pulse h.door h.image (h.requests m) warn

end Shown

/-! ## The refresh -/

section Refresh

variable (s : State)

/-- The state whose lamps a refresh computes. -/
def refreshed (s : State) : State := tickPeriod (atLamp s)

theorem refreshed_source {src : LampSource} (m : Fin 16) :
    sourceAppearance (refreshed s) m src = sourceAppearance s m src :=
  sourceAppearance_congr rfl rfl rfl rfl rfl fun _ => rfl

theorem refreshed_test : (refreshed s).out.test = s.out.test := rfl

/-- A refresh leaves all but the clock, the lamps and the period timer. -/
theorem lampRefresh_beside : let t := publish s (computeLamps (refreshed s))
    let i := nextInstant Config.lampPeriod s.time.lastLamp s.time.now
    besideImages t = besideImages { s with
      time := { s.time with now := i, lastLamp := i }
      out := { s.out with
        lamps := t.out.lamps
        supervision := { s.out.supervision with timer := t.out.supervision.timer } } } := by
  intro t i
  have out : t.out = (computeLamps (refreshed s)).out := by simp [t]
  refine (publishAll_besideImages false false).trans ?_
  rw [out]
  rfl

/-- Settles O10: the sources by their tables, and the refresh as one computation at its instant. -/
theorem lampRefreshDecidesLamps : Obligations.LampRefreshDecidesLamps := by
  intro s moving given rank assigned
  have ranks : ∀ a, rank a = a.rank := fun a => by cases a <;> rfl
  have gives : ∀ w, given w = lampGiven s w := fun w => by
    simp only [given, lampGiven, warningAppearance]
    cases s.warn.warnings[w].state <;> cases (warningDef s.image w).cls <;> rfl
  refine ⟨fun m => ⟨rfl, hostAppearance s m, fun _ _ => rfl, fun n => ?_, ?_, rfl, rfl, fun w => ?_, ?_⟩,
    fun x m => ?_, publish s (computeLamps (refreshed s)), rfl, ?_⟩
  · rw [doorwayAppearance, notClosed_eq]
  · exact doorwayAnyAppearance s
  · rw [ranks, ranks, gives]
    exact (warningsAppearance_bounds s m).1 w
  · simp only [gives]
    exact (warningsAppearance_bounds s m).2
  · cases pattern : x.pattern <;> simp [testAppearance, pattern]
  · intro i
    have lamps : ∀ m : Fin 16, (publish s (computeLamps (refreshed s))).out.lamps[m] =
        { appearance := (lampComputed (refreshed s) m).1, owner := (lampComputed (refreshed s) m).2
          pin := pinLevel i (lampComputed (refreshed s) m).1 } := fun m => by
      rw [show (publish s (computeLamps (refreshed s))).out = (computeLamps (refreshed s)).out by simp]
      exact computeLamps_lamp _ m
    have untested : ∀ m : Fin 16, (s.out.test.bind fun x => testAppearance x m) = none →
        lampComputed (refreshed s) m = (sourceAppearance s m (lampSource s m), lampOwner s m) := fun m none => by
      rw [lampComputed_untested (s := refreshed s) none, refreshed_source]
      rfl
    refine ⟨fun m => ⟨?_, ?_⟩, fun w m idle assigned source stop unack => ?_, ?_, lampRefresh_beside s, fun changed => ?_,
      fun same => ?_, publish_outputReach rfl rfl rfl rfl rfl rfl⟩
    · rw [lamps]
      cases tested : s.out.test.bind fun x => testAppearance x m with
      | some a => rw [lampComputed_tested (s := refreshed s) tested]; exact ⟨rfl, rfl⟩
      | none =>
        rw [untested m tested]
        by_cases fallback : s.out.supervision.stage = .fallback ∧ lampNormal s.image m = .hostRequest
        · simp only [lampSource, lampOwner, if_pos fallback, and_self]
        · simp only [lampSource, lampOwner, if_neg fallback, and_self]
    · rw [lamps]
      cases (lampComputed (refreshed s) m).1 <;> rfl
    · have normal : ¬ (s.out.supervision.stage = .fallback ∧ lampNormal s.image m = .hostRequest) := by simp [source]
      have fast : warningsAppearance s m = .fast := by
        refine fast_of_rank ?_
        have low := (warningsAppearance_bounds s m).1 w assigned
        rwa [lampGiven, unack, stop] at low
      rw [lamps, untested m (by rw [idle]; rfl), lampSource, lampOwner, if_neg normal, if_neg normal, source]
      exact ⟨fast, rfl⟩
    · rw [show (publish s (computeLamps (refreshed s))).out = (computeLamps (refreshed s)).out by simp]
      change s.out.supervision.timer.map (Timer.tick i) = _
      congr 1
    · have shown : outputBytes (publish s (computeLamps (refreshed s))) = outputBytes (computeLamps (refreshed s)) :=
        outputBytes_congr (by simp)
      rw [shown] at changed ⊢
      exact imageWritten_of_ram rfl (publishAll_output false false (Ne.symm changed))
    · have shown : outputBytes (publish s (computeLamps (refreshed s))) = outputBytes (computeLamps (refreshed s)) :=
        outputBytes_congr (by simp)
      rw [shown] at same
      rw [publish_onlyOutput (b := s) (s := computeLamps (refreshed s)) rfl rfl rfl rfl rfl,
        publishOutput_same _ _ same.symm]
      rfl

end Refresh

end Sys2Proof.Proofs

/-! What the judgement of the warnings does to the outputs and to the slots, and the supervision of the host. -/

namespace Sys2Proof.Proofs

open Sys2Proof Sys2Proof.Machine Sys2Proof.Safety

/-! ## The steps of a judgement -/

/-- A relation that each step of a judgement keeps: a warning replaced, its onset, its leaving of the list, its
change of state within the list. -/
structure JudgeSteps (R : State → State → Prop) : Prop where
  refl : ∀ s, R s s
  trans : ∀ {s t u}, R s t → R t u → R s u
  set : ∀ w x s, R s (setWarning w x s)
  onset : ∀ w s, R s (onset w s)
  leave : ∀ w s, R s (leaveList w s)
  restate : ∀ w x s, R s (restate w x s)

section Judge

variable {R : State → State → Prop}

theorem JudgeSteps.moveWarning (r : JudgeSteps R) (w : Fin 48) (d : WarningDef) (c : Bool) (s : State) :
    R s (moveWarning w d c s) := by
  unfold Machine.moveWarning
  dsimp only
  cases s.warn.warnings[w].state with
  | inactive =>
    dsimp only
    split
    · split
      · exact r.onset w s
      · exact r.set w _ s
    · exact r.refl s
  | pending =>
    dsimp only
    split
    · exact r.refl s
    · exact r.set w _ s
  | activeUnack =>
    dsimp only
    split
    · exact r.refl s
    · split
      · exact r.restate w _ s
      · exact r.leave w s
  | activeAck =>
    dsimp only
    split
    · exact r.refl s
    · exact r.leave w s
  | latched =>
    dsimp only
    split
    · exact r.onset w s
    · exact r.refl s

theorem JudgeSteps.judgeWarning (r : JudgeSteps R) (s : State) (w : Fin 48) : R s (judgeWarning s w) := by
  unfold Machine.judgeWarning
  dsimp only
  split
  · exact r.trans (r.set w _ s) (r.moveWarning w _ _ _)
  · exact r.refl s

theorem JudgeSteps.judgeAll (r : JudgeSteps R) (s : State) : R s (judgeAll s) :=
  List.foldlRecOn (motive := R s) _ _ (r.refl s) fun t h w _ => r.trans h (r.judgeWarning t w)

end Judge

/-- An onset is its part that leaves the test, and for a STOP warning the abort of the test. -/
def onsetBegun (w : Fin 48) (s : State) : State :=
  let d := warningDef s.image w
  if d.record then occurrence w d.code (onsetBuzz d (enterList w s)) else onsetBuzz d (enterList w s)

theorem onset_eq (w : Fin 48) (s : State) : onset w s =
    if (warningDef s.image w).cls = .stop then abortTest .stopWarning (onsetBegun w s) else onsetBegun w s := by
  unfold onset onsetBegun
  dsimp only
  cases (warningDef s.image w).cls <;> rfl

@[simp] theorem onsetBegun_frame (w : Fin 48) (s : State) :
    (onsetBegun w s).time = s.time ∧ (onsetBegun w s).sense = s.sense ∧ (onsetBegun w s).pulse = s.pulse ∧
    (onsetBegun w s).dist = s.dist ∧ (onsetBegun w s).analog = s.analog ∧ (onsetBegun w s).door = s.door ∧
    (onsetBegun w s).out.lamps = s.out.lamps ∧ (onsetBegun w s).out.test = s.out.test ∧
    (onsetBegun w s).out.lastResult = s.out.lastResult ∧ (onsetBegun w s).out.supervision = s.out.supervision ∧
    (onsetBegun w s).link = s.link ∧ (onsetBegun w s).win = s.win ∧ (onsetBegun w s).image = s.image := by
  unfold onsetBegun
  dsimp only
  split <;> simp

/-! ## The outputs at a judgement -/

/-- What a judgement leaves of the window's bytes below the images and past the slots. -/
theorem reach_requests {areas : List Area} {may : List Notice} {s t : State} (h : Reach areas may s t)
    (high : ∀ r ∈ areas, 0x1000 ≤ r.1) (m : Fin 16) : ramRead t (0x0300 + m.val) = ramRead s (0x0300 + m.val) := by
  refine h.ram _ fun r mem => ?_
  obtain mem | mem := List.mem_append.mp mem
  · have := high r mem
    omega
  · cases op : s.win.ops.test with
    | slot n =>
      rw [op] at mem
      obtain rfl : r = (slotBase n + 3, 2) := by simpa [slotResultArea] using mem
      have base : slotBase n = 0x0100 + 64 * n.val := rfl
      dsimp only
      omega
    | idle => simp [op, slotResultArea] at mem
    | orphan => simp [op, slotResultArea] at mem

/-- No lamp, no test and no result changes; or the running test ends, and every lamp is computed without it. -/
def TestJudged (s t : State) : Prop :=
  (t.out.test = s.out.test ∧ t.out.lamps = s.out.lamps ∧ t.out.lastResult = s.out.lastResult) ∨
  (s.out.test ≠ none ∧ t.out.test = none ∧ ∀ m : Fin 16, t.out.lamps[m].owner = lampOwner s m ∧
    (lampSource s m ≠ .warnings → t.out.lamps[m].appearance = sourceAppearance s m (lampSource s m)))

/-- What lamp sources read stands alike, and the outputs are as a judgement leaves them. -/
structure OutJudged (s t : State) : Prop where
  shown : SameShown s t
  outputs : TestJudged s t

section Outputs

variable {s t u : State}

theorem OutJudged.refl : OutJudged s s := ⟨.refl, .inl ⟨rfl, rfl, rfl⟩⟩

theorem OutJudged.trans (h : OutJudged s t) (g : OutJudged t u) : OutJudged s u := by
  refine ⟨h.shown.trans g.shown, ?_⟩
  obtain ⟨test, lamps, result⟩ | ⟨ran, ended, lamps⟩ := h.outputs
  · obtain ⟨test', lamps', result'⟩ | ⟨ran', ended', lamps'⟩ := g.outputs
    · exact .inl ⟨test'.trans test, lamps'.trans lamps, result'.trans result⟩
    · refine .inr ⟨test ▸ ran', ended', fun m => ?_⟩
      rw [← h.shown.owner, ← h.shown.source]
      refine ⟨(lamps' m).1, fun other => ((lamps' m).2 other).trans ?_⟩
      exact h.shown.appearance fun e => absurd e other
  · obtain ⟨test', lamps', -⟩ | ⟨ran', -⟩ := g.outputs
    · exact .inr ⟨ran, test'.trans ended, fun m => by rw [lamps']; exact lamps m⟩
    · exact absurd ended ran'

/-- An operation beside the outputs. -/
theorem OutJudged.same (shown : SameShown s t) (test : t.out.test = s.out.test) (lamps : t.out.lamps = s.out.lamps)
    (result : t.out.lastResult = s.out.lastResult) : OutJudged s t := ⟨shown, .inl ⟨test, lamps, result⟩⟩

theorem endTest_requests (r : Option AbortReason) (m : Fin 16) :
    ramRead (endTest r s) (0x0300 + m.val) = ramRead s (0x0300 + m.val) :=
  reach_requests (endTest_reach r s) (by simp) m

theorem endTest_shown (r : Option AbortReason) : SameShown s (endTest r s) :=
  ⟨by simp, by simp, by simp, by simp, by simp, endTest_requests r⟩

/-- The lamps after a test has ended, whatever the warnings. -/
theorem endTest_lamp {x : OutputTest} (r : Option AbortReason) (run : s.out.test = some x) (m : Fin 16) :
    (endTest r s).out.lamps[m] =
      { appearance := sourceAppearance s m (lampSource s m), owner := lampOwner s m
        pin := pinLevel s.time.now (sourceAppearance s m (lampSource s m)) } := by
  rw [endTest_out r run]
  exact (computeLamps_lamp { s with out := { s.out with test := none, lastResult := endResult r } } m).trans
    (by rw [lampComputed_untested rfl]; rfl)

theorem endTest_outputs (r : Option AbortReason) : OutJudged s (endTest r s) := by
  cases run : s.out.test with
  | none =>
    rw [endTest_idle r run]
    exact .refl
  | some x =>
    refine ⟨endTest_shown r, .inr ⟨by simp [run], endTest_test r s, fun m => ?_⟩⟩
    rw [endTest_lamp r run]
    exact ⟨rfl, fun _ => rfl⟩

theorem outJudged_steps : JudgeSteps OutJudged where
  refl _ := .refl
  trans := .trans
  set w x s := .same ⟨by simp, by simp, by simp, by simp, by simp, fun _ => rfl⟩ (by simp) (by simp) (by simp)
  onset w s := by
    have begun : OutJudged s (onsetBegun w s) :=
      .same ⟨by simp, by simp, by simp, by simp, by simp, fun m => by simp [ramRead]⟩ (by simp) (by simp) (by simp)
    rw [onset_eq]
    split
    · exact begun.trans (endTest_outputs _)
    · exact begun
  leave w s := .same ⟨by simp, by simp, by simp, by simp, by simp, fun m => by simp [ramRead]⟩ (by simp) (by simp) (by simp)
  restate w x s := .same ⟨by simp, by simp, by simp, by simp, by simp, fun m => by simp [ramRead]⟩ (by simp) (by simp)
    (by simp)

theorem publish_outputs (b u : State) : OutJudged u (publish b u) :=
  .same ⟨by simp, by simp, by simp, by simp, by simp, fun m => publishAll_below _ _ _ _ (by omega)⟩ (by simp) (by simp)
    (by simp)

/-- The outputs at an event's end. -/
theorem finish_outputs (b u : State) : OutJudged u (finish b u) :=
  (outJudged_steps.judgeAll u).trans (publish_outputs b _)

/-- With no test running an event's end leaves the outputs but the arbiter. -/
theorem OutJudged.idle (h : OutJudged s t) (idle : s.out.test = none) :
    t.out.test = none ∧ t.out.lamps = s.out.lamps ∧ t.out.lastResult = s.out.lastResult := by
  obtain ⟨test, rest⟩ | ⟨ran, -⟩ := h.outputs
  · exact ⟨test.trans idle, rest⟩
  · exact absurd idle ran

end Outputs

/-! ## The slots at a judgement -/

/-- With no slot that waits for a test's result, none changes. -/
def SlotsJudged (s t : State) : Prop :=
  (∀ n, s.win.ops.test ≠ .slot n) → t.win.slots = s.win.slots ∧ (∀ n, t.win.ops.test ≠ .slot n) ∧
    ∀ a, a < 0x1000 → ramRead t a = ramRead s a

section Slots

variable {s t u : State}

theorem SlotsJudged.trans (h : SlotsJudged s t) (g : SlotsJudged t u) : SlotsJudged s u := fun free => by
  obtain ⟨slots, ops, ram⟩ := h free
  obtain ⟨slots', ops', ram'⟩ := g ops
  exact ⟨slots'.trans slots, ops', fun a low => (ram' a low).trans (ram a low)⟩

theorem SlotsJudged.same (win : t.win = s.win) : SlotsJudged s t := fun free =>
  ⟨by rw [win], by rwa [win], fun a _ => by rw [ramRead, ramRead, win]⟩

theorem endTest_slots (r : Option AbortReason) : SlotsJudged s (endTest r s) := by
  intro free
  have ram : ∀ a, a < 0x1000 → ramRead (endTest r s) a = ramRead s a := fun a _ => by
    refine (endTest_reach r s).ram a fun area mem => ?_
    cases op : s.win.ops.test with
    | slot n => exact absurd op (free n)
    | idle => simp [op, slotResultArea] at mem
    | orphan => simp [op, slotResultArea] at mem
  cases run : s.out.test with
  | none =>
    rw [endTest_idle r run]
    exact ⟨rfl, free, fun _ _ => rfl⟩
  | some x =>
    refine ⟨?_, ?_, ram⟩
    · rw [endTest_eq r run]
      have none : ∀ n, (testDropped r s).win.ops.test ≠ .slot n := by rw [testDropped_ops]; exact free
      cases x.side with
      | workshop => simp [deliver, testDropped_slots]
      | window =>
        simp only [deliver, deliverWindow]
        split
        next n named => exact absurd named (none n)
        next => rw [setWindowOp_slots, testDropped_slots]
    · intro n
      obtain e | e := (endTest_reach r s).op <;> rw [e]
      · exact free n
      · simp

theorem slotsJudged_steps : JudgeSteps SlotsJudged where
  refl _ := .same rfl
  trans := .trans
  set w x s := .same (by simp)
  onset w s := by
    have begun : SlotsJudged s (onsetBegun w s) := .same (by simp)
    rw [onset_eq]
    split
    · exact begun.trans (endTest_slots _)
    · exact begun
  leave w s := .same (by simp)
  restate w x s := .same (by simp)

theorem publish_slotsJudged (b s : State) : SlotsJudged s (publish b s) := fun free =>
  ⟨by simp, by simpa using free, fun _ low => publishAll_below _ _ _ _ low⟩

theorem finish_slotsJudged (b s : State) : SlotsJudged s (finish b s) :=
  (slotsJudged_steps.judgeAll s).trans (publish_slotsJudged b _)

theorem settle_slotsJudged (c : Bool) (b s : State) : SlotsJudged s (settle c b s) := by
  unfold settle
  split
  · exact finish_slotsJudged b s
  · exact publish_slotsJudged b s

end Slots

end Sys2Proof.Proofs

/-! Host supervision: the entry to FALLBACK and the return from it, its timers, and the soft restart. -/

namespace Sys2Proof.Proofs

open Sys2Proof Sys2Proof.Machine Sys2Proof.Safety

/-! ## The entry to FALLBACK -/

/-- The supervision after an entry to FALLBACK at an instant. -/
def fallbackOf (now : Nat) (v : Supervision) : Supervision :=
  { v with
    stage := .fallback, expected := 0x5A, progress := false, timer := none, occurred := true
    hrst := v.pulse now }

/-- The entry to FALLBACK before a window test is ended: the lamps computed and the claims freed. -/
def fallenBack (s : State) : State :=
  loseClaims .window (computeLamps (setSupervision (fallbackOf s.time.now s.out.supervision) s))

theorem enterFallback_eq (s : State) :
    enterFallback s = setNotice .supervision (abortTestOf .window .sideGone (fallenBack s)) := rfl

@[simp] theorem fallenBack_frame (s : State) :
    (fallenBack s).time = s.time ∧ (fallenBack s).sense = s.sense ∧ (fallenBack s).pulse = s.pulse ∧
    (fallenBack s).dist = s.dist ∧ (fallenBack s).analog = s.analog ∧ (fallenBack s).door = s.door ∧
    (fallenBack s).warn = s.warn ∧ (fallenBack s).faults = s.faults ∧ (fallenBack s).store = s.store ∧
    (fallenBack s).link = s.link ∧ (fallenBack s).image = s.image ∧ (fallenBack s).pending = s.pending ∧
    (fallenBack s).win.ram = s.win.ram ∧ (fallenBack s).win.slots = s.win.slots ∧
    (fallenBack s).win.ops = s.win.ops ∧ (fallenBack s).win.attention = s.win.attention ∧
    (fallenBack s).win.enable = s.win.enable := by
  simp [fallenBack, setSupervision]

theorem fallenBack_out (s : State) : (fallenBack s).out =
    (computeLamps (setSupervision (fallbackOf s.time.now s.out.supervision) s)).out := by
  unfold fallenBack loseClaims
  split <;> rfl

theorem fallenBack_test (s : State) : (fallenBack s).out.test = s.out.test := by rw [fallenBack_out]; rfl

theorem fallenBack_supervision (s : State) :
    (fallenBack s).out.supervision = fallbackOf s.time.now s.out.supervision := by rw [fallenBack_out]; rfl

theorem holdsAny_iff (s : State) (h : Holder) : holdsAny s h = true ↔ ∃ k : Claim, s.win.claims.holder k = h := by
  constructor
  · intro some
    simp only [holdsAny, Bool.or_eq_true, decide_eq_true_eq] at some
    obtain ((e | e) | e) | e := some
    exacts [⟨.faults, e⟩, ⟨.odometer, e⟩, ⟨.config, e⟩, ⟨.outputs, e⟩]
  · rintro ⟨k, e⟩
    cases k <;> simp only [Claims.holder] at e <;> simp [holdsAny, e]

theorem loseClaims_notice (h : Holder) (s : State) (n : Notice) :
    noticeSet (loseClaims h s) n = (noticeSet s n || (decide (.claimChanged = n) && holdsAny s h)) := by
  unfold loseClaims
  split
  next some =>
    rw [noticeSet_setNotice, some, Bool.and_true]
    rfl
  next none => simp [none]

theorem abortTestOf_run {side : Side} {r : AbortReason} {s : State} {x : OutputTest} (run : s.out.test = some x)
    (own : x.side = side) : abortTestOf side r s = endTest (some r) s := by
  simp only [abortTestOf, run, own, if_true, abortTest]

theorem abortTestOf_idle {side : Side} {r : AbortReason} {s : State}
    (idle : ∀ x, s.out.test = some x → x.side ≠ side) : abortTestOf side r s = s := by
  unfold abortTestOf
  split
  next x run => exact if_neg (idle x run)
  next => rfl

theorem abortTestOf_outputs (side : Side) (r : AbortReason) (s : State) : OutJudged s (abortTestOf side r s) := by
  unfold abortTestOf
  split
  · split
    · exact endTest_outputs _
    · exact .refl
  · exact .refl

theorem enterFallback_reach (s : State) :
    Reach [] [.outputTest, .slotDone, .claimChanged, .supervision] s (enterFallback s) := by
  have fallen : Reach [] [.outputTest, .slotDone, .claimChanged, .supervision] s (fallenBack s) := by
    refine ⟨fun a _ => by simp [ramRead], fun n => ?_, .inl (by simp), fun idle => ⟨?_, by simp, by simp, by simp⟩⟩
    · have kept : noticeSet (fallenBack s) n = (noticeSet s n || (decide (.claimChanged = n) && holdsAny s .window)) :=
        loseClaims_notice _ _ n
      rw [kept]
      refine ⟨fun set => by simp [set], fun other => ?_⟩
      have apart : Notice.claimChanged ≠ n := fun e => other (by simp [← e])
      simp [apart]
    · rw [fallenBack_test, idle]
  rw [enterFallback_eq]
  exact (fallen.trans ((abortTestOf_reach _ _ _).mono (by simp) (by simp))).trans (setNotice_reach _ (by simp) _)

theorem enterFallback_supervision (s : State) :
    (enterFallback s).out.supervision = fallbackOf s.time.now s.out.supervision := by
  simp [enterFallback_eq, fallenBack_supervision]

theorem newTimer_pulse (now : Nat) : newTimer now 100 = { left := 10, since := now } := rfl

section Entry

variable {s : State}

/-- What the lamp sources read before and after the entry, but the supervision. -/
theorem fallenBack_source (src : LampSource) (m : Fin 16) :
    sourceAppearance (fallenBack s) m src = sourceAppearance s m src :=
  sourceAppearance_congr (by simp) (by simp) (by simp) (by simp) (by simp [ramRead]) fun _ => by simp

theorem fallenBack_lampSource (m : Fin 16) : lampSource (fallenBack s) m =
    if lampNormal s.image m ≠ .hostRequest then lampNormal s.image m else lampFallback s.image m := by
  simp only [lampSource, fallenBack_supervision, fallenBack_frame, fallbackOf, true_and, ite_not]

theorem fallenBack_lampOwner (m : Fin 16) : lampOwner (fallenBack s) m =
    if lampNormal s.image m ≠ .hostRequest then .normal else .fallback := by
  simp only [lampOwner, fallenBack_supervision, fallenBack_frame, fallbackOf, true_and, ite_not]

/-- A lamp that no test includes, as the entry computes it. -/
theorem fallenBack_lamp {m : Fin 16} (untested : (s.out.test.bind fun x => testAppearance x m) = none) :
    (fallenBack s).out.lamps[m].owner = lampOwner (fallenBack s) m ∧
      (fallenBack s).out.lamps[m].appearance = sourceAppearance (fallenBack s) m (lampSource (fallenBack s) m) := by
  have computed := lampComputed_untested (s := setSupervision (fallbackOf s.time.now s.out.supervision) s) untested
  have lamp := computeLamps_lamp (setSupervision (fallbackOf s.time.now s.out.supervision) s) m
  rw [fallenBack_out, lamp, computed]
  refine ⟨?_, ?_⟩
  · simp only [lampOwner, fallenBack_supervision, fallenBack_frame]
    rfl
  · rw [fallenBack_source]
    simp only [lampSource, fallenBack_supervision, fallenBack_frame]
    exact sourceAppearance_congr rfl rfl rfl rfl rfl fun _ => rfl

theorem enterFallback_outputs : OutJudged (fallenBack s) (enterFallback s) := by
  rw [enterFallback_eq]
  refine (abortTestOf_outputs .window .sideGone _).trans ?_
  exact .same ⟨by simp, by simp, by simp, by simp, by simp, fun m => by simp [ramRead]⟩ (by simp) (by simp) (by simp)

/-- A window test ends at the entry. -/
theorem enterFallback_ends {x : OutputTest} (run : s.out.test = some x) (side : x.side = .window) :
    enterFallback s = setNotice .supervision (endTest (some .sideGone) (fallenBack s)) := by
  rw [enterFallback_eq, abortTestOf_run ((fallenBack_test s).trans run) side]

/-- The lamps after the entry's event: their sources without a test, as they stood before, but where a STOP onset of
this event ends a workshop test. -/
theorem fallback_lamps {m : Fin 16}
    (untested : ∀ x, (finish s (enterFallback s)).out.test = some x → testAppearance x m = none) :
    let t := finish s (enterFallback s)
    t.out.lamps[m].owner = lampOwner (fallenBack s) m ∧
    (lampSource (fallenBack s) m ≠ .warnings ∨ t.out.test = s.out.test ∨
        (∀ x, s.out.test = some x → x.side = .window) →
      t.out.lamps[m].appearance = sourceAppearance s m (lampSource (fallenBack s) m)) := by
  intro t
  have judged : OutJudged (fallenBack s) t := enterFallback_outputs.trans (finish_outputs s _)
  have source := fun src => fallenBack_source (s := s) src m
  by_cases own : ∃ x, s.out.test = some x ∧ x.side = .window
  · obtain ⟨x, run, side⟩ := own
    have running : (fallenBack s).out.test = some x := (fallenBack_test s).trans run
    have idle : (enterFallback s).out.test = none := by
      rw [enterFallback_ends run side]
      exact endTest_test _ _
    have lamps : t.out.lamps = (endTest (some .sideGone) (fallenBack s)).out.lamps := by
      rw [((finish_outputs s (enterFallback s)).idle idle).2.1, enterFallback_ends run side]
      rfl
    rw [lamps, endTest_lamp _ running]
    exact ⟨rfl, fun _ => source _⟩
  · obtain ⟨test, lamps, -⟩ | ⟨ran, ended, lamps⟩ := judged.outputs
    · have none : (s.out.test.bind fun x => testAppearance x m) = none := by
        rw [← fallenBack_test s, ← test]
        cases run : t.out.test with
        | none => rfl
        | some x => exact untested x run
      rw [lamps]
      obtain ⟨owner, appearance⟩ := fallenBack_lamp none
      exact ⟨owner, fun _ => appearance.trans (source _)⟩
    · refine ⟨(lamps m).1, fun case_ => ((lamps m).2 ?_).trans (source _)⟩
      obtain other | same | window := case_
      · exact other
      · rw [ended, ← fallenBack_test s] at same
        exact absurd same.symm ran
      · cases run : s.out.test with
        | none => exact absurd ((fallenBack_test s).trans run) ran
        | some x => exact absurd ⟨x, run, window x run⟩ own

/-- The slot of a window test that the entry ends. -/
theorem fallback_slot {x : OutputTest} (run : s.out.test = some x) (side : x.side = .window) {n : Fin 8}
    (slot : s.win.ops.test = .slot n) :
    let t := finish s (enterFallback s)
    t.win.slots[n] = .done ∧ (s.win.ram.wf → slotByte t n 3 = 1 ∧ slotByte t n 4 = 7) := by
  intro t
  have running : (fallenBack s).out.test = some x := (fallenBack_test s).trans run
  have ended := (enterFallback_ends run side).trans
    (congrArg (setNotice .supervision) (endTest_slot _ running side ((by simp : (fallenBack s).win.ops = s.win.ops) ▸ slot)))
  have free : ∀ k, (enterFallback s).win.ops.test ≠ .slot k := by
    rw [ended, setNotice_win_ops, setWindowOp_test]
    simp
  obtain ⟨slots, -, ram⟩ := finish_slotsJudged s (enterFallback s) free
  refine ⟨?_, fun wf => ?_⟩
  · have done : t.win.slots[n] = (enterFallback s).win.slots[n] := by simp only [slots, t]
    rw [done]
    simp only [ended, setNotice_win_slots, setWindowOp_slots, finishSlot_slots]
    simp
  · have bytes := finishSlot_bytes n (endedWith (some .sideGone)) (endDetail (some .sideGone))
      (testDropped (some .sideGone) (fallenBack s)) (testDropped_wf _ (by simpa using wf))
    have low : ∀ k, k < 64 → slotByte t n k = slotByte (enterFallback s) n k := fun k small =>
      ram _ (by rw [slotBase]; omega)
    rw [low 3 (by omega), low 4 (by omega), ended]
    exact bytes

/-- The entry to FALLBACK with the judgement that its event ends with. -/
theorem fallbackEntered_finish : fallbackEntered s (finish s (enterFallback s)) := by
  have reach := enterFallback_reach s
  have finished := finish_reachWarnings (b := s) (u := enterFallback s) (senseBytes_congr (by simp) (by simp))
    (doorFields_congr (by simp) (by simp)) (doorBytes_congr (by simp) (by simp)) (by simp)
  have all : Reach [outputArea, listArea, faultArea]
      [.warningsChanged, .faultMemoryChanged, .outputTest, .slotDone, .claimChanged, .supervision]
      s (finish s (enterFallback s)) :=
    (reach.mono (by simp) (by simp)).trans (finished.mono (List.Subset.refl _) (by simp [warningNotices]))
  have claims : ∀ k, (enterFallback s).win.claims.holder k =
      if s.win.claims.holder k = .window then .free else s.win.claims.holder k := enterFallback_holder s
  have notice : ∀ n, noticeSet (enterFallback s) n = true → noticeSet (finish s (enterFallback s)) n = true :=
    fun n => (finished.notices n).1
  have running : ∀ {x}, s.out.test = some x → (fallenBack s).out.test = some x := fun run =>
    (fallenBack_test s).trans run
  have ended : ∀ {x}, s.out.test = some x → x.side = .window → (enterFallback s).out.test = none := fun run side => by
    rw [enterFallback_ends run side]
    exact endTest_test _ _
  refine ⟨?_, fun k => ?_, fun held => notice _ ?_, notice _ ?_, fun x run side => ⟨?_, ?_, notice _ ?_, fun n slot =>
    fallback_slot run side slot⟩, fun m untested => ?_, ?_, by simp, by simp, by simp, by simp, by simp, by simp, by simp,
    by simp, by simp, by simp, by simp, by simp, by simp, by simp, all.ram⟩
  · rw [(finish_outputs s _).shown.supervision, enterFallback_supervision]
    rfl
  · rw [← claims]
    simp
  · rw [enterFallback_eq, noticeSet_setNotice, (((abortTestOf_reach _ _ _).notices _).1), Bool.true_or]
    refine (loseClaims_notice _ _ _).trans ?_
    have any := (holdsAny_iff s .window).mpr held
    have same : holdsAny (computeLamps (setSupervision (fallbackOf s.time.now s.out.supervision) s)) .window =
      holdsAny s .window := rfl
    simp [same, any]
  · rw [enterFallback_eq, noticeSet_setNotice]
    simp
  · rw [((finish_outputs s _).idle (ended run side)).1]
  · rw [((finish_outputs s _).idle (ended run side)).2.2, enterFallback_ends run side]
    exact (congrArg OutputUnit.lastResult (endTest_out _ (running run))).trans rfl
  · rw [enterFallback_ends run side, noticeSet_setNotice, endTest_notice _ (running run), Bool.true_or]
  · have lamps := fallback_lamps untested
    rw [fallenBack_lampOwner, fallenBack_lampSource] at lamps
    exact lamps
  · have judged := finish_judged s (enterFallback s)
    simpa using judged

end Entry

/-! ## The supervision timers and refreshes -/

section Supervised

variable {s : State}

/-- An event of the supervision that neither enters nor leaves FALLBACK shows nowhere. -/
theorem settle_supervised {t : State} (quiet : QuietWrite s t) :
    settle (supervisionFallback s != supervisionFallback t) s t = t := quiet.settle

theorem enterWarned_quiet (stage : s.out.supervision.stage ≠ .fallback) : QuietWrite s (enterWarned s) :=
  ⟨rfl, rfl, rfl, rfl, rfl, rfl, by simp [supervisionFallback, enterWarned, setSupervision, stage]⟩

/-- An entry to FALLBACK changes its warning source: the warnings are judged. -/
theorem settle_enterFallback (stage : s.out.supervision.stage ≠ .fallback) :
    settle (supervisionFallback s != supervisionFallback (enterFallback s)) s (enterFallback s) =
      finish s (enterFallback s) := by
  have changed : (supervisionFallback s != supervisionFallback (enterFallback s)) = true := by
    simp [supervisionFallback, enterFallback_supervision, fallbackOf, stage]
  rw [changed]
  rfl

theorem periodExpiry_due (due : expired s.out.supervision.timer = true) : periodExpiry s =
    match s.out.supervision.stage with
    | .off => s
    | .watching => enterWarned s
    | .warned => enterFallback s
    | .fallback =>
      setSupervision { s.out.supervision with progress := false, expected := 0x5A, timer := none } s :=
  if_pos due

/-- Settles O27: the period timer by the stage, and the HRSTn timer. -/
theorem supervisionTimers : Obligations.SupervisionTimers := by
  intro s v
  have period : ∀ {t : State}, periodExpiry s = t →
      exec .supvPeriodExpiry s = .next (settle (supervisionFallback s != supervisionFallback t) s t) :=
    fun e => e ▸ rfl
  refine ⟨fun idle => ?_, fun due stage => ?_, fun due stage => ?_, fun due stage => ?_, fun due => ?_, fun idle => ?_⟩
  · have same : periodExpiry s = s := if_neg (Bool.eq_false_iff.mp idle)
    rw [period same, QuietWrite.refl.settle]
  · have warned : periodExpiry s = enterWarned s := by
      rw [periodExpiry_due due]
      simp only [show s.out.supervision.stage = .watching from stage]
    rw [period warned, (enterWarned_quiet (by rw [show s.out.supervision.stage = .watching from stage]; simp)).settle]
    rfl
  · have entered : periodExpiry s = enterFallback s := by
      rw [periodExpiry_due due]
      simp only [show s.out.supervision.stage = .warned from stage]
    refine ⟨_, period entered, ?_⟩
    rw [settle_enterFallback (by rw [show s.out.supervision.stage = .warned from stage]; simp)]
    exact fallbackEntered_finish
  · have undone : periodExpiry s =
        setSupervision { s.out.supervision with progress := false, expected := 0x5A, timer := none } s := by
      rw [periodExpiry_due due]
      simp only [show s.out.supervision.stage = .fallback from stage]
    have quiet : QuietWrite s (setSupervision { s.out.supervision with
        progress := false, expected := 0x5A, timer := none } s) := setSupervision_quiet rfl
    rw [period undone, quiet.settle]
    rfl
  · exact congrArg _ (if_pos due)
  · exact congrArg _ (if_neg (Bool.eq_false_iff.mp idle))

theorem refreshWrite_good {value : Byte} (good : value = s.out.supervision.expected) :
    refreshWrite value s = goodRefresh s := if_pos good

theorem refreshWrite_bad {value : Byte} (bad : value ≠ s.out.supervision.expected) :
    refreshWrite value s = refreshFault s := if_neg bad

theorem goodRefresh_watching (stage : s.out.supervision.stage = .watching) : goodRefresh s =
    setSupervision { s.out.supervision with
      expected := flipExpected s.out.supervision.expected
      timer := periodTimer s.time.now s.out.supervision.period, occurred := false } s := by
  simp only [goodRefresh, stage]

theorem goodRefresh_warned (stage : s.out.supervision.stage = .warned) : goodRefresh s =
    setSupervision { s.out.supervision with
      expected := flipExpected s.out.supervision.expected
      timer := periodTimer s.time.now s.out.supervision.period, stage := .watching, occurred := false } s := by
  simp only [goodRefresh, stage]

theorem goodRefresh_first (stage : s.out.supervision.stage = .fallback) (first : s.out.supervision.progress = false) :
    goodRefresh s = setSupervision { s.out.supervision with
      expected := flipExpected s.out.supervision.expected
      timer := periodTimer s.time.now s.out.supervision.period, progress := true } s := by
  simp only [goodRefresh, stage, first, Bool.false_eq_true, if_false]

theorem refreshFault_first (stage : s.out.supervision.stage = .fallback) (first : s.out.supervision.progress = false) :
    refreshFault s = setSupervision { s.out.supervision with expected := 0x5A } s := by
  simp only [refreshFault, stage, first, Bool.false_eq_true, if_false]

theorem refreshFault_second (stage : s.out.supervision.stage = .fallback)
    (second : s.out.supervision.progress = true) : refreshFault s =
      setSupervision { s.out.supervision with progress := false, expected := 0x5A, timer := none } s := by
  simp only [refreshFault, stage, second, if_true]

/-- The supervision after a return from FALLBACK. -/
def returnedOf (now : Nat) (v : Supervision) : Supervision :=
  { v with
    expected := flipExpected v.expected, timer := periodTimer now v.period, stage := .watching, progress := false }

/-- The return from FALLBACK, its lamps computed. -/
def fallbackLeft (s : State) : State :=
  setNotice .supervision (computeLamps (setSupervision (returnedOf s.time.now s.out.supervision) s))

theorem goodRefresh_second (stage : s.out.supervision.stage = .fallback)
    (second : s.out.supervision.progress = true) : goodRefresh s = fallbackLeft s := by
  simp only [goodRefresh, fallbackLeft, returnedOf, stage, second, if_true]

@[simp] theorem fallbackLeft_frame (s : State) :
    (fallbackLeft s).time = s.time ∧ (fallbackLeft s).sense = s.sense ∧ (fallbackLeft s).pulse = s.pulse ∧
    (fallbackLeft s).dist = s.dist ∧ (fallbackLeft s).analog = s.analog ∧ (fallbackLeft s).door = s.door ∧
    (fallbackLeft s).warn = s.warn ∧ (fallbackLeft s).win.claims = s.win.claims ∧
    (fallbackLeft s).pending = s.pending := by
  simp [fallbackLeft, setSupervision]

theorem fallbackLeft_notice : noticeSet (finish s (fallbackLeft s)) .supervision = true := by
  refine ((finish_reach s (fallbackLeft s)).notices _).1 ?_
  exact (noticeSet_setNotice _ _ _).trans (by simp)

theorem fallbackLeft_judged : warningsJudged (finish s (fallbackLeft s)) s.time.now s.warn
    (finish s (fallbackLeft s)).warn := by
  have judged := finish_judged s (fallbackLeft s)
  simp only [finish_frame, fallbackLeft_frame] at judged
  exact judged

/-- The lamps at the return with no test running: their normal sources. -/
theorem fallbackLeft_lamp (idle : s.out.test = none) (m : Fin 16) :
    (fallbackLeft s).out.lamps[m].owner = .normal ∧
      (fallbackLeft s).out.lamps[m].appearance = sourceAppearance s m (lampNormal s.image m) := by
  have lamp := computeLamps_lamp (setSupervision (returnedOf s.time.now s.out.supervision) s) m
  have untested : ((setSupervision (returnedOf s.time.now s.out.supervision) s).out.test.bind
      fun x => testAppearance x m) = none := by
    change (s.out.test.bind fun x => testAppearance x m) = none
    rw [idle]
    rfl
  rw [lampComputed_untested untested] at lamp
  have same : (fallbackLeft s).out.lamps[m] = (computeLamps (setSupervision
    (returnedOf s.time.now s.out.supervision) s)).out.lamps[m] := rfl
  rw [same, lamp]
  have source : lampSource (setSupervision (returnedOf s.time.now s.out.supervision) s) m = lampNormal s.image m :=
    if_neg (by simp [setSupervision, returnedOf])
  have owner : lampOwner (setSupervision (returnedOf s.time.now s.out.supervision) s) m = .normal :=
    if_neg (by simp [setSupervision, returnedOf])
  rw [source, owner]
  exact ⟨rfl, sourceAppearance_congr rfl rfl rfl rfl rfl fun _ => rfl⟩

/-- Settles O50: each stage by the value written. -/
theorem supervisionRefresh : Obligations.SupervisionRefresh := by
  intro s value v other started put good
  have ran : ∀ {t : State}, refreshWrite value s = t →
      exec (.supvRefresh value) s = .next (settle (supervisionFallback s != supervisionFallback t) s t) :=
    fun e => e ▸ rfl
  have quiet : ∀ {t : State}, refreshWrite value s = t → QuietWrite s t → exec (.supvRefresh value) s = .next t :=
    fun e q => by rw [ran e, q.settle]
  have put_eq : ∀ {x : Supervision}, refreshWrite value s = setSupervision x s →
      decide (x.stage = .fallback) = decide (s.out.supervision.stage = .fallback) →
      exec (.supvRefresh value) s = .next (put x) := fun e stage => quiet e (setSupervision_quiet stage)
  refine ⟨fun off => ?_, fun watching good => ?_, fun watching bad => ?_, fun warned good => ?_, fun warned bad => ?_,
    fun fallback first good => ?_, fun fallback first bad => ?_, fun fallback second bad => ?_,
    fun fallback second good => ?_⟩
  · refine quiet ?_ .refl
    have stage : s.out.supervision.stage = .off := off
    unfold refreshWrite
    split
    · simp only [goodRefresh, stage]
    · simp only [refreshFault, stage]
  · exact put_eq ((refreshWrite_good good).trans (goodRefresh_watching watching)) rfl
  · have stage : s.out.supervision.stage = .watching := watching
    have warned : refreshWrite value s = enterWarned s := by
      rw [refreshWrite_bad bad]
      simp only [refreshFault, stage]
    exact quiet warned (enterWarned_quiet (by simp [stage]))
  · have stage : s.out.supervision.stage = .warned := warned
    exact put_eq ((refreshWrite_good good).trans (goodRefresh_warned warned)) (by simp [stage])
  · have stage : s.out.supervision.stage = .warned := warned
    have entered : refreshWrite value s = enterFallback s := by
      rw [refreshWrite_bad bad]
      simp only [refreshFault, stage]
    refine ⟨_, ran entered, ?_⟩
    rw [settle_enterFallback (by simp [stage])]
    exact fallbackEntered_finish
  · exact put_eq ((refreshWrite_good good).trans (goodRefresh_first fallback first)) rfl
  · exact put_eq ((refreshWrite_bad bad).trans (refreshFault_first fallback first)) rfl
  · exact put_eq ((refreshWrite_bad bad).trans (refreshFault_second fallback second)) rfl
  · have stage : s.out.supervision.stage = .fallback := fallback
    have left_ := (refreshWrite_good good).trans (goodRefresh_second fallback second)
    have changed : (supervisionFallback s != supervisionFallback (fallbackLeft s)) = true := by
      simp [supervisionFallback, fallbackLeft, setSupervision, returnedOf, stage]
    have settled : settle (supervisionFallback s != supervisionFallback (fallbackLeft s)) s (fallbackLeft s) =
        finish s (fallbackLeft s) := by
      rw [changed]
      rfl
    refine ⟨_, ran left_, ?_⟩
    rw [settled]
    have outputs := finish_outputs s (fallbackLeft s)
    refine ⟨outputs.shown.supervision, fallbackLeft_notice, by simp, fun idle m => ?_, fallbackLeft_judged, by simp,
      by simp, by simp, by simp, by simp, by simp⟩
    rw [(outputs.idle idle).2.1]
    exact fallbackLeft_lamp idle m

/-! ## The soft restart -/

theorem settle_outputs (c : Bool) (b u : State) : OutJudged u (settle c b u) := by
  unfold settle
  split
  · exact finish_outputs b u
  · exact publish_outputs b u

theorem restartWrite_reset : restartWrite 0xC3 s = softReset s := if_pos rfl

theorem restartWrite_refused {value : Byte} (other : value ≠ 0xC3) : restartWrite value s = portFault 0x0013 s :=
  if_neg other

/-- The soft restart before a window test is ended. -/
def windowReset (s : State) : State := dropClaims .window { s with win := s.win.softReset }

/-- The soft restart before the supervision is switched off. -/
def testReset (s : State) : State := abortTestOf .window .sideGone (windowReset s)

theorem softReset_eq (s : State) : softReset s = supervisionOff (testReset s) := rfl

theorem windowReset_free (s : State) (n : Fin 8) : (windowReset s).win.ops.test ≠ .slot n := by
  change s.win.ops.test.orphaned ≠ .slot n
  cases s.win.ops.test <;> simp [WindowOp.orphaned]

theorem supervisionOff_slots (s : State) : SlotsJudged s (supervisionOff s) := .same (by simp)

theorem abortTestOf_slots (side : Side) (r : AbortReason) (s : State) : SlotsJudged s (abortTestOf side r s) := by
  unfold abortTestOf
  split
  · split
    · exact endTest_slots _
    · exact .same rfl
  · exact .same rfl

/-- The slots, the operations in flight and the bytes below the images after the soft restart's event. -/
theorem softReset_slots (c : Bool) (s : State) :
    (settle c s (softReset s)).win.slots = Vector.replicate 8 .free ∧
    (∀ a, a < 0x1000 → ramRead (settle c s (softReset s)) a = ramRead s a) ∧
    ((settle c s (softReset s)).win.ops = (windowReset s).win.ops ∨
      (settle c s (softReset s)).win.ops = { (windowReset s).win.ops with test := .idle }) := by
  have steps : SlotsJudged (windowReset s) (settle c s (softReset s)) :=
    ((abortTestOf_slots .window .sideGone _).trans (supervisionOff_slots _)).trans (settle_slotsJudged c s _)
  obtain ⟨slots, -, ram⟩ := steps (windowReset_free s)
  have off : (softReset s).win.ops = (testReset s).win.ops := by rw [softReset_eq]; simp
  refine ⟨slots, fun a low => ram a low, ?_⟩
  have aborted := (abortTestOf_reach .window .sideGone (windowReset s)).op
  have settled := (settle_reach c s (softReset s)).op
  rw [off] at settled
  obtain e | e := settled <;> obtain e' | e' := aborted <;> rw [e] <;> simp only [testReset, e', true_or, or_true]

theorem orphaned_iff (w : WindowOp) : (w.orphaned ≠ .idle ↔ w ≠ .idle) ∧ (w ≠ .idle → w.orphaned = .orphan) := by
  cases w <;> simp [WindowOp.orphaned]

theorem windowReset_get (s : State) (k : Operation) :
    (windowReset s).win.ops.get k = (s.win.ops.get k).orphaned := by cases k <;> rfl

/-- A soft restart out of any stage but FALLBACK changes no image. -/
theorem softReset_quiet (stage : s.out.supervision.stage ≠ .fallback) (idle : s.out.test = none) :
    softReset s = setSupervision s.out.supervision.off (windowReset s) := by
  have same : testReset s = windowReset s := abortTestOf_idle fun x run => by
    rw [show (windowReset s).out.test = s.out.test from rfl, idle] at run
    cases run
  rw [softReset_eq, same, supervisionOff]
  exact if_neg stage

theorem softReset_supervision (s : State) : (softReset s).out.supervision = s.out.supervision.off := by
  have kept : (testReset s).out.supervision = s.out.supervision := by simp [testReset, windowReset, dropClaims]
  rw [softReset_eq, supervisionOff, kept]
  split <;> rfl

@[simp] theorem softReset_rest (s : State) :
    (softReset s).time = s.time ∧ (softReset s).sense = s.sense ∧ (softReset s).pulse = s.pulse ∧
    (softReset s).dist = s.dist ∧ (softReset s).analog = s.analog ∧ (softReset s).door = s.door ∧
    (softReset s).warn = s.warn ∧ (softReset s).store = s.store ∧ (softReset s).image = s.image ∧
    (softReset s).pending = s.pending ∧ (softReset s).link.session = s.link.session ∧
    (softReset s).link.request = s.link.request ∧ (softReset s).win.source = s.win.source ∧
    (softReset s).win.adoption = s.win.adoption ∧ (softReset s).win.enable = 0 ∧
    (softReset s).win.capture = none ∧ (softReset s).win.faultCount = 0 ∧ (softReset s).win.softCause = true ∧
    (softReset s).win.attention = Vector.replicate 8 none := by
  simp [softReset, WindowPort.softReset]

/-- A window test ends at a soft restart, and none starts. -/
theorem softReset_ends {x : OutputTest} (run : s.out.test = some x) (side : x.side = .window) :
    (softReset s).out.test = none := by
  have ended : (testReset s).out.test = none := by
    have running : (windowReset s).out.test = some x := run
    rw [testReset, abortTestOf_run running side]
    exact endTest_test _ _
  rw [softReset_eq]
  simpa using ended

/-- A soft restart out of FALLBACK has the warnings judged. -/
theorem softReset_judged (s : State) : warningsJudged (settle true s (softReset s)) s.time.now s.warn
    (settle true s (softReset s)).warn := by
  have judged := finish_judged s (softReset s)
  simp only [finish_frame, softReset_rest] at judged
  exact judged

/-- Settles O51: the reset in its order, with the judgement where it leaves FALLBACK. -/
theorem softRestartResets : Obligations.SoftRestartResets := by
  intro s
  have ran : ∀ value, exec (.softRestart value) s = .next (settle (supervisionFallback s !=
      supervisionFallback (restartWrite value s)) s (restartWrite value s)) := fun _ => rfl
  refine ⟨?_, fun value other => ?_⟩
  · have changed : (supervisionFallback s != supervisionFallback (softReset s)) = supervisionFallback s := by
      simp [supervisionFallback, softReset_supervision, Supervision.off]
    have reset := ran 0xC3
    rw [restartWrite_reset, changed] at reset
    refine ⟨_, reset, ?_⟩
    obtain ⟨slots, ram, ops⟩ := softReset_slots (supervisionFallback s) s
    have others : ∀ k, k ≠ .test → (settle (supervisionFallback s) s (softReset s)).win.ops.get k =
        (s.win.ops.get k).orphaned := fun k other => by
      rw [← windowReset_get]
      obtain e | e := ops <;> rw [e]
      cases k <;> simp [WindowOps.get] at other ⊢
    refine ⟨fun n => ⟨?_, by simp⟩, fun k busy => ?_, fun k other busy => ?_, by simp, by simp, by simp, by simp, ?_,
      fun k => ?_, fun x run side => ?_, ?_, fun idle stage => ?_, fun stage => ?_, fun stage => ?_, ram, by simp, by simp,
      by simp, by simp, by simp, by simp, by simp, by simp, by simp, by simp, by simp, by simp, by simp, by simp⟩
    · simp only [slots]
      simp
    · by_cases test : k = .test
      · subst test
        obtain e | e := ops
        · rw [e, windowReset_get] at busy ⊢
          have was := (orphaned_iff _).1.mp busy
          exact ⟨was, (orphaned_iff _).2 was⟩
        · rw [e] at busy
          exact absurd rfl busy
      · rw [others k test] at busy ⊢
        have was := (orphaned_iff _).1.mp busy
        exact ⟨was, (orphaned_iff _).2 was⟩
    · rw [others k other]
      exact (orphaned_iff _).2 busy
    · simp [noteLow]
    · rw [show (settle (supervisionFallback s) s (softReset s)).win.claims = (softReset s).win.claims by simp,
        softReset_claims, dropClaims_holder]
      rfl
    · exact ((settle_outputs _ _ _).idle (softReset_ends run side)).1
    · rw [(settle_outputs _ _ _).shown.supervision]
      exact softReset_supervision s
    · have settled : settle (supervisionFallback s) s (softReset s) =
          setSupervision s.out.supervision.off (windowReset s) := by
        have quiet : QuietWrite s (setSupervision s.out.supervision.off (windowReset s)) :=
          ⟨rfl, rfl, rfl, rfl, rfl, rfl, by simp [supervisionFallback, setSupervision, Supervision.off, stage]⟩
        rw [← quiet.settle, softReset_quiet stage idle]
        rw [show supervisionFallback (setSupervision s.out.supervision.off (windowReset s)) = false from rfl]
        simp
      rw [settled]
      exact ⟨rfl, rfl, rfl, rfl, rfl, rfl, rfl⟩
    · have left_ : supervisionFallback s = true := by simp [supervisionFallback, stage]
      rw [left_]
      exact softReset_judged s
    · have kept : supervisionFallback s = false := by simp [supervisionFallback, stage]
      rw [kept]
      simp [settle]
  · rw [ran, restartWrite_refused other, (portFault_quiet _).settle, portFault_eq]
    rfl

end Supervised

end Sys2Proof.Proofs

/-! Takes: of a slot by the request engine, of a request by the service engine, and the answers of both. -/

namespace Sys2Proof.Proofs

open Sys2Proof Sys2Proof.Machine Sys2Proof.Safety

/-! ## The take of a slot -/

/-- A search of an ascending list finds the least member that has the property. -/
theorem find?_least {α : Type} [LinearOrder α] (p : α → Bool) {a : α} : ∀ {l : List α}, l.Pairwise (· < ·) → a ∈ l →
    p a = true → (∀ b, b < a → p b = false) → l.find? p = some a
  | [], _, mem, _, _ => absurd mem List.not_mem_nil
  | b :: l, sorted, mem, holds, least => by
    obtain ⟨head, tail⟩ := List.pairwise_cons.mp sorted
    obtain rfl | mem := List.mem_cons.mp mem
    · rw [List.find?_cons, holds]
    · rw [List.find?_cons, least b (head a mem)]
      exact find?_least p tail mem holds least

section Slot

variable {s : State} {i : Nat} {n : Fin 8} {kind : Byte}

theorem takeDue_due (h : takeDue s i n kind) : dueSlot s i = some n := by
  obtain ⟨-, -, posted, ⟨a, marked, early⟩, least⟩ := h
  refine find?_least _ (List.pairwise_lt_finRange 8) (List.mem_finRange n) ?_ fun m less => ?_
  · simp only [slotDue, posted, marked, early, decide_true, Bool.and_self]
  · rw [slotDue, Bool.and_eq_false_iff, decide_eq_false_iff_not]
    by_cases other : s.win.slots[m] = .posted
    · right
      cases mark : s.win.attention[m] with
      | none => rfl
      | some t => exact decide_eq_false (Nat.not_lt.mpr (least m less other t mark))
    · exact .inl other

theorem nextTake_due (h : takeDue s i n kind) : nextTake s = some (i, n) := by
  have due := takeDue_due h
  obtain ⟨instant, -⟩ := h
  simp only [nextTake, ← instant, due]

/-- The slot that is due is taken and served. -/
theorem slotTake_due (h : takeDue s i n kind) {mine : Byte → Bool} (own : mine kind = true)
    (body : Fin 8 → State → State) : slotTake mine body s = body n (beginTake i n s) := by
  have next := nextTake_due h
  obtain ⟨-, kind_, -⟩ := h
  simp only [slotTake, next, kind_, own, if_true]

theorem windowRequest_due (h : takeDue s i n kind) (k : Operation) (op : Fin 8 → State → Took) :
    windowRequest kind k op s = serveSlot k n (op n (beginTake i n s)) :=
  slotTake_due h (by simp) _

variable (s i n)

theorem beginTake_ram : (beginTake i n s).win.ram =
    Mem.write (Mem.write s.win.ram (slotBase n + 3) 0xFF) (slotBase n + 4) 0 := rfl

theorem beginTake_kept : ramKept [(slotBase n + 3, 2)] s (beginTake i n s) := fun a outside => by
  have apart := outside (slotBase n + 3, 2) (by simp)
  dsimp only at apart
  rw [ramRead, beginTake_ram, Mem.read_write_ne _ _ _ _ (by omega), Mem.read_write_ne _ _ _ _ (by omega)]
  rfl

theorem beginTake_wf (wf : s.win.ram.wf) : (beginTake i n s).win.ram.wf :=
  Mem.write_wf _ _ _ (Mem.write_wf _ _ _ wf)

theorem beginTake_result (wf : s.win.ram.wf) :
    slotByte (beginTake i n s) n 3 = 0xFF ∧ slotByte (beginTake i n s) n 4 = 0 := by
  constructor
  · rw [slotByte, ramRead, beginTake_ram, Mem.read_write_ne _ _ _ _ (by omega), Mem.read_write_self _ _ _ wf]
  · rw [slotByte, ramRead, beginTake_ram, Mem.read_write_self _ _ _ (Mem.write_wf _ _ _ wf)]

/-- The parameters of a slot are those that stood before its take. -/
theorem beginTake_byte {k : Nat} (past : 5 ≤ k) : slotByte (beginTake i n s) n k = slotByte s n k :=
  beginTake_kept s i n _ (by simp; omega)

theorem beginTake_params (k : Nat) : slotParams (beginTake i n s) n k = slotParams s n k :=
  List.map_congr_left fun j _ => beginTake_byte s i n (by omega)

theorem beginTake_beside : besideImages (beginTake i n s) = besideImages (takenAt i n .taken s) := rfl

variable {s i n} {u mid : State} {areas : List Area} {may : List Notice}

theorem noticesKept_of (notice : u.win.notice = s.win.notice) : noticesKept may s u := fun n => by
  have same : noticeSet u n = noticeSet s n := by rw [noticeSet, notice, noticeSet]
  exact ⟨fun set => same.trans set, fun _ => same⟩

theorem ramKept_more {more : List Area} (kept : ramKept areas s u) (sub : areas ⊆ more) : ramKept more s u :=
  fun a outside => kept a fun r mem => outside r (sub mem)

theorem ramKept_trans {t : State} (first : ramKept areas s t) (second : ramKept areas t u) : ramKept areas s u :=
  fun a outside => (second a outside).trans (first a outside)

theorem noticesKept_more {more : List Notice} (kept : noticesKept may s u) (sub : may ⊆ more) : noticesKept more s u :=
  fun n => ⟨(kept n).1, fun other => (kept n).2 fun mem => other (sub mem)⟩

theorem noticesKept_trans {t : State} (first : noticesKept may s t) (second : noticesKept may t u) :
    noticesKept may s u :=
  fun n => ⟨fun set => (second n).1 ((first n).1 set), fun other => ((second n).2 other).trans ((first n).2 other)⟩

theorem finishSlot_kept (result : Result) (detail : Byte) (n : Fin 8) (u : State) :
    ramKept [(slotBase n + 3, 2)] u (finishSlot n result detail u) := fun a outside => by
  have apart := outside (slotBase n + 3, 2) (by simp)
  dsimp only at apart
  change (Mem.write (Mem.write u.win.ram (slotBase n + 3) result.code) (slotBase n + 4) detail).read a = _
  rw [Mem.read_write_ne _ _ _ _ (by omega), Mem.read_write_ne _ _ _ _ (by omega)]
  rfl

/-- The completion of a slot whose effects are those of `mid`. -/
theorem slotCompletes_of (result : Result) (detail : Byte)
    (same : besideImages u = besideImages (takenAt i n .taken mid)) (wf : s.win.ram.wf → u.win.ram.wf)
    (ram : ramKept ((slotBase n + 3, 2) :: areas) s u) (notices : noticesKept (.slotDone :: may) s u) :
    slotCompletes s (finishSlot n result detail u) mid i n result.code detail areas may := by
  refine ⟨?_, fun w => finishSlot_bytes n result detail u (wf w), ?_, ?_, ?_⟩
  · have slots := congrArg (fun x : State => { x with
      win := { x.win with slots := x.win.slots.set n.val .done n.isLt } }) same
    refine Eq.trans slots ?_
    simp only [besideImages, takenAt, Vector.set_set]
  · rw [finishSlot_notice]
    simp
  · exact ramKept_trans ram (ramKept_more (finishSlot_kept result detail n u) (by simp))
  · refine noticesKept_trans notices fun m => ?_
    rw [finishSlot_notice]
    refine ⟨fun set => by simp [set], fun other => ?_⟩
    have apart : Notice.slotDone ≠ m := fun e => other (by simp [← e])
    simp [apart]

/-- A request that is refused, or that changes nothing. -/
theorem slotCompletes_begin (s : State) (i : Nat) (n : Fin 8) (result : Result) (detail : Byte) :
    slotCompletes s (finishSlot n result detail (beginTake i n s)) s i n result.code detail [] [] :=
  slotCompletes_of result detail rfl (beginTake_wf s i n) (beginTake_kept s i n) (noticesKept_of rfl)

/-- A request that stays in flight, whose effects are those of `mid`. -/
theorem slotInFlight_of (k : Operation) (same : besideImages u = besideImages (takenAt i n .taken mid))
    (bytes : s.win.ram.wf → slotByte u n 3 = 0xFF ∧ slotByte u n 4 = 0)
    (ram : ramKept ((slotBase n + 3, 2) :: areas) s u) (notices : noticesKept may s u) :
    slotInFlight s (setWindowOp k (.slot n) u) mid i n k areas may :=
  ⟨congrArg (setWindowOp k (.slot n)) same, bytes, ram, notices⟩

theorem slotInFlight_begin (k : Operation) (same : besideImages u = besideImages (takenAt i n .taken mid))
    (win : u.win = (beginTake i n s).win) : slotInFlight s (setWindowOp k (.slot n) u) mid i n k [] [] := by
  refine slotInFlight_of k same (fun wf => ?_) (fun a outside => ?_) (noticesKept_of (by rw [win]; rfl))
  · rw [slotByte, slotByte, ramRead, ramRead, win]
    exact beginTake_result s i n wf
  · rw [ramRead, win]
    exact beginTake_kept s i n a outside

end Slot

/-! ## The take of a request on the link -/

section Link

variable {s u mid : State} {r : Request} {code : Byte} {areas : List Area} {may : List Notice}

/-- The link after a request has left its buffer. -/
def linkBegun (s : State) : WorkshopLink :=
  let l : WorkshopLink := { s.link with request := none }
  if l.kind = .fetch then l else { l with hold := none }

theorem beginService_eq (r : Request) (s : State) : beginService r s = { s with
    time := { s.time with now := linkTakeInstant r.acceptedAt s.time.now }, link := linkBegun s } := rfl

theorem linkBegun_reply (s : State) : besideReply (linkBegun s) = besideReply { s.link with request := none } := by
  unfold linkBegun
  dsimp only
  split <;> rfl

theorem param_head {ps : List Byte} {b : Byte} (head : ps[0]? = some b) : param ps 0 = b := by
  rw [param, List.getD_eq_getElem?_getD, head]
  rfl

/-- A request of the right length, with a session or without the need of one, is served. -/
theorem linkTake_served (request : s.link.request = some r) (names : r.payload[0]? = some code)
    (session : s.link.session = true ∨ code = 1 ∨ code = 4) (length : r.payload.length = serviceLength code)
    (body : Request → State → State) : linkTake code body s = body r (beginService r s) := by
  have head := param_head names
  have open_ : ¬ ((!(beginService r s).link.session) = true ∧ code ≠ 1 ∧ code ≠ 4) := by
    rintro ⟨closed, notOne, notFour⟩
    obtain open_ | one | four := session
    · simp [open_] at closed
    · exact notOne one
    · exact notFour four
  simp only [linkTake, request, head, if_true, serve, if_neg open_, length, ne_eq, not_true, if_false]

theorem linkTake_noSession (request : s.link.request = some r) (names : r.payload[0]? = some code)
    (closed : s.link.session = false) (notOne : code ≠ 1) (notFour : code ≠ 4) (body : Request → State → State) :
    linkTake code body s = answer r .noSession [] (beginService r s) := by
  have head := param_head names
  have refused : (!(beginService r s).link.session) = true ∧ code ≠ 1 ∧ code ≠ 4 := ⟨by simp [closed], notOne, notFour⟩
  simp only [linkTake, request, head, if_true, serve, if_pos refused]

theorem linkTake_length (request : s.link.request = some r) (names : r.payload[0]? = some code)
    (session : s.link.session = true ∨ code = 1 ∨ code = 4) (length : r.payload.length ≠ serviceLength code)
    (body : Request → State → State) : linkTake code body s = answer r .badParameter [] (beginService r s) := by
  have head := param_head names
  have open_ : ¬ ((!(beginService r s).link.session) = true ∧ code ≠ 1 ∧ code ≠ 4) := by
    rintro ⟨closed, notOne, notFour⟩
    obtain open_ | one | four := session
    · simp [open_] at closed
    · exact notOne one
    · exact notFour four
  simp only [linkTake, request, head, if_true, serve, if_neg open_, length, ne_eq, not_false_eq_true]

theorem linkTake_requested (h : requested s r code (serviceLength code)) (body : Request → State → State) :
    linkTake code body s = body r (beginService r s) := by
  obtain ⟨request, names, length, session⟩ := h
  exact linkTake_served request names (.inl session) length body

/-- A reply other than WAITING ends a hold. -/
theorem setReply_hold {x : Reply} (done : x.isWaiting = false) (u : State) : (setReply x u).link.hold = none := by
  unfold setReply
  dsimp only
  rw [done, Bool.not_false, Bool.and_true]
  split
  next => rfl
  next idle => simpa using Bool.eq_false_iff.mpr idle

theorem setReply_beside (x : Reply) (u : State) :
    { setReply x u with link := besideReply (setReply x u).link } = { u with link := besideReply u.link } := by
  unfold setReply
  dsimp only
  split <;> rfl

/-- A reply whose effects are those of `mid`. -/
theorem linkServes_of (reply : Reply) (rest : besideImages { u with time := mid.time, link := mid.link } = besideImages mid)
    (time : u.time = { mid.time with now := linkTakeInstant r.acceptedAt mid.time.now })
    (link : besideReply u.link = besideReply { mid.link with request := none })
    (ram : ramKept areas s u) (notices : noticesKept may s u) :
    linkServes s (setReply reply u) mid r reply areas may := by
  have win : (setReply reply u).win = u.win := by simp
  refine ⟨?_, setReply_reply reply u, fun a outside => ?_, fun n => ?_⟩
  · rw [setReply_beside]
    refine (congrArg (fun x : State => { x with time := u.time, link := besideReply u.link }) rest).trans ?_
    rw [time, link]
    rfl
  · rw [ramRead, win]
    exact ram a outside
  · have same : noticeSet (setReply reply u) n = noticeSet u n := by rw [noticeSet, win, noticeSet]
    rw [same]
    exact notices n

theorem linkAnswers_of (result : Result) (data : List Byte) (names : r.payload[0]? = some code)
    (rest : besideImages { u with time := mid.time, link := mid.link } = besideImages mid)
    (time : u.time = { mid.time with now := linkTakeInstant r.acceptedAt mid.time.now })
    (link : besideReply u.link = besideReply { mid.link with request := none })
    (ram : ramKept areas s u) (notices : noticesKept may s u) :
    linkAnswers s (answer r result data u) mid r code result.code data areas may := by
  unfold answer
  rw [param_head names]
  exact ⟨linkServes_of _ rest time link ram notices, setReply_hold rfl u⟩

/-- A request that changes nothing but the link is answered. -/
theorem linkAnswers_begin (result : Result) (data : List Byte) (names : r.payload[0]? = some code) :
    linkAnswers s (answer r result data (beginService r s)) s r code result.code data [] [] :=
  linkAnswers_of result data names rfl rfl (linkBegun_reply s) (fun _ _ => rfl) (noticesKept_of rfl)

/-- An answer alone shows in no image. -/
theorem answer_quiet (result : Result) (data : List Byte) : QuietWrite s (answer r result data (beginService r s)) :=
  ⟨by simp, by simp, by simp, by simp, by simp, outputBytes_congr (by simp), by simp [supervisionFallback]⟩

end Link

/-! ## Kinds and services without an effect -/

theorem serviceKnown_iff (code : Byte) : serviceKnown code = false ↔ code = 0 ∨ 21 ≤ code.toNat := by
  have zero : code = 0 ↔ code.toNat = 0 := by
    rw [← BitVec.toNat_inj]
    rfl
  simp only [serviceKnown, Bool.and_eq_false_iff, decide_eq_false_iff_not, zero]
  omega

/-- A service whose command has only an answer as its effect: published or not, the images stay. -/
def AnswersAlone (c : Instr) (code : Byte) (body : Request → State → State) : Prop :=
  ∀ (s : State) (r : Request) (result : Result), linkTake code body s = answer r result [] (beginService r s) →
    exec c s = .next (answer r result [] (beginService r s))

section Alone

variable {c : Instr} {code : Byte} {body : Request → State → State}

theorem alone_taken (run : ∀ s, exec c s = .next (linkTake code body s)) : AnswersAlone c code body :=
  fun s _ _ taken => (run s).trans (congrArg _ taken)

theorem alone_published (run : ∀ s, exec c s = .next (publish s (linkTake code body s))) : AnswersAlone c code body :=
  fun s r result taken => by rw [run, taken, (answer_quiet result []).publish]

theorem alone_settled (run : ∀ s, exec c s = .next
    (settle (sourceValid s.pulse != sourceValid (linkTake code body s).pulse) s (linkTake code body s))) :
    AnswersAlone c code body := fun s r result taken => by
  have same : sourceValid (answer r result [] (beginService r s)).pulse = sourceValid s.pulse := by simp
  rw [run, taken, same, bne_self_eq_false, settle, if_neg (by simp), (answer_quiet result []).publish]

end Alone

/-- Each service's command takes the request of its code, and an answer alone is all that it then does. -/
theorem service_exec {c : Instr} {code : Byte} {length : Nat} (names : service c = some (code, length)) :
    serviceLength code = length ∧ ∃ body, AnswersAlone c code body := by
  cases c
  case clearFaults side =>
    cases side <;> simp [service, reader] at names
    obtain ⟨rfl, rfl⟩ := names
    exact ⟨rfl, _, alone_published fun _ => rfl⟩
  case presetOdometer side =>
    cases side <;> simp [service, reader] at names
    obtain ⟨rfl, rfl⟩ := names
    exact ⟨rfl, _, alone_taken fun _ => rfl⟩
  case outputTest side =>
    cases side <;> simp [service, reader] at names
    obtain ⟨rfl, rfl⟩ := names
    exact ⟨rfl, _, alone_published fun _ => rfl⟩
  case outputTestStop side =>
    cases side <;> simp [service, reader] at names
    obtain ⟨rfl, rfl⟩ := names
    exact ⟨rfl, _, alone_published fun _ => rfl⟩
  all_goals simp [service, reader] at names
  all_goals obtain ⟨rfl, rfl⟩ := names
  case writeKFactor => exact ⟨rfl, _, alone_settled fun _ => rfl⟩
  case closeSession => exact ⟨rfl, _, alone_published fun _ => rfl⟩
  case giveClaim => exact ⟨rfl, _, alone_published fun _ => rfl⟩
  all_goals exact ⟨rfl, _, alone_taken fun _ => rfl⟩

/-- Settles O37: the kinds and codes that name nothing, and the two checks before each service. -/
theorem unknownKindAnswers : Obligations.UnknownKindAnswers := by
  intro s
  refine ⟨fun i n kind due names => ⟨_, ?_, slotCompletes_begin s i n .unknownKind 0⟩, fun r code request head names =>
    ⟨_, ?_, linkAnswers_begin .unknownKind [] head⟩, fun c r code length names request head =>
    ⟨fun closed notOne notFour => ?_, fun session other => ?_⟩⟩
  · have own : (decide (kind = 0) || decide (9 ≤ kind.toNat)) = true := by simpa using names
    have taken := slotTake_due due (mine := fun b => decide (b = 0) || decide (9 ≤ b.toNat)) own
      (fun n s => finishSlot n .unknownKind 0 s)
    exact congrArg Host.Outcome.next taken
  · have unknown := (serviceKnown_iff code).mpr names
    change Host.Outcome.next (linkTakeUnknown s) = _
    simp only [linkTakeUnknown, request, param_head head, unknown, Bool.false_eq_true, if_false]
  · obtain ⟨-, body, alone⟩ := service_exec names
    exact ⟨_, alone s r .noSession (linkTake_noSession request head closed notOne notFour body),
      linkAnswers_begin .noSession [] head⟩
  · obtain ⟨rfl, body, alone⟩ := service_exec names
    exact ⟨_, alone s r .badParameter (linkTake_length request head session other body),
      linkAnswers_begin .badParameter [] head⟩

/-! ## The reading services -/

theorem reader_service {c : Instr} {code : Byte} {length : Nat} {read : Request → State → Result ⊕ List Byte}
    (names : reader c = some (code, length, read)) : serviceLength code = length ∧
      ∀ s, exec c s = .next (linkTake code (fun r => answerRead (read r) r) s) := by
  cases c <;> simp [reader] at names
  all_goals
    obtain ⟨rfl, rfl, rfl⟩ := names
    exact ⟨rfl, fun _ => rfl⟩

/-- A reading does not read the clock or the buffers. -/
theorem reader_read {c : Instr} {code : Byte} {length : Nat} {read : Request → State → Result ⊕ List Byte}
    (names : reader c = some (code, length, read)) (r : Request) (s : State) : read r (beginService r s) = read r s := by
  have session : (beginService r s).link.session = s.link.session := by simp
  cases c <;> simp [reader] at names
  case readIdent =>
    obtain ⟨-, -, rfl⟩ := names
    simp only [identData, session]
    rfl
  all_goals
    obtain ⟨-, -, rfl⟩ := names
    rfl

theorem reader_alone {c : Instr} {code : Byte} {length : Nat} {read : Request → State → Result ⊕ List Byte}
    (names : reader c = some (code, length, read)) : service c = some (code, length) := by
  cases c <;> simp [reader] at names
  all_goals
    obtain ⟨rfl, rfl, -⟩ := names
    rfl

/-- Settles O34: a reading served, and the checks before it. -/
theorem readingServicesAnswer : Obligations.ReadingServicesAnswer := by
  intro c code length read names s r
  obtain ⟨rfl, run⟩ := reader_service names
  have alone := (service_exec (reader_alone names)).2
  obtain ⟨body, alone⟩ := alone
  refine ⟨fun asked => ?_, fun request head closed notFour => ?_, fun request head session other => ?_,
    fun request payload four => ?_⟩
  · have taken := asked
    obtain ⟨-, head, -, -⟩ := taken
    have served := (run s).trans (congrArg _ (linkTake_requested asked _))
    refine ⟨_, served, ?_⟩
    simp only [answerRead, reader_read names]
    cases read r s with
    | inl e => exact linkAnswers_begin e [] head
    | inr data => exact linkAnswers_begin .ok data head
  · by_cases one : code = 1
    · subst one
      cases c <;> simp [reader] at names
    · exact ⟨_, alone s r .noSession (linkTake_noSession request head closed one notFour body),
        linkAnswers_begin .noSession [] head⟩
  · exact ⟨_, alone s r .badParameter (linkTake_length request head (session.imp id .inr) other body),
      linkAnswers_begin .badParameter [] head⟩
  · subst four
    have head : r.payload[0]? = some 4 := by rw [payload]; rfl
    have served := (run s).trans (congrArg _ (linkTake_served request head (.inr (.inr rfl)) (by rw [payload]; rfl) _))
    refine ⟨_, served, ?_⟩
    have ident : read = fun _ s => .inr (identData s) := by
      cases c <;> simp [reader] at names
      exact names.2.symm
    simp only [answerRead, reader_read names]
    rw [ident]
    exact linkAnswers_begin .ok (identData s) head

end Sys2Proof.Proofs

/-! The requests of either side that check in order: trips, the preset, the output test, the claims; and the session. -/

namespace Sys2Proof.Proofs

open Sys2Proof Sys2Proof.Machine Sys2Proof.Safety

/-- Settles O32: the mark close and the hold timer's expiry by the hold. -/
theorem markCloseAndHoldExpiry : Obligations.MarkCloseAndHoldExpiry := by
  intro s l
  refine ⟨fun free => ?_, fun held => ?_, fun idle => ?_, fun due => ⟨?_, fun tag k waiting => ?_⟩⟩
  · have none : s.link.hold.isSome = false := by rw [show s.link.hold = Option.none from free]; rfl
    exact congrArg Host.Outcome.next (if_neg (by simp [none]))
  · exact congrArg Host.Outcome.next (if_pos (Option.isSome_iff_ne_none.mpr held))
  · exact congrArg Host.Outcome.next (if_neg (Bool.eq_false_iff.mp idle))
  · exact congrArg Host.Outcome.next (if_pos due)
  · rw [waiting]
    simp [fetchOf, fetchChars, xorAll]

/-! ## Bytes as numbers -/

theorem byte_eq_iff (b : Byte) {k : Nat} (small : k < 256) : b = BitVec.ofNat 8 k ↔ b.toNat = k := by
  rw [← BitVec.toNat_inj, BitVec.toNat_ofNat, Nat.mod_eq_of_lt (by omega)]

/-! ## Publication after a take -/

section Published

variable {s u mid b : State} {i : Nat} {n : Fin 8} {k : Operation} {result detail code data' : Byte}
  {areas : List Area} {may : List Notice} {r : Request} {reply : Reply} {data : List Byte}

theorem slotCompletes_publish (h : slotCompletes s u mid i n result detail areas may)
    (ram : ramKept ((slotBase n + 3, 2) :: areas) u (publish b u))
    (notices : noticesKept (.slotDone :: may) u (publish b u)) :
    slotCompletes s (publish b u) mid i n result detail areas may := by
  obtain ⟨same, bytes, done, kept, set⟩ := h
  refine ⟨(publishAll_besideImages false false).trans same, fun wf => ?_, (notices _).1 done, ramKept_trans kept ram,
    noticesKept_trans set notices⟩
  rw [publish, publishAll_slotByte _ _ _ _ _ (by omega), publishAll_slotByte _ _ _ _ _ (by omega)]
  exact bytes wf

theorem slotInFlight_publish (h : slotInFlight s u mid i n k areas may)
    (ram : ramKept ((slotBase n + 3, 2) :: areas) u (publish b u)) (notices : noticesKept may u (publish b u)) :
    slotInFlight s (publish b u) mid i n k areas may := by
  obtain ⟨same, bytes, kept, set⟩ := h
  refine ⟨(publishAll_besideImages false false).trans same, fun wf => ?_, ramKept_trans kept ram,
    noticesKept_trans set notices⟩
  rw [publish, publishAll_slotByte _ _ _ _ _ (by omega), publishAll_slotByte _ _ _ _ _ (by omega)]
  exact bytes wf

theorem linkServes_publish (h : linkServes s u mid r reply areas may) (ram : ramKept areas u (publish b u))
    (notices : noticesKept may u (publish b u)) : linkServes s (publish b u) mid r reply areas may := by
  obtain ⟨same, is, kept, set⟩ := h
  have link : (publish b u).link = u.link := by simp
  refine ⟨?_, by rw [link, is], ramKept_trans kept ram, noticesKept_trans set notices⟩
  rw [link]
  refine Eq.trans ?_ same
  exact congrArg (fun x : State => { x with link := besideReply u.link }) (publishAll_besideImages false false)

theorem linkAnswers_publish (h : linkAnswers s u mid r code result data areas may)
    (ram : ramKept areas u (publish b u)) (notices : noticesKept may u (publish b u)) :
    linkAnswers s (publish b u) mid r code result data areas may :=
  ⟨linkServes_publish h.1 ram notices, by rw [show (publish b u).link = u.link by simp]; exact h.2⟩

end Published

/-! ## TRIP_CONTROL -/

/-- What an action's code makes of a trip (R42). -/
def tripActed (c : Nat) (x : Trip) : Trip :=
  if c = 1 then { value := x.value, running := true }
  else if c = 2 then { value := x.value, running := false }
  else if c = 3 then { value := 0, running := x.running }
  else if c = 4 then { value := 0, running := true }
  else x

theorem tripActionOfCode_none {c : Byte} (big : 4 < c.toNat) : tripActionOfCode c = none := by
  have apart : ∀ k : Nat, k ≤ 4 → c ≠ BitVec.ofNat 8 k := fun k small e =>
    absurd ((byte_eq_iff c (by omega)).mp e) (by omega)
  exact (if_neg (apart 0 (by omega))).trans ((if_neg (apart 1 (by omega))).trans ((if_neg (apart 2 (by omega))).trans
    ((if_neg (apart 3 (by omega))).trans (if_neg (apart 4 (by omega))))))

theorem tripActionOfCode_some {c : Byte} (small : c.toNat ≤ 4) :
    ∃ x, tripActionOfCode c = some x ∧ ∀ t : Trip, x.apply t = tripActed c.toNat t := by
  have code : c = BitVec.ofNat 8 c.toNat := (byte_eq_iff c (by omega)).mpr rfl
  generalize c.toNat = k at small code
  subst code
  interval_cases k
  exacts [⟨.none, rfl, fun _ => rfl⟩, ⟨.run, rfl, fun _ => rfl⟩, ⟨.stop, rfl, fun _ => rfl⟩,
    ⟨.reset, rfl, fun _ => rfl⟩, ⟨.resetAndRun, rfl, fun _ => rfl⟩]

/-- A trip control changes the two trips and enqueues those that changed. -/
theorem takeTrips_eq (x y : TripAction) (s : State) : takeTrips x y s =
    let jobs := if x.apply s.dist.tripA = s.dist.tripA then s.store.queue else addJob s.store.queue .tripA
    { s with
      dist := { s.dist with tripA := x.apply s.dist.tripA, tripB := y.apply s.dist.tripB }
      store := { s.store with
        queue := if y.apply s.dist.tripB = s.dist.tripB then jobs else addJob jobs .tripB } } := by
  unfold takeTrips tripJobs
  simp only [setDist, enqueue_store, eq_comm (a := s.dist.tripA), eq_comm (a := s.dist.tripB)]
  split <;> split <;> rfl

/-- Settles O40: the actions of the two trips by their codes. -/
theorem tripControlActs : Obligations.TripControlActs := by
  intro s i n due
  have run : exec .tripControl s = .next (serveSlot .test n (tripOperation (slotByte s n 6) (slotByte s n 7)
      (beginTake i n s))) := by
    rw [← beginTake_byte s i n (k := 6) (by omega), ← beginTake_byte s i n (k := 7) (by omega)]
    exact congrArg Host.Outcome.next (windowRequest_due due .test
      fun n s => tripOperation (slotByte s n 6) (slotByte s n 7) s)
  refine ⟨_, run, ?_⟩
  intro a b act jobs
  refine ⟨fun bad => ?_, fun smallA smallB => ?_⟩
  · have refused : tripOperation (slotByte s n 6) (slotByte s n 7) (beginTake i n s) =
        .done .badParameter 0 (beginTake i n s) := by
      unfold tripOperation
      obtain big | big := bad
      · rw [tripActionOfCode_none big]
      · rw [tripActionOfCode_none big]
        cases tripActionOfCode (slotByte s n 6) <;> rfl
    rw [refused]
    exact slotCompletes_begin s i n .badParameter 0
  · obtain ⟨x, codeA, actA⟩ := tripActionOfCode_some smallA
    obtain ⟨y, codeB, actB⟩ := tripActionOfCode_some smallB
    have done : tripOperation (slotByte s n 6) (slotByte s n 7) (beginTake i n s) =
        .done .ok 0 (takeTrips x y (beginTake i n s)) := by
      simp only [tripOperation, codeA, codeB]
    have acted : ∀ t c, act c t = tripActed c t := fun _ _ => rfl
    rw [done]
    simp only [jobs, acted, ← actA, ← actB, a, b]
    refine slotCompletes_of .ok 0 ?_ ?_ ?_ ?_
    · rw [takeTrips_eq]
      rfl
    · rw [takeTrips_eq]
      exact beginTake_wf s i n
    · rw [takeTrips_eq]
      exact beginTake_kept s i n
    · rw [takeTrips_eq]
      exact noticesKept_of rfl

/-! ## PRESET_ODOMETER -/

section Preset

variable {s : State} {side : Side}

/-- The result of the first check of a preset that fails (R51). -/
def presetRefusal (s : State) (v : Option Nat) (h : Holder) : Option Byte :=
  match v with
  | none => some 4
  | some v =>
    if v < s.dist.live then some 4
    else if s.win.claims.odometer ≠ h then some 2
    else if s.pulse.motion ≠ .standstill then some 3
    else if s.dist.preset ≠ none then some 5
    else none

theorem not_holdsClaim (k : Claim) : (!holdsClaim s side k) = true ↔ s.win.claims.holder k ≠ sideHolder side := by
  rw [holdsClaim, Bool.not_eq_true', decide_eq_false_iff_not]

theorem holdsClaim_odometer : (!holdsClaim s side .odometer) = true ↔ s.win.claims.odometer ≠ sideHolder side :=
  not_holdsClaim .odometer

theorem presetCheck_refused {w : BitVec 40} {e : Byte} (h : presetRefusal s (bcdValue w) (sideHolder side) = some e) :
    ∃ x : Result, presetCheck side w s = .inr x ∧ x.code = e := by
  unfold presetRefusal at h
  unfold presetCheck
  cases value : bcdValue w with
  | none =>
    simp only [value, Option.some.injEq] at h
    exact ⟨.badParameter, rfl, h⟩
  | some v =>
    simp only [value] at h
    simp only [holdsClaim_odometer, Option.isSome_iff_ne_none]
    split_ifs at h ⊢ <;> simp only [Option.some.injEq] at h
    exacts [⟨.badParameter, rfl, h⟩, ⟨.notClaimed, rfl, h⟩, ⟨.wrongState, rfl, h⟩, ⟨.busy, rfl, h⟩]

theorem presetCheck_passed {w : BitVec 40} {d : Nat} (value : bcdValue w = some d)
    (h : presetRefusal s (bcdValue w) (sideHolder side) = none) : presetCheck side w s = .inl d := by
  unfold presetRefusal at h
  unfold presetCheck
  simp only [value] at h ⊢
  simp only [holdsClaim_odometer, Option.isSome_iff_ne_none]
  split_ifs at h ⊢
  rfl

theorem takePreset_eq (side : Side) (v : Nat) (s : State) : takePreset side v s = { s with
    dist := { s.dist with live := v, lost := false, ticks := 0, preset := some { side := side, started := false } }
    store := { s.store with queue := addJob s.store.queue .ring } } := by
  rw [takePreset, enqueue_store]
  rfl

/-- Settles O42: the checks of R51, and the preset of either side. -/
theorem presetOdometerIsTaken : Obligations.PresetOdometerIsTaken := by
  intro s taken refused
  have same : ∀ v h, refused v h = presetRefusal s v h := fun v h => by cases v <;> rfl
  simp only [same]
  refine ⟨fun i n due => ?_, fun r asked => ?_⟩
  · have run : exec (.presetOdometer .window) s = .next (serveSlot .preset n (presetOperation .window
        (slotParams s n 5) (beginTake i n s))) := by
      rw [← beginTake_params s i n]
      exact congrArg Host.Outcome.next (windowRequest_due due .preset
        fun n s => presetOperation .window (slotParams s n 5) s)
    have refusal : ∀ v h, presetRefusal (beginTake i n s) v h = presetRefusal s v h := fun _ _ => rfl
    refine ⟨_, run, fun e refuse => ?_, fun d value pass => ?_⟩
    · obtain ⟨x, check, rfl⟩ := presetCheck_refused (s := beginTake i n s) (side := .window) refuse
      simp only [presetOperation, check]
      exact slotCompletes_begin s i n x 0
    · simp only [presetOperation, presetCheck_passed (s := beginTake i n s) (side := .window) value pass]
      refine slotInFlight_begin .preset ?_ ?_
      · rw [takePreset_eq]
        rfl
      · rw [takePreset_eq]
  · have head := asked.2.1
    have run : exec (.presetOdometer .workshop) s = .next (serveLink .preset r (presetOperation .workshop
        (r.payload.drop 1) (beginService r s))) :=
      congrArg Host.Outcome.next (linkTake_requested (code := 17) asked _)
    refine ⟨_, run, fun e refuse => ?_, fun d value pass => ?_⟩
    · obtain ⟨x, check, rfl⟩ := presetCheck_refused (s := beginService r s) (side := .workshop) refuse
      simp only [presetOperation, check]
      exact linkAnswers_begin x [] head
    · simp only [presetOperation, presetCheck_passed (s := beginService r s) (side := .workshop) value pass]
      rw [takePreset_eq]
      exact linkServes_of _ rfl rfl (linkBegun_reply s) (fun _ _ => rfl) (noticesKept_of rfl)

end Preset

end Sys2Proof.Proofs

/-! The start of an output test of either side. -/

namespace Sys2Proof.Proofs

open Sys2Proof Sys2Proof.Machine Sys2Proof.Safety

/-! ## OUTPUT_TEST -/

section Test

variable {s : State} {side : Side} {pattern seconds : Byte}

theorem stopUnack_eq_true (s : State) : stopUnack s = true ↔
    ∃ w : Fin 48, s.warn.warnings[w].state = .activeUnack ∧ (warningDef s.image w).cls = .stop := by
  simp [stopUnack]

theorem testConditions_iff (s : State) : (!testConditions s) = true ↔
    ignitionOn s = false ∨ s.pulse.motion ≠ .standstill ∨ roleActive s .parkingBrake = false ∨
      ∃ w : Fin 48, s.warn.warnings[w].state = .activeUnack ∧ (warningDef s.image w).cls = .stop := by
  rw [← stopUnack_eq_true]
  simp only [testConditions, Bool.not_eq_true', Bool.and_eq_false_iff, decide_eq_false_iff_not, Bool.not_eq_false',
    or_assoc, ne_eq]

theorem patternOfCode_none (big : 3 < pattern.toNat) : patternOfCode pattern = none := by
  have apart : ∀ k : Nat, k ≤ 3 → pattern ≠ BitVec.ofNat 8 k := fun k small e =>
    absurd ((byte_eq_iff pattern (by omega)).mp e) (by omega)
  exact (if_neg (apart 0 (by omega))).trans ((if_neg (apart 1 (by omega))).trans ((if_neg (apart 2 (by omega))).trans
    (if_neg (apart 3 (by omega)))))

theorem patternOfCode_some (small : pattern.toNat ≤ 3) : ∃ p, patternOfCode pattern = some p ∧ p.code = pattern.toNat := by
  have code : pattern = BitVec.ofNat 8 pattern.toNat := (byte_eq_iff pattern (by omega)).mpr rfl
  generalize pattern.toNat = k at small code
  subst code
  interval_cases k
  exacts [⟨.lampWalk, rfl, rfl⟩, ⟨.allLamps, rfl, rfl⟩, ⟨.buzzer, rfl, rfl⟩, ⟨.gaugeSweep, rfl, rfl⟩]

/-- The result of the first check of a test that fails (R117). -/
def testRefusal (s : State) (pattern seconds : Byte) (h : Holder) : Option Byte :=
  if 3 < pattern.toNat ∨ seconds = 0 ∨ 60 < seconds.toNat then some 4
  else if s.win.claims.outputs ≠ h then some 2
  else if ignitionOn s = false ∨ s.pulse.motion ≠ .standstill ∨ roleActive s .parkingBrake = false ∨
    (∃ w : Fin 48, s.warn.warnings[w].state = .activeUnack ∧ (warningDef s.image w).cls = .stop) then some 3
  else if s.out.test ≠ none then some 5
  else none

theorem within_seconds : (!within 1 60 seconds.toNat) = true ↔ seconds = 0 ∨ 60 < seconds.toNat := by
  rw [show seconds = 0 ↔ seconds.toNat = 0 from byte_eq_iff seconds (k := 0) (by omega)]
  simp only [within, Bool.not_eq_true', Bool.and_eq_false_iff, decide_eq_false_iff_not]
  omega

/-- The checks of a test as one chain. -/
theorem testOperation_eq (p : Pattern) (named : patternOfCode pattern = some p) :
    testOperation side pattern seconds s =
      if seconds = 0 ∨ 60 < seconds.toNat then .done .badParameter 0 s
      else if s.win.claims.outputs ≠ sideHolder side then .done .notClaimed 0 s
      else if ignitionOn s = false ∨ s.pulse.motion ≠ .standstill ∨ roleActive s .parkingBrake = false ∨
        (∃ w : Fin 48, s.warn.warnings[w].state = .activeUnack ∧ (warningDef s.image w).cls = .stop) then
        .done .wrongState 0 s
      else if s.out.test ≠ none then .done .busy 0 s
      else .inFlight (startTest side p seconds.toNat s) := by
  unfold testOperation
  simp only [named, within_seconds, not_holdsClaim, testConditions_iff, Option.isSome_iff_ne_none]
  rfl

theorem testOperation_refused {e : Byte} (h : testRefusal s pattern seconds (sideHolder side) = some e) :
    ∃ x : Result, testOperation side pattern seconds s = .done x 0 s ∧ x.code = e := by
  unfold testRefusal at h
  by_cases big : 3 < pattern.toNat
  · rw [if_pos (.inl big)] at h
    refine ⟨.badParameter, ?_, Option.some.inj h⟩
    unfold testOperation
    rw [patternOfCode_none big]
  · obtain ⟨p, named, -⟩ := patternOfCode_some (Nat.le_of_not_lt big)
    rw [testOperation_eq p named]
    simp only [big, false_or] at h
    split_ifs at h ⊢ <;> simp only [Option.some.injEq] at h
    exacts [⟨.badParameter, rfl, h⟩, ⟨.notClaimed, rfl, h⟩, ⟨.wrongState, rfl, h⟩, ⟨.busy, rfl, h⟩]

theorem testOperation_passed (h : testRefusal s pattern seconds (sideHolder side) = none) :
    ∃ p, p.code = pattern.toNat ∧
      testOperation side pattern seconds s = .inFlight (startTest side p seconds.toNat s) := by
  unfold testRefusal at h
  by_cases big : 3 < pattern.toNat
  · rw [if_pos (.inl big)] at h
    cases h
  · obtain ⟨p, named, code⟩ := patternOfCode_some (Nat.le_of_not_lt big)
    refine ⟨p, code, ?_⟩
    rw [testOperation_eq p named]
    simp only [big, false_or] at h
    split_ifs at h ⊢
    rfl

/-- The test that a start puts in force (R118). -/
def startedTest (side : Side) (p : Pattern) (seconds now : Nat) : OutputTest :=
  { side := side, pattern := p, duration := { left := 100 * seconds, since := now }
    startedAt := now, cycles := 0, step := 0, buzzOn := true
    half := if p = .lampWalk ∨ p = .buzzer then some { left := 50, since := now } else none }

theorem startTest_eq (p : Pattern) (k : Nat) (s : State) : startTest side p k s =
    setNotice .outputTest (computeLamps (setTest (some (startedTest side p k s.time.now)) s)) := by
  have duration : newTimer s.time.now (1000 * k) = { left := 100 * k, since := s.time.now } := by
    have := newTimer_tenths s.time.now (10 * k)
    rw [show 100 * (10 * k) = 1000 * k by ring, show 10 * (10 * k) = 100 * k by ring] at this
    exact this
  simp only [startTest, startedTest, duration]
  cases p <;> rfl

/-- A lamp that the pattern of a starting test includes. -/
theorem startTest_lamp (p : Pattern) (k : Nat) (s : State) {m : Fin 16} {a : Appearance}
    (tested : testAppearance (startedTest side p k s.time.now) m = some a) :
    (startTest side p k s).out.lamps[m].owner = .test ∧ (startTest side p k s).out.lamps[m].appearance = a := by
  have lamp := computeLamps_lamp (setTest (some (startedTest side p k s.time.now)) s) m
  rw [lampComputed_test (x := startedTest side p k s.time.now) rfl tested] at lamp
  have same : (startTest side p k s).out.lamps[m] =
      (computeLamps (setTest (some (startedTest side p k s.time.now)) s)).out.lamps[m] := by
    rw [startTest_eq]
    rfl
  rw [same, lamp]
  exact ⟨rfl, rfl⟩

/-- What the started test and its lamps are. -/
theorem startTest_out (p : Pattern) (k : Nat) (s : State) :
    (startTest side p k s).out.test = some (startedTest side p k s.time.now) ∧
    (p = .lampWalk → ∀ m : Fin 16, (startTest side p k s).out.lamps[m].owner = .test ∧
      (startTest side p k s).out.lamps[m].appearance = if m = 0 then .fast else .off) ∧
    (p = .allLamps → ∀ m : Fin 16, (startTest side p k s).out.lamps[m].owner = .test ∧
      (startTest side p k s).out.lamps[m].appearance = .on) := by
  refine ⟨by rw [startTest_eq]; rfl, ?_, ?_⟩
  · rintro rfl m
    refine startTest_lamp .lampWalk k s ?_
    simp [testAppearance, startedTest, eq_comm]
  · rintro rfl m
    exact startTest_lamp .allLamps k s rfl

/-- The start of a test from a take, with its image. -/
theorem outputUnit_eq {o w : OutputUnit} (arbiter : o.arbiter = w.arbiter) (result : o.lastResult = w.lastResult)
    (supervision : o.supervision = w.supervision) : o = { w with test := o.test, lamps := o.lamps } := by
  cases o; cases w; simp_all

theorem startTest_mid (p : Pattern) (k : Nat) (u : State) : besideImages (startTest side p k u) =
    besideImages { u with out := { u.out with
      test := (startTest side p k u).out.test, lamps := (startTest side p k u).out.lamps } } := by
  have out : (startTest side p k u).out = { u.out with
      test := (startTest side p k u).out.test, lamps := (startTest side p k u).out.lamps } := by
    exact outputUnit_eq (by simp) (by simp) (by simp)
  refine besideImages_eq ?_ ?_ ?_ ?_ ?_ ?_ ?_ out ?_ ?_ ?_ ?_ ?_ ?_ <;> simp

theorem startTest_notice (p : Pattern) (k : Nat) (u : State) (n : Notice) :
    noticeSet (startTest side p k u) n = (noticeSet u n || decide (.outputTest = n)) := by
  rw [startTest_eq, noticeSet_setNotice]
  rfl

theorem startTest_ram (p : Pattern) (k : Nat) (u : State) : (startTest side p k u).win.ram = u.win.ram := by
  rw [startTest_eq]
  rfl

/-- The publication at an event that shows in the output image alone. -/
theorem publish_outputKept {b u : State} (sense : b.sense = u.sense) (image : b.image = u.image)
    (door : b.door = u.door) (warn : b.warn = u.warn) (faults : b.faults = u.faults) :
    ramKept [outputArea] u (publish b u) ∧ noticesKept [] u (publish b u) := by
  rw [publish_onlyOutput sense image door warn faults]
  refine ⟨fun a outside => publishOutput_outside _ _ (by simpa [outputArea] using outside), fun n => ?_⟩
  rw [publishOutput_notice]
  exact ⟨id, fun _ => rfl⟩

theorem notices_same {u t : State} (kept : noticesKept [] u t) (n : Notice) : noticeSet t n = noticeSet u n :=
  (kept n).2 (by simp)

theorem finishSlot_quiet (i : Nat) (n : Fin 8) (x : Result) (d : Byte) (s : State) :
    QuietWrite s (finishSlot n x d (beginTake i n s)) :=
  ⟨by simp, by simp, by simp, by simp, by simp, outputBytes_congr (by simp), by simp [supervisionFallback]⟩

theorem startTest_ramKept (p : Pattern) (k : Nat) (u : State) : ramKept [] u (startTest side p k u) := fun a _ => by
  rw [ramRead, startTest_ram, ramRead]

theorem startTest_notices (p : Pattern) (k : Nat) (u : State) : noticesKept [.outputTest] u (startTest side p k u) :=
  fun n => by
    rw [startTest_notice]
    refine ⟨fun set => by simp [set], fun other => ?_⟩
    have apart : Notice.outputTest ≠ n := fun e => other (by simp [← e])
    simp [apart]

/-- What a started test shows, with its slot or its reply set aside. -/
theorem startTest_started {u t : State} (p : Pattern) (k : Nat) (out : t.out = (startTest side p k u).out)
    (notice : noticeSet t .outputTest = noticeSet (startTest side p k u) .outputTest) :
    t.out.test = some (startedTest side p k u.time.now) ∧
    (p = .lampWalk → ∀ m : Fin 16, t.out.lamps[m].owner = .test ∧
      t.out.lamps[m].appearance = if m = 0 then .fast else .off) ∧
    (p = .allLamps → ∀ m : Fin 16, t.out.lamps[m].owner = .test ∧ t.out.lamps[m].appearance = .on) ∧
    noticeSet t .outputTest = true := by
  obtain ⟨test, walk, all⟩ := startTest_out p k u (side := side)
  rw [out]
  refine ⟨test, walk, all, ?_⟩
  rw [notice, startTest_notice]
  simp

/-- Settles O44: the checks of R117, and the start of a test of either side. -/
theorem outputTestStarts : Obligations.OutputTestStarts := by
  intro s refused started
  refine ⟨fun i n due => ?_, fun r asked => ?_⟩
  · have run : exec (.outputTest .window) s = .next (publish s (serveSlot .test n (testOperation .window
        (slotByte s n 6) (slotByte s n 7) (beginTake i n s)))) := by
      rw [← beginTake_byte s i n (k := 6) (by omega), ← beginTake_byte s i n (k := 7) (by omega)]
      exact congrArg (fun x => Host.Outcome.next (publish s x)) (windowRequest_due due .test
        fun n s => testOperation .window (slotByte s n 6) (slotByte s n 7) s)
    refine ⟨_, run, fun e refuse => ?_, fun pass => ?_⟩
    · obtain ⟨x, check, rfl⟩ := testOperation_refused (s := beginTake i n s) (side := .window) refuse
      rw [check]
      rw [serveSlot, (finishSlot_quiet i n x 0 s).publish]
      exact slotCompletes_begin s i n x 0
    · obtain ⟨p, code, check⟩ := testOperation_passed (s := beginTake i n s) (side := .window) pass
      rw [check, serveSlot]
      have out : (publish s (setWindowOp .test (.slot n)
          (startTest .window p (slotByte s n 7).toNat (beginTake i n s)))).out =
          (startTest .window p (slotByte s n 7).toNat (beginTake i n s)).out := by simp
      obtain ⟨ram, notices⟩ := publish_outputKept (b := s)
        (u := setWindowOp .test (.slot n) (startTest .window p (slotByte s n 7).toNat (beginTake i n s)))
        (by simp) (by simp) (by simp) (by simp) (by simp)
      refine ⟨⟨p, code, startTest_started p _ out ?_⟩, slotInFlight_publish (slotInFlight_of .test ?_ ?_ ?_ ?_)
        (ramKept_more ram (by simp)) (noticesKept_more notices (by simp))⟩
      · exact notices_same notices _
      · rw [startTest_mid, out]
        rfl
      · intro wf
        rw [slotByte, slotByte, ramRead, ramRead, startTest_ram]
        exact beginTake_result s i n wf
      · exact ramKept_trans (ramKept_more (beginTake_kept s i n) (by simp))
          (ramKept_more (startTest_ramKept p _ _) (by simp))
      · exact noticesKept_trans (noticesKept_of rfl) (startTest_notices (side := .window) p (slotByte s n 7).toNat (beginTake i n s))
  · have head := asked.2.1
    have run : exec (.outputTest .workshop) s = .next (publish s (serveLink .test r (testOperation .workshop
        (param r.payload 1) (param r.payload 2) (beginService r s)))) :=
      congrArg (fun x => Host.Outcome.next (publish s x)) (linkTake_requested (code := 19) asked _)
    refine ⟨_, run, fun e refuse => ?_, fun pass => ?_⟩
    · obtain ⟨x, check, rfl⟩ := testOperation_refused (s := beginService r s) (side := .workshop) refuse
      rw [check, serveLink, (answer_quiet x []).publish]
      exact linkAnswers_begin x [] head
    · obtain ⟨p, code, check⟩ := testOperation_passed (s := beginService r s) (side := .workshop) pass
      rw [check, serveLink]
      have out : (publish s (setReply (.waiting r.tag (some .test))
          (startTest .workshop p (param r.payload 2).toNat (beginService r s)))).out =
          (startTest .workshop p (param r.payload 2).toNat (beginService r s)).out := by simp
      obtain ⟨ram, notices⟩ := publish_outputKept (b := s)
        (u := setReply (.waiting r.tag (some .test))
          (startTest .workshop p (param r.payload 2).toNat (beginService r s)))
        (by simp) (by simp) (by simp) (by simp) (by simp)
      refine ⟨⟨p, code, startTest_started p _ out ?_⟩, linkServes_publish (linkServes_of _ ?_ ?_ ?_ ?_ ?_)
        ram (noticesKept_more notices (by simp))⟩
      · refine (notices_same notices _).trans ?_
        simp [noticeSet]
      · refine (congrArg (fun x : State => { x with time := s.time, link := s.link })
          (startTest_mid p (param r.payload 2).toNat (beginService r s))).trans ?_
        rw [out]
        rfl
      · rw [startTest_eq]
        rfl
      · rw [startTest_eq]
        exact linkBegun_reply s
      · exact ramKept_trans (fun _ _ => rfl) (ramKept_more (startTest_ramKept p _ _) (by simp))
      · exact noticesKept_trans (noticesKept_of rfl) (startTest_notices (side := .workshop) p (param r.payload 2).toNat (beginService r s))

end Test

end Sys2Proof.Proofs

/-! The end of an output test at either side's request, the claims on the link, and the session. -/

namespace Sys2Proof.Proofs

open Sys2Proof Sys2Proof.Machine Sys2Proof.Safety

/-! ## OUTPUT_TEST_STOP -/

section Stop

variable {s : State} {side : Side}

theorem stopOperation_eq : stopOperation side s =
    if s.win.claims.outputs ≠ sideHolder side then .done .notClaimed 0 s
    else if s.out.test = none then .done .wrongState 0 s
    else .done .ok 0 (endTest (some .stopped) s) := by
  simp only [stopOperation, not_holdsClaim, Option.isNone_iff_eq_none]
  rfl

theorem finishSlot_other {n m : Fin 8} (apart : m ≠ n) (result : Result) (detail : Byte) (u : State) :
    (finishSlot n result detail u).win.slots[m] = u.win.slots[m] ∧
    slotByte (finishSlot n result detail u) m 3 = slotByte u m 3 ∧
    slotByte (finishSlot n result detail u) m 4 = slotByte u m 4 := by
  have kept := finishSlot_kept result detail n u
  have ne : m.val ≠ n.val := fun e => apart (Fin.ext e)
  refine ⟨?_, kept _ ?_, kept _ ?_⟩
  · rw [finishSlot_slots]
    simp [ne.symm]
  all_goals
    intro x mem
    obtain rfl := List.mem_singleton.mp mem
    simp only [slotBase]
    omega

/-- What the end of a test with STOPPED leaves (R121). -/
def testStopped (s t : State) : Prop :=
  t.out.test = none ∧ t.out.lastResult = .aborted .stopped ∧ noticeSet t .outputTest = true ∧
  t.out.arbiter = s.out.arbiter ∧ t.out.supervision = s.out.supervision ∧ t.sense = s.sense ∧
  t.pulse = s.pulse ∧ t.dist = s.dist ∧ t.analog = s.analog ∧ t.door = s.door ∧ t.warn = s.warn ∧
  t.faults = s.faults ∧ t.store = s.store ∧ t.image = s.image ∧ t.pending = s.pending ∧
  t.win.claims = s.win.claims ∧ t.link.session = s.link.session

theorem endTest_stopped {x : OutputTest} (run : s.out.test = some x) : testStopped s (endTest (some .stopped) s) := by
  have out := endTest_out (some .stopped) run
  have notice := endTest_notice (some .stopped) run
  refine ⟨?_, ?_, notice, ?_⟩
  · rw [out]
    simp [testDropped]
  · rw [out]
    simp [testDropped, endResult]
  · simp

/-- What the window's stop leaves, published. -/
theorem stopped_slot {x : OutputTest} {i : Nat} {n : Fin 8} (run : s.out.test = some x) :
    testStopped s (publish s (finishSlot n .ok 0 (endTest (some .stopped) (beginTake i n s)))) := by
  obtain ⟨test, result, notice, -⟩ := endTest_stopped (s := beginTake i n s) run
  refine ⟨by simpa using test, by simpa using result, ?_, by simp⟩
  rw [publish, publishAll_notice, finishSlot_notice, notice]
  simp

/-- What the link's stop leaves, published. -/
theorem stopped_link {x : OutputTest} {r : Request} (run : s.out.test = some x) :
    testStopped s (publish s (answer r .ok [] (endTest (some .stopped) (beginService r s)))) := by
  obtain ⟨test, result, notice, -⟩ := endTest_stopped (s := beginService r s) run
  refine ⟨by simpa using test, by simpa using result, ?_, by simp⟩
  rw [publish, publishAll_notice]
  have same : noticeSet (answer r .ok [] (endTest (some .stopped) (beginService r s))) .outputTest =
      noticeSet (endTest (some .stopped) (beginService r s)) .outputTest := by simp [noticeSet, answer]
  rw [same, notice]
  simp

theorem beginService_request (r : Request) (s : State) : (beginService r s).link.request = none := by
  rw [beginService_eq, linkBegun]
  dsimp only
  split <;> rfl

/-- Settles O45: the checks of R121, and the end of the test. -/
theorem outputTestStops : Obligations.OutputTestStops := by
  intro s ended
  refine ⟨fun i n due => ?_, fun r asked => ?_⟩
  · have run : exec (.outputTestStop .window) s = .next (publish s (serveSlot .test n
        (stopOperation .window (beginTake i n s)))) :=
      congrArg (fun x => Host.Outcome.next (publish s x)) (windowRequest_due due .test fun _ s => stopOperation .window s)
    refine ⟨_, run, ?_⟩
    have took : stopOperation .window (beginTake i n s) =
        if s.win.claims.outputs ≠ .window then .done .notClaimed 0 (beginTake i n s)
        else if s.out.test = none then .done .wrongState 0 (beginTake i n s)
        else .done .ok 0 (endTest (some .stopped) (beginTake i n s)) := stopOperation_eq
    by_cases unheld : s.win.claims.outputs ≠ .window
    · rw [if_pos unheld] at took ⊢
      rw [took, serveSlot, (finishSlot_quiet i n _ 0 s).publish]
      exact slotCompletes_begin s i n .notClaimed 0
    by_cases idle : s.out.test = none
    · rw [if_neg unheld, if_pos idle] at took ⊢
      rw [took, serveSlot, (finishSlot_quiet i n _ 0 s).publish]
      exact slotCompletes_begin s i n .wrongState 0
    obtain ⟨x, running⟩ := Option.ne_none_iff_exists'.mp idle
    rw [if_neg unheld, if_neg idle] at took ⊢
    rw [took, serveSlot]
    have wf : s.win.ram.wf → (endTest (some .stopped) (beginTake i n s)).win.ram.wf := fun wf =>
      (endTest_keeps _ .refl).ram (beginTake_wf s i n wf)
    refine ⟨stopped_slot running, ?_, ?_, fun w _ => ?_, fun y m test own slot apart w => ?_⟩
    · rw [publish_slots, finishSlot_slots]
      simp
    · rw [publish, publishAll_notice, finishSlot_notice]
      simp
    · rw [publish, publishAll_slotByte _ _ _ _ _ (by omega), publishAll_slotByte _ _ _ _ _ (by omega)]
      exact finishSlot_bytes n .ok 0 _ (wf w)
    · obtain ⟨done, result, detail⟩ := finishSlot_other apart .ok 0 (endTest (some .stopped) (beginTake i n s))
      have named := endTest_slot (some .stopped) (s := beginTake i n s) test own (n := m) slot
      rw [publish_slots, publish, publishAll_slotByte _ _ _ _ _ (by omega), publishAll_slotByte _ _ _ _ _ (by omega),
        done, result, detail, named, setWindowOp_slots, finishSlot_slots]
      exact ⟨by simp, finishSlot_bytes m (endedWith (some .stopped)) (endDetail (some .stopped)) _
        (testDropped_wf _ (beginTake_wf s i n w))⟩
  · have head := asked.2.1
    have run : exec (.outputTestStop .workshop) s = .next (publish s (serveLink .test r
        (stopOperation .workshop (beginService r s)))) :=
      congrArg (fun x => Host.Outcome.next (publish s x)) (linkTake_requested (code := 20) asked _)
    refine ⟨_, run, ?_⟩
    have took : stopOperation .workshop (beginService r s) =
        if s.win.claims.outputs ≠ .workshop then .done .notClaimed 0 (beginService r s)
        else if s.out.test = none then .done .wrongState 0 (beginService r s)
        else .done .ok 0 (endTest (some .stopped) (beginService r s)) := stopOperation_eq
    by_cases unheld : s.win.claims.outputs ≠ .workshop
    · rw [if_pos unheld] at took ⊢
      rw [took, serveLink, (answer_quiet _ []).publish]
      exact linkAnswers_begin .notClaimed [] head
    by_cases idle : s.out.test = none
    · rw [if_neg unheld, if_pos idle] at took ⊢
      rw [took, serveLink, (answer_quiet _ []).publish]
      exact linkAnswers_begin .wrongState [] head
    obtain ⟨x, running⟩ := Option.ne_none_iff_exists'.mp idle
    rw [if_neg unheld, if_neg idle] at took ⊢
    rw [took, serveLink]
    refine ⟨stopped_link running, ?_, ?_⟩
    · rw [show ∀ u, (publish s u).link = u.link by simp, answer, setReply_reply, param_head head]
      rfl
    · simp [answer, beginService_request]

end Stop

/-! ## The claims on the link -/

section Claims

variable {s : State} {r : Request} {k : Claim}

theorem claimOfNumber_claim (k : Claim) : claimOfNumber (claimNumber k) = some k := by
  cases k <;> rfl

theorem claimOfNumber_none {n : Nat} (big : 3 < n) : claimOfNumber n = none := by
  rw [claimOfNumber, if_neg (by omega), if_neg (by omega), if_neg (by omega), if_neg (by omega)]

theorem takeClaimService_claim (named : (param r.payload 1).toNat = claimNumber k) (s : State) :
    takeClaimService r s = match s.win.claims.holder k with
      | .free => answer r .ok [2] (setNotice .claimChanged (setClaim k .workshop s))
      | .workshop => answer r .ok [2] s
      | .window => answer r .busy [1] s := by
  simp only [takeClaimService, named, claimOfNumber_claim] <;> rfl

theorem giveClaimService_claim (named : (param r.payload 1).toNat = claimNumber k) (s : State) :
    giveClaimService r s = match s.win.claims.holder k with
      | .workshop => answer r .ok [0] (setNotice .claimChanged (releaseClaim .workshop k s))
      | .free => answer r .notClaimed [0] s
      | .window => answer r .notClaimed [1] s := by
  simp only [giveClaimService, named, claimOfNumber_claim]
  cases s.win.claims.holder k <;> rfl

/-- A claim changed at a take, its notice set, and the reply. -/
theorem linkAnswers_claim {code : Byte} (k : Claim) (h : Holder) (data : List Byte) (names : r.payload[0]? = some code) :
    linkAnswers s (answer r .ok data (setNotice .claimChanged (setClaim k h (beginService r s))))
      { s with win := { s.win with claims := s.win.claims.give k h } } r code 0 data [] [.claimChanged] := by
  refine linkAnswers_of .ok data names rfl rfl (linkBegun_reply s) (fun _ _ => rfl) fun n => ?_
  rw [noticeSet_setNotice, show noticeSet (setClaim k h (beginService r s)) n = noticeSet s n from rfl]
  refine ⟨fun set => by simp [set], fun other => ?_⟩
  have apart : Notice.claimChanged ≠ n := fun e => other (by simp [← e])
  simp [apart]

theorem answer_notice (result : Result) (data : List Byte) (u : State) (n : Notice) :
    noticeSet (answer r result data u) n = noticeSet u n := by
  simp [noticeSet, answer]

theorem claim_quiet (k : Claim) (h : Holder) (result : Result) (data : List Byte) :
    QuietWrite s (answer r result data (setNotice .claimChanged (setClaim k h (beginService r s)))) :=
  ⟨by simp [answer], by simp [answer], by simp [answer], by simp [answer], by simp [answer],
    outputBytes_congr (by simp [answer]), by simp [answer, supervisionFallback]⟩

/-- What a release of the workshop's claim leaves, a test of it ended or not. -/
theorem claimGiven (k : Claim) (head : r.payload[0]? = some 15) :
    let t := publish s (answer r .ok [0] (setNotice .claimChanged (releaseClaim .workshop k (beginService r s))))
    t.link.reply = .ready r.tag [15, 0, 0] ∧ noticeSet t .claimChanged = true ∧
    t.win.claims = s.win.claims.give k .free ∧ t.link.request = none := by
  intro t
  have link : t.link = (answer r .ok [0] (setNotice .claimChanged
      (releaseClaim .workshop k (beginService r s)))).link := by simp [t]
  refine ⟨?_, ?_, ?_, ?_⟩
  · rw [link, answer, setReply_reply, param_head head]
    rfl
  · rw [show t = publish s _ from rfl, publish, publishAll_notice, answer_notice, noticeSet_setNotice]
    simp
  · have claims : t.win.claims = (releaseClaim .workshop k (beginService r s)).win.claims := by simp [t, answer]
    rw [claims]
    unfold releaseClaim
    dsimp only
    split <;> simp [setClaim]
  · rw [link]
    simp [answer, beginService_request]

/-- Settles O36: the claims on the link by their holder. -/
theorem linkClaims : Obligations.LinkClaims := by
  refine ⟨fun s r c code names => ?_, fun s r k named => ⟨fun asked => ?_, fun asked => ?_⟩⟩
  · obtain ⟨rfl, rfl⟩ | ⟨rfl, rfl⟩ := names
    · refine ⟨fun asked big => ⟨_, ?_, linkAnswers_begin .badParameter [] asked.2.1⟩, fun request head session other => ?_⟩
      · have taken := linkTake_requested (code := 14) asked takeClaimService
        simp only [takeClaimService, claimOfNumber_none big] at taken
        exact congrArg Host.Outcome.next taken
      · exact ⟨_, congrArg Host.Outcome.next (linkTake_length request head (.inl session) other takeClaimService),
          linkAnswers_begin .badParameter [] head⟩
    · refine ⟨fun asked big => ⟨_, ?_, linkAnswers_begin .badParameter [] asked.2.1⟩, fun request head session other => ?_⟩
      · have taken := linkTake_requested (code := 15) asked giveClaimService
        simp only [giveClaimService, claimOfNumber_none big] at taken
        exact congrArg Host.Outcome.next ((congrArg (publish s) taken).trans (answer_quiet _ []).publish)
      · exact ⟨_, congrArg Host.Outcome.next ((congrArg (publish s)
          (linkTake_length request head (.inl session) other giveClaimService)).trans (answer_quiet _ []).publish),
          linkAnswers_begin .badParameter [] head⟩
  · have head := asked.2.1
    have run : exec .takeClaim s = .next (takeClaimService r (beginService r s)) :=
      congrArg Host.Outcome.next (linkTake_requested (code := 14) asked takeClaimService)
    rw [takeClaimService_claim named] at run
    refine ⟨_, run, ?_⟩
    rw [show (beginService r s).win.claims = s.win.claims from rfl]
    cases holder : s.win.claims.holder k with
    | free =>
      refine ⟨linkAnswers_claim k .workshop [2] head, ?_⟩
      rw [answer_notice, noticeSet_setNotice]
      simp
    | workshop => exact linkAnswers_begin .ok [2] head
    | window => exact linkAnswers_begin .busy [1] head
  · have head := asked.2.1
    have run : exec .giveClaim s = .next (publish s (giveClaimService r (beginService r s))) :=
      congrArg (fun x => Host.Outcome.next (publish s x)) (linkTake_requested (code := 15) asked giveClaimService)
    rw [giveClaimService_claim named, show (beginService r s).win.claims = s.win.claims from rfl] at run
    cases holder : s.win.claims.holder k with
    | free =>
      simp only [holder] at run
      refine ⟨_, run, ?_⟩
      rw [(answer_quiet .notClaimed [0]).publish]
      exact linkAnswers_begin .notClaimed [0] head
    | window =>
      simp only [holder] at run
      refine ⟨_, run, ?_⟩
      rw [(answer_quiet .notClaimed [1]).publish]
      exact linkAnswers_begin .notClaimed [1] head
    | workshop =>
      simp only [holder] at run
      obtain ⟨reply, notice, claims, request⟩ := claimGiven (s := s) k head
      refine ⟨_, run, reply, notice, claims, request, fun quiet => ?_, fun x outputs test own => ?_⟩
      · rw [claims, releaseClaim_quiet (s := beginService r s) quiet, (claim_quiet k .free .ok [0]).publish]
        exact linkAnswers_claim k .free [0] head
      · have running : (setClaim .outputs .free (beginService r s)).out.test = some x := test
        have out : (publish s (answer r .ok [0] (setNotice .claimChanged
            (releaseClaim .workshop k (beginService r s))))).out =
            (testDropped (some .claimReleased) (setClaim .outputs .free (beginService r s))).out := by
          rw [← endTest_out _ running, outputs, releaseClaim_ends (s := beginService r s) test own]
          simp [answer]
        rw [out]
        simp [testDropped, endResult]

end Claims

/-! ## The session -/

section Session

variable {s u : State} {r : Request}

theorem atClose_isWaiting (x : Reply) : x.atClose.isWaiting = false := by
  cases x <;> rfl

/-- A result for which no reply waits is dropped. -/
theorem deliverLink_unheard (k : Operation) (result : Result) (data : List Byte) (done : u.link.reply.isWaiting = false) :
    deliverLink k result data u = u := by
  unfold deliverLink
  split
  next tag k' waiting =>
    rw [waiting] at done
    cases done
  next => rfl

/-- The link emptied and its claims lost, before a test of the workshop ends (R157). -/
def linkEmptied (s : State) : State :=
  let s1 := setReply s.link.reply.atClose s
  loseClaims .workshop (setLink { s1.link with request := none, session := false, sessionTimer := none } s1)

theorem linkEmptied_link (s : State) : (linkEmptied s).link = { (setReply s.link.reply.atClose s).link with
    request := none, session := false, sessionTimer := none } := by
  unfold linkEmptied loseClaims
  dsimp only
  split <;> rfl

theorem testDropped_link (r : Option AbortReason) (s : State) : (testDropped r s).link = s.link := by
  simp [testDropped]

theorem testDropped_ram (r : Option AbortReason) (s : State) : (testDropped r s).win.ram = s.win.ram := by
  simp [testDropped]

theorem testDropped_notice (r : Option AbortReason) (s : State) (n : Notice) :
    noticeSet (testDropped r s) n = (noticeSet s n || decide (.outputTest = n)) := by
  rw [testDropped, noticeSet_setNotice]
  rfl

theorem setNotice_link (m : Notice) (s : State) : (setNotice m s).link = s.link := rfl

/-- The end of a workshop test at a close has no reply to fill. -/
theorem closeLink_eq (s : State) : closeLink s = setNotice .workshop
    (if ∃ x, s.out.test = some x ∧ x.side = .workshop then testDropped (some .sideGone) (linkEmptied s)
      else linkEmptied s) := by
  have test : (linkEmptied s).out.test = s.out.test := by simp [linkEmptied]
  have done : (linkEmptied s).link.reply.isWaiting = false := by
    rw [linkEmptied_link]
    exact (congrArg Reply.isWaiting (setReply_reply _ s)).trans (atClose_isWaiting _)
  have empty : closeLink s = setNotice .workshop (abortTestOf .workshop .sideGone (linkEmptied s)) := rfl
  rw [empty]
  generalize linkEmptied s = u at test done
  split_ifs with own
  · obtain ⟨x, run, side⟩ := own
    rw [abortTestOf_run (test.trans run) side, endTest_eq _ (test.trans run), side, deliver,
      deliverLink_unheard _ _ _ (by rw [testDropped_link]; exact done)]
  · rw [abortTestOf_idle fun x run side => own ⟨x, test.symm.trans run, side⟩]

theorem closeLink_link (s : State) : (closeLink s).link = { (setReply s.link.reply.atClose s).link with
    request := none, session := false, sessionTimer := none } := by
  rw [← linkEmptied_link, closeLink_eq, setNotice_link]
  split
  · rw [testDropped_link]
  · rfl

theorem linkEmptied_notice (s : State) (n : Notice) : noticeSet (linkEmptied s) n =
    (noticeSet s n || (decide (.claimChanged = n) && holdsAny s .workshop)) := by
  rw [linkEmptied, loseClaims_notice]
  have same : (setReply s.link.reply.atClose s).win = s.win := by simp
  simp only [noticeSet, holdsAny, setLink, same]

theorem closeLink_notice (s : State) (n : Notice) : noticeSet (closeLink s) n =
    (noticeSet s n || (decide (.claimChanged = n) && holdsAny s .workshop) ||
      (decide (.outputTest = n) && decide (∃ x, s.out.test = some x ∧ x.side = .workshop)) ||
      decide (.workshop = n)) := by
  rw [closeLink_eq, noticeSet_setNotice]
  split_ifs with own
  · rw [testDropped_notice, linkEmptied_notice, decide_eq_true own]
    simp
  · rw [linkEmptied_notice, decide_eq_false own]
    simp

theorem closeLink_ram (s : State) : (closeLink s).win.ram = s.win.ram := by
  have ram : (linkEmptied s).win.ram = s.win.ram := by
    unfold linkEmptied loseClaims
    dsimp only
    split <;> simp [setNotice, setLink, dropClaims]
  rw [closeLink_eq, show ∀ u, (setNotice .workshop u).win.ram = u.win.ram from fun _ => rfl]
  split
  · rw [testDropped_ram, ram]
  · exact ram

theorem closeLink_claims (s : State) (k : Claim) : (closeLink s).win.claims.holder k =
    if s.win.claims.holder k = .workshop then .free else s.win.claims.holder k := by
  simp [closeLink, loseClaims_holder, Holder.dropped]

theorem closeLink_slots (s : State) : (closeLink s).win.slots = s.win.slots ∧ (closeLink s).win.ops = s.win.ops := by
  have emptied : (linkEmptied s).win.slots = s.win.slots ∧ (linkEmptied s).win.ops = s.win.ops := by
    simp [linkEmptied]
  rw [closeLink_eq, show ∀ u, (setNotice .workshop u).win.slots = u.win.slots from fun _ => rfl,
    show ∀ u, (setNotice .workshop u).win.ops = u.win.ops from fun _ => rfl]
  split
  · rw [testDropped_slots, testDropped_ops]
    exact emptied
  · exact emptied

theorem closeLink_run {x : OutputTest} (run : s.out.test = some x) (own : x.side = .workshop) :
    (closeLink s).out.test = none ∧ (closeLink s).out.lastResult = .aborted .sideGone := by
  rw [closeLink_eq, if_pos ⟨x, run, own⟩]
  exact ⟨rfl, rfl⟩

theorem closeLink_out (other : ∀ x, s.out.test = some x → x.side ≠ .workshop) : (closeLink s).out = s.out := by
  have out : (linkEmptied s).out = s.out := by simp [linkEmptied]
  rw [closeLink_eq, if_neg fun ⟨x, run, own⟩ => other x run own]
  exact out

theorem closeLink_notices (s : State) : noticesKept [.claimChanged, .workshop, .outputTest] s (closeLink s) := fun n => by
  rw [closeLink_notice]
  refine ⟨fun set => by simp [set], fun others => ?_⟩
  have claim : Notice.claimChanged ≠ n := fun e => others (by simp [← e])
  have workshop : Notice.workshop ≠ n := fun e => others (by simp [← e])
  have test : Notice.outputTest ≠ n := fun e => others (by simp [← e])
  simp [claim, workshop, test]

/-- What a close of the session does, before its images. -/
theorem closeLink_closed (s : State) : sessionClosed s (closeLink s) := by
  have link := closeLink_link s
  have hold := setReply_hold (atClose_isWaiting s.link.reply) s
  have slots := closeLink_slots s
  refine ⟨by rw [link], by rw [link], by rw [link], by rw [link]; exact hold, closeLink_claims s, fun held => ?_,
    fun unheld => ?_, ?_, fun x run own => closeLink_run run own, fun x run own => closeLink_out fun y running => ?_,
    fun idle => closeLink_out fun y running => ?_, ?_⟩
  · rw [closeLink_notice, (holdsAny_iff s .workshop).mpr held]
    simp
  · have none : holdsAny s .workshop = false :=
      Bool.eq_false_iff.mpr fun any => (unheld _) ((holdsAny_iff s .workshop).mp any).choose_spec
    rw [closeLink_notice, none]
    simp
  · rw [closeLink_notice]
    simp
  · obtain rfl : x = y := Option.some.inj (run.symm.trans running)
    rw [own]
    exact Side.noConfusion
  · rw [idle] at running
    cases running
  · obtain ⟨same, ops⟩ := slots
    refine ⟨?_, ?_, ?_, ?_, ?_, ?_, ?_, ?_, ?_, ?_, same, ops, ?_, fun a _ => ?_, closeLink_notices s⟩
    iterate 11 simp
    rw [ramRead, closeLink_ram, ramRead]

/-- A close with its images, and with the reply that is answered after it. -/
theorem sessionClosed_shown {t : State} (closed : sessionClosed s u) (session : t.link.session = u.link.session)
    (timer : t.link.sessionTimer = u.link.sessionTimer) (request : t.link.request = u.link.request)
    (hold : t.link.hold = none) (same : besideImages { t with link := u.link, time := u.time } = besideImages u)
    (ram : ramKept [outputArea] u t) (notices : noticesKept [] u t) : sessionClosed s t := by
  obtain ⟨shut, unset, empty, -, holders, taken, untaken, workshop, own, other, idle, sense, pulse, dist, analog, door,
    warn, faults, store, image, pending, slots, ops, attention, area, kept⟩ := closed
  have out : t.out = u.out := by
    have := congrArg State.out same
    exact this
  have win : { t.win with ram := [], notice := 0 } = { u.win with ram := [], notice := 0 } := congrArg State.win same
  have claims : t.win.claims = u.win.claims := by
    have := congrArg WindowPort.claims win
    exact this
  have notice := notices_same notices
  refine ⟨session.trans shut, timer.trans unset, request.trans empty, hold, ?_, ?_, ?_, ?_, ?_, ?_, ?_,
    (congrArg State.sense same).trans sense, (congrArg State.pulse same).trans pulse, (congrArg State.dist same).trans dist,
    (congrArg State.analog same).trans analog, (congrArg State.door same).trans door, (congrArg State.warn same).trans warn,
    (congrArg State.faults same).trans faults, (congrArg State.store same).trans store,
    (congrArg State.image same).trans image, (congrArg State.pending same).trans pending,
    (congrArg WindowPort.slots win).trans slots, (congrArg WindowPort.ops win).trans ops,
    (congrArg WindowPort.attention win).trans attention, ramKept_trans area ram,
    noticesKept_trans kept (noticesKept_more notices (by simp))⟩
  all_goals simpa only [out, claims, notice]

theorem closeLink_published {t : State} (sense : t.sense = s.sense) (image : t.image = s.image) (door : t.door = s.door)
    (warn : t.warn = s.warn) (faults : t.faults = s.faults) (closed : sessionClosed s t) : sessionClosed s (publish s t) := by
  obtain ⟨ram, notices⟩ := publish_outputKept sense.symm image.symm door.symm warn.symm faults.symm
  have link : (publish s t).link = t.link := by simp
  have hold := closed.2.2.2.1
  exact sessionClosed_shown closed (by rw [link]) (by rw [link]) (by rw [link]) (by rw [link]; exact hold)
    ((congrArg (fun x : State => { x with link := t.link, time := t.time }) (publishAll_besideImages false false)))
    ram notices

/-- CLOSE_SESSION's own reply after the close. -/
theorem closeLink_answered (result : Result) (data : List Byte) (closed : sessionClosed s u) :
    sessionClosed s (answer r result data u) := by
  have win : (answer r result data u).win = u.win := by simp [answer]
  refine sessionClosed_shown closed (by simp [answer]) (by simp [answer]) (by simp [answer]) (setReply_hold rfl u) ?_
    (fun a _ => by rw [ramRead, win, ramRead]) (noticesKept_of (by rw [win]))
  refine besideImages_eq ?_ ?_ ?_ ?_ ?_ ?_ ?_ ?_ ?_ ?_ ?_ ?_ ?_ ?_ <;> simp [answer]

theorem openLink_eq (s : State) : openLink s = (if s.link.session then id else setNotice .workshop)
    { s with link := { s.link with session := true, sessionTimer := some { left := 500, since := s.time.now } } } := by
  have timer : sessionTimer s = some { left := 500, since := s.time.now } := by
    rw [sessionTimer, show newTimer s.time.now 5000 = { left := 500, since := s.time.now } from newTimer_tenths _ 50]
  rw [openLink, timer]
  split <;> rfl

/-- Settles O33: the session's opening, and its close by the service or by the timer. -/
theorem sessionOpensAndCloses : Obligations.SessionOpensAndCloses := by
  intro s
  refine ⟨fun r request payload => ?_, fun r asked => ?_, fun due => ?_, fun idle => ?_⟩
  · have head : r.payload[0]? = some 1 := by rw [payload]; rfl
    have run : exec .openSession s = .next (answer r .ok [] (openLink (beginService r s))) :=
      congrArg Host.Outcome.next (linkTake_served request head (.inr (.inl rfl)) (by rw [payload]; rfl) _)
    have session : (beginService r s).link.session = s.link.session := by simp
    have link : (openLink (beginService r s)).link = { linkBegun s with
        session := true
        sessionTimer := some { left := 500, since := linkTakeInstant r.acceptedAt s.time.now } } := by
      rw [openLink_eq]
      split <;> rfl
    have others : ∀ n, noticeSet (openLink (beginService r s)) n =
        (noticeSet s n || (decide (.workshop = n) && !s.link.session)) := fun n => by
      rw [openLink_eq, session]
      cases s.link.session
      · rw [if_neg (by simp), noticeSet_setNotice]
        simp [noticeSet, beginService_eq]
      · simp [noticeSet, beginService_eq]
    refine ⟨_, run, linkAnswers_of .ok [] head ?_ ?_ ?_ (fun a _ => ?_) fun n => ?_, fun closed => ?_, fun opened => ?_⟩
    · rw [openLink_eq]
      split <;> rfl
    · rw [openLink_eq]
      split <;> rfl
    · rw [link]
      exact congrArg (fun l : WorkshopLink => { l with
        session := true
        sessionTimer := some { left := 500, since := linkTakeInstant r.acceptedAt s.time.now } }) (linkBegun_reply s)
    · rw [openLink_eq]
      split <;> rfl
    · rw [others]
      refine ⟨fun set => by simp [set], fun other => ?_⟩
      have apart : Notice.workshop ≠ n := fun e => other (by simp [← e])
      simp [apart]
    · rw [answer_notice, others, closed]
      simp
    · have win : (answer r .ok [] (openLink (beginService r s))).win = (openLink (beginService r s)).win := by
        simp [answer]
      rw [win, openLink_eq, session, opened]
      rfl
  · have head := asked.2.1
    have run : exec .closeSession s = .next (publish s (answer r .ok [] (closeLink (beginService r s)))) :=
      congrArg (fun x => Host.Outcome.next (publish s x)) (linkTake_requested (code := 2) asked _)
    have closed : sessionClosed s (closeLink (beginService r s)) := closeLink_closed (beginService r s)
    refine ⟨_, run, closeLink_published ?_ ?_ ?_ ?_ ?_ (closeLink_answered .ok [] closed), ?_⟩
    iterate 5 simp [answer]
    rw [show ∀ u, (publish s u).link = u.link by simp, answer, setReply_reply, param_head head]
    rfl
  · have run : exec .sessionTimerExpiry s = .next (publish s (closeLink s)) := by
      change Host.Outcome.next (publish s (sessionTimerEnd s)) = _
      rw [sessionTimerEnd, if_pos due]
    refine ⟨_, run, closeLink_published ?_ ?_ ?_ ?_ ?_ (closeLink_closed s), ?_⟩
    iterate 5 simp
    rw [show (publish s (closeLink s)).link = (closeLink s).link by simp, closeLink_link]
    exact setReply_reply _ s
  · change Host.Outcome.next (publish s (sessionTimerEnd s)) = _
    rw [sessionTimerEnd, if_neg (Bool.eq_false_iff.mp idle), publish_self]

end Session

end Sys2Proof.Proofs

/-! The start of jobs and of waiting pages. -/

namespace Sys2Proof.Proofs

open Sys2Proof Sys2Proof.Machine Sys2Proof.Safety

section Jobs

variable {s : State}

theorem supplyAllowsPage_iff (s : State) :
    supplyAllowsPage s = true ↔ ∃ v, s.analog.channels[5].y = some v ∧ 1600 ≤ v := by
  unfold supplyAllowsPage supplyHanded
  cases s.analog.channels[5].y with
  | none => simp
  | some v => exact decide_eq_true_iff.trans (by simp [Config.pageSupply])

theorem chooseJob_eq {q : List Object} {o : Object}
    (first : o = .ring ∧ Object.ring ∈ q ∨ Object.ring ∉ q ∧ q.head? = some o) : chooseJob q = some o := by
  obtain ⟨rfl, waits⟩ | ⟨none, oldest⟩ := first
  · rw [chooseJob, if_pos waits]
  · rw [chooseJob, if_neg none, oldest]

/-- Settles O28: the start of the job that the engine chooses, and of a waiting page. -/
theorem jobsAndPagesStart : Obligations.JobsAndPagesStart := by
  intro s allowed old begun counts slot configCount content learns
  have spoiled : ∀ c page, old.spoil c page = begun c page := fun c page => by cases c <;> rfl
  have supply : supplyAllowsPage s = true ↔ allowed := supplyAllowsPage_iff s
  have start : exec .jobStart s = .next (tryJob s) := rfl
  have page : exec .pageStart s = .next (tryPage s) := rfl
  refine ⟨fun o free enough first => ?_, fun blocked => ?_, fun j job waits enough => ?_, fun blocked => ?_⟩
  · have some : chooseJob s.store.queue = some o := chooseJob_eq first
    have waits : s.store.queue.isEmpty = false := by
      cases queue : s.store.queue with
      | nil => simp [queue] at first
      | cons => rfl
    have startable : jobStartable s = true := by
      simp [jobStartable, free, waits, supply.mpr enough]
    rw [start, tryJob, if_pos startable]
    simp only [some, startJob, beginPage, ← spoiled]
    cases o <;> rfl
  · have unable : ¬ jobStartable s = true := by
      intro startable
      simp only [jobStartable, Bool.and_eq_true, Option.isNone_iff_eq_none, Bool.not_eq_true',
        List.isEmpty_eq_false_iff] at startable
      obtain ⟨⟨free, waits⟩, enough⟩ := startable
      exact blocked.elim (· free) (·.elim waits (· (supply.mp enough)))
    rw [start, tryJob, if_neg unable]
  · rw [page, tryPage]
    simp only [job]
    rw [if_pos ⟨waits, supply.mpr enough⟩, beginPage, ← spoiled]
    rfl
  · rw [page, tryPage]
    split
    next j job =>
      rw [if_neg fun ⟨waits, enough⟩ => (blocked j job).elim (· waits) (· (supply.mp enough))]
    next => rfl

end Jobs

end Sys2Proof.Proofs

/-! The data of the readings, byte by byte. -/

namespace Sys2Proof.Proofs

open Sys2Proof Sys2Proof.Machine Sys2Proof.Safety

section Readings

variable {s : State}

theorem tripData_eq (x : Trip) : tripData x = bcdThree x.value ++ [octet (flag x.running)] := by
  rw [tripData, bcdTrip_eq, flag_bit, Nat.pow_zero, Nat.one_mul]
  rfl

theorem bcdFive_length (n : Nat) : (bcdFive n).length = 5 := rfl

theorem odometerData_eq (s : State) : odometerData s = bcdFive s.dist.live ++ (bcdFive s.dist.retained ++
    ([octet (flag s.dist.lost), if Object.ring ∈ s.store.notRetained then 1 else 0] ++
      ([s.dist.tripA, s.dist.tripB].map (fun x => bcdThree x.value ++ [octet (flag x.running)])).flatten ++
      [octet s.dist.ticks, octet s.dist.nextSlot.val] ++
      (s.dist.writeCounts.toList.map (fun n => (two n).reverse)).flatten)) := by
  have marked : byte (bit (decide (Object.ring ∈ s.store.notRetained)) 0) =
      if Object.ring ∈ s.store.notRetained then 1 else 0 := by
    by_cases mem : Object.ring ∈ s.store.notRetained <;> simp [mem, bit, byte]
  rw [odometerData, bcdOdometer_eq, bcdOdometer_eq, tripData_eq, tripData_eq, marked, flag_bit, Nat.pow_zero, Nat.one_mul]
  simp only [List.append_assoc, List.map_cons, List.map_nil, List.flatten_cons, List.flatten_nil, List.append_nil]
  rfl

theorem writeCounts_length (v : Vector Nat 8) : (v.toList.map (fun n => (two n).reverse)).flatten.length = 16 := by
  simp [List.length_flatten, two, Function.comp_def]

/-- READ_ODOMETER's data by their fields. -/
theorem odometerData_length (s : State) : (odometerData s).length = 38 := by
  rw [odometerData_eq]
  simp only [List.length_append, bcdFive_length, writeCounts_length]
  simp [bcdThree]

theorem channelData_eq (s : State) (c : Fin 6) : channelData s c =
    (two (s.analog.channels[c].mean.getD 0xFFFF)).reverse ++ (two (signed (shownNow s c))).reverse ++
    [octet (statusCode (statusNow s c)), octet (flag (decide (c.val < 5) && s.analog.channels[c].fault))] := by
  rw [channelData, shownValue_eq, shownStatus_eq, flag_bit, Nat.pow_zero, Nat.one_mul]
  rfl

theorem channelsData_eq (s : State) : channelsData s = ((List.finRange 6).map (fun c : Fin 6 =>
      (two (s.analog.channels[c].mean.getD 0xFFFF)).reverse ++ (two (signed (shownNow s c))).reverse ++
      [octet (statusCode (statusNow s c)),
        octet (flag (decide (c.val < 5) && s.analog.channels[c].fault))])).flatten ++
    [octet (flag s.analog.crankHold + 2 * flag s.analog.supplyLow)] ++ (two s.pulse.raw).reverse ++
    (two s.pulse.displayed).reverse ++
    [octet (speedCode s.pulse.status), octet (flag s.pulse.wireBroken + 2 * flag (!s.pulse.calValid)),
     octet (motionCode s.pulse.motion)] ++ (two s.pulse.rpm).reverse ++ [octet (flag s.pulse.running)] := by
  have channels : channelData s = _ := funext (channelData_eq s)
  rw [channelsData, channels]
  simp only [flag_bit, Nat.pow_zero, Nat.one_mul, Nat.pow_one]
  rfl

theorem entryData_eq (s : State) (w : Fin 48) : entryData s w =
    [octet w.val, (match (warningDef s.image w).cls with | .stop => 0 | .caution => 1 | .info => 2),
      (match s.warn.warnings[w].state with
        | .inactive => 0 | .pending => 1 | .activeUnack => 2 | .activeAck => 3 | .latched => 4)] ++
    (four ((s.warn.warnings[w].number).getD 0)).reverse ++
    (two (min (s.warn.warnings[w].age / 100) 65535)).reverse := by
  rw [entryData]
  cases (warningDef s.image w).cls <;> cases s.warn.warnings[w].state <;> rfl

theorem placeHead_eq (p : Place) : (placeBytes p).take 2 = (match p with
    | .free => [0, 0xFF]
    | .stored r => [recordHead r, octet r.code.val]
    | .erasing _ => [2, 0xFF]) := by
  rw [placeBytes_eq]
  cases p <;> rfl

theorem summaryData_eq (s : State) : summaryData s =
    [octet (recordCount s), octet s.faults.overflow, octet (flag s.faults.clear.isSome)] ++
      (s.faults.places.toList.map (fun p => match p with
        | .free => [0, 0xFF]
        | .stored r => [recordHead r, octet r.code.val]
        | .erasing _ => [2, 0xFF])).flatten := by
  have heads : (fun p => (placeBytes p).take 2) = _ := funext placeHead_eq
  rw [summaryData, heads, flag_bit, Nat.pow_zero, Nat.one_mul]
  rfl

/-- The link lays a place's fields in their order, each most significant byte first (R162). -/
theorem reverseFields_place (p : Place) : reverseFields placeFields (placeBytes p) = placeLaid List.reverse p := by
  rw [placeBytes_eq]
  cases p <;> rfl

theorem reverseFields_record (r : StopRecord) : reverseFields recordFields (recordBytes r) =
    (four r.sequence).reverse ++ (four r.openStamp.toNat).reverse ++ (four r.closeStamp.toNat).reverse ++
      bcdFive r.odometer ++ (two r.dwell).reverse ++ [octet r.mask.toNat, octet r.obstructions, r.flags] := by
  rw [recordBytes, bcdOdometer_eq]
  rfl

/-- Settles O35: each reading's data as its fields' bytes. -/
theorem readingDataBytes : Obligations.ReadingDataBytes := by
  intro s b two' four'
  refine ⟨?_, ?_, odometerData_length s, fun small => ?_, fun small => ?_, ?_, channelsData_eq s, ?_, ?_, fun index => ?_,
    summaryData_eq s, fun i => ?_, fun index past => ?_, fun r => ?_, ?_, fun index r at_ => ?_, fun index past => ?_⟩
  · rw [kFactorData, flag_bit, Nat.pow_zero, Nat.one_mul]
    cases s.pulse.calValid <;> rfl
  · rw [identData, flag_bit, Nat.pow_zero, Nat.one_mul]
    cases s.link.session <;> cases s.win.source <;> rfl
  · rw [odometerData_eq, List.take_left' (bcdFive_length _), ← bcdOdometer_eq]
    exact bcdValue_bcdOdometer small
  · rw [odometerData_eq, List.drop_left' (bcdFive_length _), List.take_left' (bcdFive_length _), ← bcdOdometer_eq]
    exact bcdValue_bcdOdometer small
  · rw [odometerData_eq, ← List.append_assoc, List.drop_left' (by rw [List.length_append]; rfl)]
  · rfl
  · rfl
  · refine ⟨fun inside => ?_, fun past nonempty => ?_⟩
    · rw [warningsData]
      rw [if_pos inside, show entryData s = _ from funext (entryData_eq s)]
      rfl
    · rw [warningsData]
      rw [if_neg (by omega)]
  · rw [faultData, dif_pos i.isLt, reverseFields_place]
    rfl
  · rw [faultData, dif_neg (by omega)]
  · rw [recordPage, placeBytes_eq]
  · rw [recordPage, placeBytes_eq]
  · simp only [journalData, at_, reverseFields_record]
    simp only [← List.append_assoc]
    rfl
  · simp only [journalData, List.getElem?_eq_none past]

end Readings

end Sys2Proof.Proofs

/-! The characters of the Workshop Link, clock by clock: request frames and fetch frames. -/

namespace Sys2Proof.Proofs

open Sys2Proof Sys2Proof.Machine Sys2Proof.Safety

section Characters

variable {l m : WorkshopLink} {s u : State}

theorem byteOfBits_bitsOfByte (b : Byte) : byteOfBits (bitsOfByte b) = b := by
  revert b
  decide

theorem clocks_nil : clocks [] s = s := rfl

theorem clocks_cons (x : Bool) (xs : List Bool) : clocks (x :: xs) s = clocks xs (clock x s) := rfl

theorem clocks_append (xs ys : List Bool) : clocks (xs ++ ys) s = clocks ys (clocks xs s) := List.foldl_append ..

/-- While WCK is held a clock reaches nothing (R152). -/
theorem clocks_held (held : s.link.hold ≠ none) (xs : List Bool) : clocks xs s = s := by
  induction xs with
  | nil => rfl
  | cons x xs ih =>
    have still : clock x s = s := if_pos (.inl (Option.isSome_iff_ne_none.mpr held))
    rw [clocks_cons, still, ih]

/-- A clock of a line that is not held, by the count that it reaches. -/
theorem clock_eq {n : Nat} (x : Bool) (free : l.hold = none) (frame : l.inFrame = true)
    (count : (if l.counter = 9 then 1 else l.counter + 1) = n) : clock x (setLink l s) =
      if n = 9 then takeAnswer x (setLink { l with counter := 9 } s)
      else if receiving l then
        if n = 8 then takeChar (byteOfBits (l.shift ++ [x])) (setLink { l with counter := n, shift := l.shift ++ [x] } s)
        else setLink { l with counter := n, shift := l.shift ++ [x] } s
      else setLink { l with counter := n } s := by
  have running : ¬ ((setLink l s).link.hold.isSome = true ∨ (!(setLink l s).link.inFrame) = true) := by
    simp [setLink, free, frame]
  unfold clock
  dsimp only
  rw [if_neg running, show (setLink l s).link = l from rfl, count]
  rfl

/-- A bit of a character received, before its last. -/
theorem clock_bit {n : Nat} (x : Bool) (free : l.hold = none) (frame : l.inFrame = true) (receives : l.kind ≠ .fetch)
    (count : (if l.counter = 9 then 1 else l.counter + 1) = n) (early : n < 8) :
    clock x (setLink l s) = setLink { l with counter := n, shift := l.shift ++ [x] } s := by
  have side : receiving l = true := decide_eq_true receives
  rw [clock_eq x free frame count, if_neg (by omega), if_pos side, if_neg (by omega)]

/-- The eighth bit completes a character. -/
theorem clock_last (x : Bool) (free : l.hold = none) (frame : l.inFrame = true) (receives : l.kind ≠ .fetch)
    (count : l.counter = 7) : clock x (setLink l s) =
      takeChar (byteOfBits (l.shift ++ [x])) (setLink { l with counter := 8, shift := l.shift ++ [x] } s) := by
  have side : receiving l = true := decide_eq_true receives
  rw [clock_eq (n := 8) x free frame (by simp [count]), if_neg (by decide), if_pos side, if_pos rfl]

/-- The ninth clock is the answer's. -/
theorem clock_answer (x : Bool) (free : l.hold = none) (frame : l.inFrame = true) (count : l.counter = 8) :
    clock x (setLink l s) = takeAnswer x (setLink { l with counter := 9 } s) := by
  rw [clock_eq (n := 9) x free frame (by simp [count]), if_pos rfl]

theorem clocks_bits (xs : List Bool) : ∀ l : WorkshopLink, l.hold = none → l.inFrame = true → l.kind ≠ .fetch →
    l.counter + xs.length < 8 → clocks xs (setLink l s) =
      setLink { l with counter := l.counter + xs.length, shift := l.shift ++ xs } s := by
  induction xs with
  | nil =>
    intro l _ _ _ _
    rw [List.append_nil]
    rfl
  | cons x xs ih =>
    intro l free frame receives early
    rw [List.length_cons] at early
    rw [clocks_cons, clock_bit (n := l.counter + 1) x free frame receives (if_neg (by omega)) (by omega),
      
      ih { l with counter := l.counter + 1, shift := l.shift ++ [x] } free frame receives (by simp only; omega)]
    simp only [List.append_assoc, List.singleton_append, List.length_cons, Nat.add_assoc, Nat.add_comm 1]

/-- A character that the tester sends reaches the part at its eighth clock. -/
theorem clocks_char (b : Byte) (free : l.hold = none) (frame : l.inFrame = true) (receives : l.kind ≠ .fetch)
    (start : l.counter = 0 ∨ l.counter = 9) (empty : l.shift = []) : clocks (bitsOfByte b) (setLink l s) =
      takeChar b (setLink { l with counter := 8, shift := bitsOfByte b } s) := by
  obtain ⟨x, xs, y, bits, six⟩ : ∃ x xs y, bitsOfByte b = x :: xs ++ [y] ∧ xs.length = 6 :=
    ⟨_, [b.getLsbD 6, b.getLsbD 5, b.getLsbD 4, b.getLsbD 3, b.getLsbD 2, b.getLsbD 1], _, rfl, rfl⟩
  have one : (if l.counter = 9 then 1 else l.counter + 1) = 1 := by
    obtain e | e := start <;> simp [e]
  have whole := byteOfBits_bitsOfByte b
  rw [bits] at whole ⊢
  have first := clock_bit (s := s) x free frame receives one (by decide)
  have middle := clocks_bits (s := s) xs { l with counter := 1, shift := l.shift ++ [x] } free frame receives
    (by simp only; omega)
  have last := clock_last (s := s) (l := { l with counter := 1 + xs.length, shift := l.shift ++ [x] ++ xs }) y free frame
    receives (by simp only; omega)
  dsimp only at middle last
  rw [clocks_append, clocks_cons x xs, first, middle, clocks_cons y [], last, clocks_nil, empty]
  simp only [List.nil_append, List.singleton_append]
  rw [whole]

/-- The nine clocks of a character, where its answer begins no hold. -/
theorem sentChar_kept (b : Byte) (free : l.hold = none) (frame : l.inFrame = true) (receives : l.kind ≠ .fetch)
    (start : l.counter = 0 ∨ l.counter = 9) (empty : l.shift = [])
    (taken : takeChar b (setLink { l with counter := 8, shift := bitsOfByte b } s) = setLink m u)
    (free' : m.hold = none) (frame' : m.inFrame = true) (count : m.counter = 8) (bits : m.shift = bitsOfByte b) :
    clocks (sentChar b) (setLink l s) = holdAfter (setLink { m with counter := 9, shift := [] } u) := by
  rw [sentChar, clocks_append, clocks_char b free frame receives start empty, taken, clocks_cons, clocks_nil,
    clock_answer true free' frame' count, takeAnswer]
  rw [if_neg (by rintro ⟨-, none⟩; simp [setLink, bits, bitsOfByte, List.range_succ] at none)]
  rfl

/-- A character after whose answer no hold begins. -/
theorem sentChar_free (b : Byte) (free : l.hold = none) (frame : l.inFrame = true) (receives : l.kind ≠ .fetch)
    (start : l.counter = 0 ∨ l.counter = 9) (empty : l.shift = [])
    (taken : takeChar b (setLink { l with counter := 8, shift := bitsOfByte b } s) = setLink m u)
    (free' : m.hold = none) (frame' : m.inFrame = true) (count : m.counter = 8) (bits : m.shift = bitsOfByte b)
    (next : m.holdNext = false) : clocks (sentChar b) (setLink l s) = setLink { m with counter := 9, shift := [] } u := by
  rw [sentChar_kept b free frame receives start empty taken free' frame' count bits, holdAfter]
  exact if_neg (Bool.eq_false_iff.mp next)

end Characters

/-! ## Request frames -/

section Requests

variable {l : WorkshopLink} {s : State} {head b : Byte} {progress payload : List Byte}

/-- A request frame after some of its characters, all answered low. -/
def requestLink (l : WorkshopLink) (progress : List Byte) : WorkshopLink :=
  { l.opened with counter := 9, kind := .request, progress := progress }

/-- A frame that the part has refused. -/
def refusedLink (l : WorkshopLink) (progress : List Byte) : WorkshopLink :=
  { l.opened with counter := 9, kind := .ignored, progress := progress, answer := true }

theorem head_request (free : l.hold = none) (buffer : l.request = none) (request : head.msb = false) :
    clocks (sentChar head) (setLink l.opened s) = setLink (requestLink l [head]) s := by
  refine (sentChar_free (l := l.opened) (s := s) (u := s) (m := { l.opened with counter := 8, shift := bitsOfByte head, kind := .request, progress := [head] }) head free rfl (by simp [WorkshopLink.opened]) (.inl rfl) rfl ?_ free rfl rfl rfl rfl).trans rfl
  change takeHead head _ = _
  unfold takeHead
  simp [setLink, WorkshopLink.opened, request, buffer]

theorem head_refused (free : l.hold = none) (full : l.request ≠ none) (request : head.msb = false) :
    clocks (sentChar head) (setLink l.opened s) = setLink (refusedLink l []) s := by
  refine (sentChar_free (l := l.opened) (s := s) (u := s) (m := { l.opened with counter := 8, shift := bitsOfByte head, kind := .ignored, answer := true }) head free rfl (by simp [WorkshopLink.opened]) (.inl rfl) rfl ?_ free rfl rfl rfl rfl).trans rfl
  change takeHead head _ = _
  unfold takeHead
  simp [setLink, WorkshopLink.opened, request, Option.isSome_iff_ne_none.mpr full, refuseFrame]

/-- A character of a request frame that is taken in. -/
theorem char_kept (free : l.hold = none)
    (taken : takeRequestChar b (setLink { requestLink l progress with counter := 8, shift := bitsOfByte b } s) =
      setLink { requestLink l (progress ++ [b]) with counter := 8, shift := bitsOfByte b } s) :
    clocks (sentChar b) (setLink (requestLink l progress) s) = setLink (requestLink l (progress ++ [b])) s :=
  (sentChar_free (l := requestLink l progress) (s := s) (u := s) (m := { requestLink l (progress ++ [b]) with counter := 8, shift := bitsOfByte b }) b free rfl
    (by simp [requestLink]) (.inr rfl) rfl taken free rfl rfl rfl rfl).trans rfl

/-- A character of a request frame at which it is refused. -/
theorem char_refused (free : l.hold = none)
    (taken : takeRequestChar b (setLink { requestLink l progress with counter := 8, shift := bitsOfByte b } s) =
      setLink { refusedLink l progress with counter := 8, shift := bitsOfByte b } s) :
    clocks (sentChar b) (setLink (requestLink l progress) s) = setLink (refusedLink l progress) s :=
  (sentChar_free (l := requestLink l progress) (s := s) (u := s)
    (m := { refusedLink l progress with counter := 8, shift := bitsOfByte b }) b free rfl (by simp [requestLink]) (.inr rfl) rfl taken free rfl rfl rfl rfl).trans rfl

theorem length_kept (free : l.hold = none) (nonzero : b ≠ 0) (small : b.toNat ≤ 48) :
    clocks (sentChar b) (setLink (requestLink l [head]) s) = setLink (requestLink l [head, b]) s := by
  refine char_kept free ?_
  simp only [takeRequestChar, setLink, requestLink]
  rw [if_neg (by rintro (e | e); exacts [nonzero e, absurd e (Nat.not_lt.mpr small)])]
  rfl

theorem length_refused (free : l.hold = none) (bad : b = 0 ∨ 48 < b.toNat) :
    clocks (sentChar b) (setLink (requestLink l [head]) s) = setLink (refusedLink l [head]) s := by
  refine char_refused free ?_
  simp only [takeRequestChar, setLink, requestLink]
  rw [if_pos bad]
  rfl

theorem payload_kept (free : l.hold = none) {length : Byte} {done : List Byte} (early : done.length < length.toNat) :
    clocks (sentChar b) (setLink (requestLink l (head :: length :: done)) s) =
      setLink (requestLink l (head :: length :: (done ++ [b]))) s := by
  refine char_kept (progress := head :: length :: done) free ?_
  simp only [takeRequestChar, setLink, requestLink]
  rw [if_pos early]
  rfl

theorem check_refused (free : l.hold = none) {length : Byte} (whole : payload.length = length.toNat)
    (bad : b ≠ xorAll (head :: length :: payload)) :
    clocks (sentChar b) (setLink (requestLink l (head :: length :: payload)) s) =
      setLink (refusedLink l (head :: length :: payload)) s := by
  refine char_refused free ?_
  simp [takeRequestChar, setLink, requestLink, refusedLink, refuseFrame, whole, bad]

theorem clocks_payload (free : l.hold = none) {length : Byte} : ∀ payload done : List Byte,
    done.length + payload.length ≤ length.toNat →
    clocks (payload.map sentChar).flatten (setLink (requestLink l (head :: length :: done)) s) =
      setLink (requestLink l (head :: length :: (done ++ payload))) s := by
  intro payload
  induction payload with
  | nil =>
    intro done _
    rw [List.append_nil]
    rfl
  | cons b rest ih =>
    intro done fits
    rw [List.length_cons] at fits
    rw [List.map_cons, List.flatten_cons, clocks_append, payload_kept free (by omega),
      ih (done ++ [b]) (by rw [List.length_append, List.length_singleton]; omega), List.append_assoc]
    rfl

theorem clocks_ignored (free : l.hold = none) (rest : List Byte) :
    clocks (rest.map sentChar).flatten (setLink (refusedLink l progress) s) = setLink (refusedLink l progress) s := by
  induction rest with
  | nil => rfl
  | cons b rest ih =>
    have ignored : clocks (sentChar b) (setLink (refusedLink l progress) s) = setLink (refusedLink l progress) s :=
      (sentChar_free (l := refusedLink l progress) (s := s) (u := s)
        (m := { refusedLink l progress with counter := 8, shift := bitsOfByte b }) b free rfl (by simp [refusedLink]) (.inr rfl) rfl rfl free rfl rfl rfl rfl).trans rfl
    rw [List.map_cons, List.flatten_cons, clocks_append, ignored, ih]

/-- The link after an accepted request (R153), WCK held from its last answer on (R152). -/
def acceptedLink (l : WorkshopLink) (head : Byte) (payload progress : List Byte) (now : Nat) : WorkshopLink :=
  { requestLink l progress with
    request := some { tag := head.setWidth 7, payload := payload, acceptedAt := now }
    reply := .waiting (head.setWidth 7) none
    sessionTimer := if l.session then some { left := 500, since := now } else l.sessionTimer
    hold := some { left := 2, since := now } }

theorem check_accepted (free : l.hold = none) {length : Byte} (whole : payload.length = length.toNat) :
    clocks (sentChar (xorAll (head :: length :: payload))) (setLink (requestLink l (head :: length :: payload)) s) =
      setLink (acceptedLink l head payload (head :: length :: payload ++ [xorAll (head :: length :: payload)])
        s.time.now) s := by
  generalize check : xorAll (head :: length :: payload) = b
  have timer : newTimer s.time.now 5000 = { left := 500, since := s.time.now } := newTimer_tenths _ 50
  have hold : newTimer s.time.now 20 = { left := 2, since := s.time.now } := rfl
  refine (sentChar_kept (l := requestLink l (head :: length :: payload)) (s := s) (u := s)
    (m := { acceptedLink l head payload (head :: length :: payload ++ [b]) s.time.now with
      counter := 8, shift := bitsOfByte b, hold := none, holdNext := true })
    b free rfl (by simp [requestLink]) (.inr rfl) rfl ?_ rfl rfl rfl rfl).trans ?_
  · simp [takeChar, takeRequestChar, setLink, requestLink, acceptedLink, acceptRequest, whole, check, sessionTimer, timer,
      WorkshopLink.opened, free]
  · simp [holdAfter, setLink, acceptedLink, requestLink, hold, WorkshopLink.opened]

theorem requestClocks_opens (free : s.link.hold = none) (chars : List Byte) :
    requestClocks true chars [] s = clocks (chars.map sentChar).flatten (setLink s.link.opened s) := by
  rw [requestClocks, List.append_nil, if_pos rfl, markOpen, if_neg (by simp [free])]

theorem clocks_chars (b : Byte) (rest : List Byte) : clocks ((b :: rest).map sentChar).flatten s =
    clocks (rest.map sentChar).flatten (clocks (sentChar b) s) := by
  rw [List.map_cons, List.flatten_cons, clocks_append]

theorem clocks_more (first rest : List Byte) : clocks ((first ++ rest).map sentChar).flatten s =
    clocks (rest.map sentChar).flatten (clocks (first.map sentChar).flatten s) := by
  rw [List.map_append, List.flatten_append, clocks_append]

/-- The head, the length and the payload of a request frame. -/
theorem clocks_body (free : s.link.hold = none) (buffer : s.link.request = none) (request : head.msb = false)
    (some : payload.length ≠ 0) (small : payload.length ≤ 48) (rest : List Byte) :
    clocks ((head :: BitVec.ofNat 8 payload.length :: payload ++ rest).map sentChar).flatten (setLink s.link.opened s) =
      clocks (rest.map sentChar).flatten (setLink (requestLink s.link (head :: BitVec.ofNat 8 payload.length :: payload)) s) := by
  have length : (BitVec.ofNat 8 payload.length).toNat = payload.length := by
    rw [BitVec.toNat_ofNat, Nat.mod_eq_of_lt (by omega)]
  have nonzero : BitVec.ofNat 8 payload.length ≠ (0 : Byte) := fun e => some (by
    rw [e] at length
    exact length.symm)
  rw [List.cons_append, List.cons_append, clocks_chars, head_request free buffer request, clocks_chars,
    length_kept free nonzero (by omega), clocks_more, clocks_payload free payload [] (by simp [length]), List.nil_append]

end Requests

/-! ## Fetch frames -/

section Fetches

variable {l : WorkshopLink} {s : State}

theorem fetchHead_msb (h : BitVec 7) : (h.setWidth 8 ||| 0x80 : Byte).msb = true := by
  rw [BitVec.msb_or, show (0x80 : Byte).msb = true from rfl, Bool.or_true]

/-- A fetch head while the reply is not WAITING: the part sends from the next clock on (R156). -/
theorem fetch_head {b : Byte} (free : l.hold = none) (fetches : b.msb = true) (ready : l.reply.isWaiting = false) :
    clocks (sentChar b) (setLink l.opened s) =
      setLink { l.opened with counter := 9, kind := .fetch, progress := [b], out := fetchOf l.reply } s := by
  refine (sentChar_kept (l := l.opened) (s := s) (u := s)
    (m := { l.opened with counter := 8, shift := bitsOfByte b, kind := .fetch, progress := [b], out := fetchOf l.reply })
    b free rfl (by simp [WorkshopLink.opened]) (.inl rfl) rfl ?_ free rfl rfl rfl).trans ?_
  · simp [takeChar, takeHead, setLink, WorkshopLink.opened, fetches, ready]
  · simp [holdAfter, setLink, WorkshopLink.opened]

/-- A fetch head while the reply is WAITING: WCK is held after it (R152). -/
theorem fetch_held {b : Byte} (free : l.hold = none) (fetches : b.msb = true) (waits : l.reply.isWaiting = true) :
    clocks (sentChar b) (setLink l.opened s) = setLink { l.opened with
      counter := 9, kind := .fetch, progress := [b], hold := some { left := 2, since := s.time.now } } s := by
  have hold : newTimer s.time.now 20 = { left := 2, since := s.time.now } := rfl
  refine (sentChar_kept (l := l.opened) (s := s) (u := s)
    (m := { l.opened with counter := 8, shift := bitsOfByte b, kind := .fetch, progress := [b], holdNext := true })
    b free rfl (by simp [WorkshopLink.opened]) (.inl rfl) rfl ?_ free rfl rfl rfl).trans ?_
  · simp [takeChar, takeHead, setLink, WorkshopLink.opened, fetches, waits]
  · simp [holdAfter, setLink, WorkshopLink.opened, waits, hold]

/-- While the part sends, its clocks only count. -/
theorem clocks_counts (xs : List Bool) : ∀ l : WorkshopLink, l.hold = none → l.inFrame = true → l.kind = .fetch →
    l.counter + xs.length ≤ 8 → clocks xs (setLink l s) = setLink { l with counter := l.counter + xs.length } s := by
  induction xs with
  | nil =>
    intro l _ _ _ _
    rfl
  | cons x xs ih =>
    intro l free frame sends early
    rw [List.length_cons] at early
    have side : ¬ receiving l = true := by simp [receiving, sends]
    rw [clocks_cons, clock_eq (n := l.counter + 1) x free frame (if_neg (by omega)), if_neg (by omega), if_neg side,
      ih { l with counter := l.counter + 1 } free frame sends (by simp only; omega)]
    simp only [List.length_cons, Nat.add_assoc, Nat.add_comm 1]

/-- A character that the part sends, with the tester's answer. -/
theorem readChar_answered (answer : Bool) (free : l.hold = none) (frame : l.inFrame = true) (sends : l.kind = .fetch)
    (count : l.counter = 9) (empty : l.shift = []) : clocks (readChar answer) (setLink l s) = setLink { l with
      reply := if l.out.delivers answer then l.reply.deliver else l.reply
      out := l.out.answered answer } s := by
  have side : ¬ receiving l = true := by simp [receiving, sends]
  have first := clock_eq (s := s) (n := 1) true free frame (by simp [count])
  rw [if_neg (by decide), if_neg side] at first
  have middle := clocks_counts (s := s) (List.replicate 7 true) { l with counter := 1 } free frame sends (by simp)
  have last := clock_answer (s := s) (l := { l with counter := 8 }) answer free frame rfl
  rw [readChar, show List.replicate 8 true = true :: List.replicate 7 true from rfl, clocks_append,
    clocks_cons true, first, middle, clocks_cons, clocks_nil]
  refine last.trans ?_
  simp [takeAnswer, setLink, sends, empty, count]

/-- What the part has still to send after `k` characters that the tester answered low. -/
def sentAfter (ready : Bool) (chars : List Byte) (k : Nat) : FetchOut :=
  if k < chars.length then .sending ready chars k else .ended

/-- The reply buffer after `k` characters answered low: DELIVERED once the check of a READY one is (R155). -/
def replyAfter (ready : Bool) (chars : List Byte) (k : Nat) (r : Reply) : Reply :=
  if ready = true ∧ chars.length ≤ k then r.deliver else r

theorem replyAfter_sent (chars : List Byte) (k : Nat) (r : Reply) : replyAfter false chars k r = r := if_neg (by simp)

theorem sentAfter_answered (ready : Bool) (chars : List Byte) (k : Nat) :
    (sentAfter ready chars k).answered false = sentAfter ready chars (k + 1) := by
  unfold sentAfter
  by_cases inside : k < chars.length
  · rw [if_pos inside]
    simp only [FetchOut.answered, Bool.false_eq_true, false_or]
    by_cases last : chars.length ≤ k + 1
    · rw [if_pos last, if_neg (Nat.not_lt.mpr last)]
    · rw [if_neg last, if_pos (Nat.lt_of_not_le last)]
  · rw [if_neg inside, if_neg (by omega)]
    rfl

theorem replyAfter_answered (ready : Bool) (chars : List Byte) (k : Nat) (r : Reply) :
    (if (sentAfter ready chars k).delivers false then (replyAfter ready chars k r).deliver
      else replyAfter ready chars k r) = replyAfter ready chars (k + 1) r := by
  unfold sentAfter replyAfter
  by_cases inside : k < chars.length
  · have before : ¬ (ready = true ∧ chars.length ≤ k) := fun ⟨_, all⟩ => absurd inside (Nat.not_lt.mpr all)
    rw [if_pos inside, if_neg before]
    simp only [FetchOut.delivers, Bool.not_false, Bool.and_true, Bool.and_eq_true, decide_eq_true_eq]
    have last : chars.length = k + 1 ↔ chars.length ≤ k + 1 := by omega
    simp only [last]
  · have all : chars.length ≤ k := Nat.le_of_not_lt inside
    have more : chars.length ≤ k + 1 := by omega
    simp [inside, all, more, FetchOut.delivers]

/-- A fetch of `k` characters, all answered low. -/
theorem clocks_fetch (ready : Bool) (chars : List Byte) (k : Nat) (free : l.hold = none) (frame : l.inFrame = true)
    (sends : l.kind = .fetch) (count : l.counter = 9) (empty : l.shift = []) (out : l.out = sentAfter ready chars 0)
    (reply : replyAfter ready chars 0 l.reply = l.reply) :
    clocks ((List.replicate k false).map readChar).flatten (setLink l s) =
      setLink { l with reply := replyAfter ready chars k l.reply, out := sentAfter ready chars k } s := by
  induction k with
  | zero =>
    rw [reply, ← out]
    rfl
  | succ k ih =>
    rw [List.replicate_succ', List.map_append, List.flatten_append, clocks_append, ih, List.map_singleton,
      List.flatten_singleton,
      readChar_answered (l := { l with reply := replyAfter ready chars k l.reply, out := sentAfter ready chars k })
        false free frame sends count empty]
    dsimp only
    rw [sentAfter_answered, replyAfter_answered]

/-- The link after a fetch frame whose reply was not WAITING. -/
def fetchedLink (l : WorkshopLink) (b : Byte) (ready : Bool) (chars : List Byte) (k : Nat) : WorkshopLink :=
  { l.opened with
    counter := 9, kind := .fetch, progress := [b]
    reply := replyAfter ready chars k l.reply, out := sentAfter ready chars k }

/-- FETCH_FRAME with `k` characters answered low, at a reply that is not WAITING. -/
theorem fetchFrame_sent (h : BitVec 7) (k : Nat) {ready : Bool} {chars : List Byte} (free : s.link.hold = none)
    (decided : s.link.reply.isWaiting = false) (gives : fetchOf s.link.reply = .sending ready chars 0)
    (nonempty : chars ≠ []) : exec (.fetchFrame (some h) (List.replicate k false) 0) s =
      .next (setLink (fetchedLink s.link (h.setWidth 8 ||| 0x80) ready chars k) s) := by
  have opened : markOpen s = setLink s.link.opened s := if_neg (by simp [free])
  have positive : 0 < chars.length := List.length_pos_iff.mpr nonempty
  have start : sentAfter ready chars 0 = .sending ready chars 0 := if_pos positive
  have still : replyAfter ready chars 0 s.link.reply = s.link.reply :=
    if_neg fun ⟨_, all⟩ => absurd positive (Nat.not_lt.mpr all)
  refine congrArg Host.Outcome.next ?_
  rw [fetchClocks, List.replicate_zero, List.append_nil]
  rw [opened, fetch_head free (fetchHead_msb h) decided]
  exact clocks_fetch ready chars k free rfl rfl rfl rfl (gives.trans start.symm) still

/-- FETCH_FRAME at a WAITING reply: WCK is held after the head, and no further clock reaches the part. -/
theorem fetchFrame_held (h : BitVec 7) (k : Nat) (free : s.link.hold = none) (waits : s.link.reply.isWaiting = true) :
    exec (.fetchFrame (some h) (List.replicate k false) 0) s = .next (setLink { s.link.opened with
      counter := 9, kind := .fetch, progress := [h.setWidth 8 ||| 0x80]
      hold := some { left := 2, since := s.time.now } } s) := by
  have opened : markOpen s = setLink s.link.opened s := if_neg (by simp [free])
  refine congrArg Host.Outcome.next ?_
  rw [fetchClocks, List.replicate_zero, List.append_nil]
  rw [opened, fetch_held free (fetchHead_msb h) waits]
  exact clocks_held (by simp [setLink]) _

/-- A fetch that the part holds is decided as the reply leaves WAITING (R152, R156). -/
theorem setReply_fetch {x : Reply} {u : State} (done : x.isWaiting = false) (held : u.link.hold ≠ none)
    (fetching : u.link.kind = .fetch) (undecided : u.link.out = .undecided) : (setReply x u).link.out = fetchOf x := by
  simp [setReply, Option.isSome_iff_ne_none.mpr held, done, releaseHold, fetching, undecided]

end Fetches

/-- Settles O31: a fetch at each state of the reply buffer. -/
theorem fetchDeliversReadyReply : Obligations.FetchDeliversReadyReply := by
  intro s head tag payload k chars fetch kept same waits
  refine ⟨fun free => ⟨fun reply small => ?_, fun reply => ?_, fun reply => ?_, fun reply => ?_, fun op reply => ?_⟩,
    fun r asked waiting => ?_, fun op reply waiting due => ?_⟩
  · have gives : fetchOf s.link.reply = .sending true (chars 1 tag payload) 0 := by rw [reply]; rfl
    have length : (chars 1 tag payload).length = payload.length + 4 := by simp [chars]
    have run := fetchFrame_sent head k free (by rw [reply]; rfl) gives (by simp [chars])
    refine ⟨_, run, fun all => ⟨?_, ?_⟩,
      fun part => ⟨?_, ?_⟩, free, rfl, rfl, rfl, rfl⟩
    · exact (if_pos ⟨rfl, by omega⟩).trans (by rw [reply]; rfl)
    · exact if_neg (by omega)
    · exact (if_neg (by omega)).trans reply
    · exact if_pos (by omega)
  · have gives : fetchOf s.link.reply = .sending false (chars 1 tag payload) 0 := by rw [reply]; rfl
    have run := fetchFrame_sent head k free (by rw [reply]; rfl) gives (by simp [chars])
    exact ⟨_, run, ⟨replyAfter_sent (chars 1 tag payload) k _, free, rfl⟩, rfl, rfl, rfl, rfl⟩
  · have gives : fetchOf s.link.reply = .sending false [3, 0, 0, 3] 0 := by rw [reply]; rfl
    have run := fetchFrame_sent head k free (by rw [reply]; rfl) gives (by simp)
    exact ⟨_, run, ⟨replyAfter_sent [3, 0, 0, 3] k _, free, rfl⟩, rfl, rfl, rfl, rfl⟩
  · have gives : fetchOf s.link.reply = .sending false (chars 4 tag []) 0 := by rw [reply]; rfl
    have run := fetchFrame_sent head k free (by rw [reply]; rfl) gives (by simp [chars])
    exact ⟨_, run, ⟨replyAfter_sent (chars 4 tag []) k _, free, rfl⟩, rfl, rfl, rfl, rfl⟩
  · refine ⟨_, fetchFrame_held head k free (by rw [reply]; rfl), reply, rfl, rfl, rfl, rfl, rfl, rfl, rfl⟩
  · obtain ⟨fetching, undecided, held⟩ := waiting
    have run : exec .keepSession s = .next (answer r .ok [] (beginService r s)) :=
      congrArg Host.Outcome.next (linkTake_requested (code := 3) asked _)
    have link : (beginService r s).link = { s.link with request := none } := by
      rw [beginService_eq, linkBegun]
      exact if_pos fetching
    refine ⟨_, run, setReply_hold rfl _, ?_⟩
    rw [answer, param_head asked.2.1, setReply_fetch rfl (by rw [link]; exact held) (by rw [link]; exact fetching)
      (by rw [link]; exact undecided)]
    rfl
  · obtain ⟨fetching, undecided, held⟩ := waiting
    have run : exec .sessionTimerExpiry s = .next (publish s (closeLink s)) := by
      change Host.Outcome.next (publish s (sessionTimerEnd s)) = _
      rw [sessionTimerEnd, if_pos due]
    have link : (publish s (closeLink s)).link = (closeLink s).link := by simp
    have closing : s.link.reply.atClose = .discarded tag := by rw [reply]; rfl
    refine ⟨_, run, ?_, ?_, ?_⟩
    · rw [link, closeLink_link]
      exact setReply_hold (atClose_isWaiting _) s
    · rw [link, closeLink_link]
      exact (setReply_reply _ s).trans closing
    · rw [link, closeLink_link]
      refine (setReply_fetch (atClose_isWaiting _) held fetching undecided).trans ?_
      rw [closing]
      rfl

/-- Settles O30: a request frame refused at each of its checks, and an accepted one. -/
theorem requestFrameIsAccepted : Obligations.RequestFrameIsAccepted := by
  refine ⟨fun s head rest free request => ?_, fun s head payload free buffer request some small => ?_⟩
  · intro refused frame
    have run : ∀ chars, frame chars =
        .next (clocks ((head :: chars ++ rest).map sentChar).flatten (setLink s.link.opened s)) := fun chars =>
      congrArg Host.Outcome.next (requestClocks_opens free _)
    have ends : ∀ progress, clocks (rest.map sentChar).flatten (setLink (refusedLink s.link progress) s) =
        refused progress := fun progress => clocks_ignored free rest
    refine ⟨fun full => ?_, fun buffer length bad => ?_, ?_⟩
    · rw [run, List.cons_append, clocks_chars, head_refused free full request]
      exact congrArg Host.Outcome.next (ends [])
    · rw [run, List.cons_append, clocks_chars, head_request free buffer request, List.cons_append, clocks_chars,
        length_refused free bad]
      exact congrArg Host.Outcome.next (ends [head])
    · intro buffer payload check some small body other
      have whole : payload.length = (BitVec.ofNat 8 payload.length : Byte).toNat := by
        rw [BitVec.toNat_ofNat, Nat.mod_eq_of_lt (by omega)]
      have chars : head :: (BitVec.ofNat 8 payload.length :: payload ++ [check]) ++ rest =
          head :: BitVec.ofNat 8 payload.length :: payload ++ (check :: rest) := by simp
      rw [run, chars, clocks_body free buffer request some small, clocks_chars, check_refused free whole other]
      exact congrArg Host.Outcome.next (ends body)
  · intro length check
    have whole : payload.length = length.toNat := by
      rw [BitVec.toNat_ofNat, Nat.mod_eq_of_lt (by omega)]
    have whole' : check = xorAll (head :: length :: payload) := rfl
    have run : exec (.requestFrame true (head :: length :: payload ++ [check]) []) s = .next (setLink
        (acceptedLink s.link head payload (head :: length :: payload ++ [check]) s.time.now) s) := by
      refine congrArg Host.Outcome.next ?_
      rw [requestClocks_opens free, clocks_body free buffer request some small, clocks_chars, whole',
        check_accepted free whole]
      exact clocks_nil
    exact ⟨_, run, rfl, rfl, rfl, rfl, rfl, rfl, rfl, rfl⟩

end Sys2Proof.Proofs

/-! The pulse channels at a gauge cycle: the road speed and the engine speed. -/

namespace Sys2Proof.Proofs

open Sys2Proof Sys2Proof.Machine Sys2Proof.Safety

section Cycle

variable {s : State}

/-- The state at a gauge cycle's instant after the dwell and the road speed, before the rest. -/
def afterRoad (s : State) : State := roadEvent (dwellEvent (decide (s.time.lastGauge = 0)) (atGauge s))

theorem exec_gaugeCycle_road (s : State) : exec .gaugeCycle s = .next (publishGauge (gaugeEvent (afterRoad s))) := rfl

/-- The motion state of a road evaluation taken by the unit (R27). -/
def moved (now : Nat) (p : PulseUnit) : Option Motion → PulseUnit
  | none => p
  | some m => if p.motion = m then p else
      { p with motion := m, standstillAt := if m = .standstill then some now else none }

/-- The unit after the road speed of a cycle. -/
def roadPulse (now : Nat) (c : PulseParams) (p : PulseUnit) : PulseUnit :=
  moved now ((p.evaluate now c.timeout).1.display c.shift) (p.evaluate now c.timeout).2

/-- The unit after the engine speed of a cycle. -/
def enginePulse (now : Nat) (c : PulseParams) (p : PulseUnit) : PulseUnit :=
  (p.evaluateEngine now c.p10).judgeRunning c.rOn c.rOff

theorem setMotion_pulse (m : Motion) (s : State) : (setMotion m s).pulse = moved s.time.now s.pulse (some m) := by
  rw [setMotion]
  by_cases same : s.pulse.motion = m
  · rw [if_pos same]
    exact (if_pos same).symm
  · rw [if_neg same, (handMotion_frame _ _).2.2.1]
    exact (if_neg same).symm

theorem evaluateRoad_pulse (s : State) :
    (evaluateRoad s).pulse = roadPulse s.time.now (pulseParams s.image) s.pulse := by
  unfold evaluateRoad roadPulse
  dsimp only
  split
  next m named => rw [setMotion_pulse, named]; rfl
  next none_ => rw [none_]; rfl

/-- The pulse channels after a gauge cycle. -/
theorem gaugeCycle_pulse (s : State) : (publishGauge (gaugeEvent (afterRoad s))).pulse =
    enginePulse (nextInstant Config.gaugePeriod s.time.lastGauge s.time.now) (pulseParams s.image)
      (roadPulse (nextInstant Config.gaugePeriod s.time.lastGauge s.time.now) (pulseParams s.image) s.pulse) := by
  have engine : ∀ u : State, (gaugeEvent u).pulse = enginePulse u.time.now (pulseParams u.image) u.pulse := fun u => by
    simp [gaugeEvent, evaluateEngine, enginePulse, setPulse]
  have road : ∀ u : State, (roadEvent u).pulse = roadPulse u.time.now (pulseParams u.image) u.pulse := fun u => by
    rw [roadEvent, (finish_frame _ _).2.2.1, evaluateRoad_pulse]
  have pulse : ∀ u : State, (publishGauge u).pulse = u.pulse := fun u => by simp
  rw [pulse, engine, afterRoad, road]
  simp
  rfl

end Cycle

/-! ## The engine speed -/

section Engine

variable {p : PulseUnit} {now : Nat} {c : PulseParams}

/-- A road evaluation changes the speed, its status, the reference and the count alone. -/
theorem evaluate_kept (now timeout : Nat) (p : PulseUnit) : (p.evaluate now timeout).1 = { p with
    raw := (p.evaluate now timeout).1.raw, displayed := (p.evaluate now timeout).1.displayed
    status := (p.evaluate now timeout).1.status, reference := (p.evaluate now timeout).1.reference
    count := (p.evaluate now timeout).1.count } := by
  unfold PulseUnit.evaluate
  dsimp only
  repeat' split
  all_goals rfl

theorem display_kept (shift : Nat) (p : PulseUnit) :
    p.display shift = { p with displayed := (p.display shift).displayed } := by
  unfold PulseUnit.display
  split <;> rfl

theorem moved_kept (now : Nat) (p : PulseUnit) (m : Option Motion) :
    moved now p m = { p with motion := (moved now p m).motion, standstillAt := (moved now p m).standstillAt } := by
  cases m with
  | none => rfl
  | some m =>
    unfold moved
    dsimp only
    split <;> rfl

/-- A road evaluation leaves the engine speed. -/
theorem roadPulse_engine (now : Nat) (c : PulseParams) (p : PulseUnit) :
    (roadPulse now c p).engineCount = p.engineCount ∧ (roadPulse now c p).engineRef = p.engineRef ∧
    (roadPulse now c p).engineEdge = p.engineEdge ∧ (roadPulse now c p).rpm = p.rpm ∧
    (roadPulse now c p).running = p.running := by
  rw [roadPulse, moved_kept, display_kept, evaluate_kept]
  exact ⟨rfl, rfl, rfl, rfl, rfl⟩

theorem evaluateEngine_kept (now p10 : Nat) (p : PulseUnit) : p.evaluateEngine now p10 = { p with
    rpm := (p.evaluateEngine now p10).rpm, engineRef := (p.evaluateEngine now p10).engineRef
    engineCount := (p.evaluateEngine now p10).engineCount } := by
  unfold PulseUnit.evaluateEngine
  dsimp only
  repeat' split
  all_goals rfl

/-- The engine speed leaves the road speed. -/
theorem enginePulse_road (now : Nat) (c : PulseParams) (p : PulseUnit) :
    (enginePulse now c p).raw = p.raw ∧ (enginePulse now c p).displayed = p.displayed ∧
    (enginePulse now c p).status = p.status ∧ (enginePulse now c p).reference = p.reference ∧
    (enginePulse now c p).count = p.count ∧ (enginePulse now c p).motion = p.motion ∧
    (enginePulse now c p).standstillAt = p.standstillAt := by
  rw [enginePulse, PulseUnit.judgeRunning, evaluateEngine_kept]
  exact ⟨rfl, rfl, rfl, rfl, rfl, rfl, rfl⟩

theorem evaluateEngine_span {r : Stamp} (edges : p.engineCount ≠ 0) (ref : p.engineRef = some r) (p10 : Nat) :
    p.evaluateEngine now p10 = { p with
      rpm := engineOf p.engineCount p10 (span p.engineEdge r), engineRef := some p.engineEdge, engineCount := 0 } := by
  simp only [PulseUnit.evaluateEngine, if_pos edges, ref]

theorem evaluateEngine_first (edges : p.engineCount ≠ 0) (ref : p.engineRef = none) (p10 : Nat) :
    p.evaluateEngine now p10 = { p with engineRef := some p.engineEdge, engineCount := 0 } := by
  simp only [PulseUnit.evaluateEngine, if_pos edges, ref]

theorem evaluateEngine_idle (edges : p.engineCount = 0) (ref : p.engineRef = none) (p10 : Nat) :
    p.evaluateEngine now p10 = p := by
  simp [PulseUnit.evaluateEngine, edges, ref]

theorem evaluateEngine_silent (edges : p.engineCount = 0) (ref : p.engineRef ≠ none) (p10 : Nat) :
    p.evaluateEngine now p10 =
      if 500000 ≤ span (stampOf now) p.engineEdge then { p with rpm := 0, engineRef := none }
      else if span (stampOf now) p.engineEdge = 0 then p
      else { p with rpm := min p.rpm (engineOf 1 p10 (span (stampOf now) p.engineEdge)) } := by
  simp [PulseUnit.evaluateEngine, edges, ref]

/-- The speed of a span, as the obligation writes it. -/
theorem engineOf_eq (n p10 span : Nat) :
    engineOf n p10 span = min ((2 * n * 600000000 + p10 * span) / (2 * p10 * span)) 5000 := by
  rw [engineOf, roundUp, Nat.mul_assoc, Nat.mul_assoc]

end Engine

/-- Settles O15: the cases of R34, and the engine-running flag. -/
theorem gaugeCycleEvaluatesEngineSpeed : Obligations.GaugeCycleEvaluatesEngineSpeed := by
  intro s
  refine ⟨_, exec_gaugeCycle_road s, ?_⟩
  rw [gaugeCycle_pulse]
  intro p q c i speed since
  obtain ⟨count, ref, edge, rpm, running⟩ := roadPulse_engine i c p
  have same : ∀ n span, engineOf n c.p10 span = speed n span := fun n span => engineOf_eq n c.p10 span
  have engine : q = ((roadPulse i c p).evaluateEngine i c.p10).judgeRunning c.rOn c.rOff := rfl
  have ago : span (stampOf i) p.engineEdge = since := rfl
  refine ⟨fun edges r reference => ?_, fun edges none_ => ?_, fun none_ idle => ?_, fun none_ some_ late => ?_,
    fun none_ some_ early => ?_, ?_, ?_⟩
  · rw [engine, evaluateEngine_span (by rw [count]; exact edges) (ref.trans reference), same, count, edge]
    exact ⟨rfl, rfl, rfl⟩
  · rw [engine, evaluateEngine_first (by rw [count]; exact edges) (ref.trans none_), edge]
    exact ⟨rpm, rfl, rfl⟩
  · rw [engine, evaluateEngine_idle (count.trans none_) (ref.trans idle)]
    exact ⟨rpm, ref.trans idle⟩
  · rw [engine, evaluateEngine_silent (count.trans none_) (by rw [ref]; exact some_), edge, ago, if_pos late]
    exact ⟨rfl, rfl⟩
  · rw [engine, evaluateEngine_silent (count.trans none_) (by rw [ref]; exact some_), edge, ago,
      if_neg (Nat.not_le.mpr early), same]
    by_cases zero : since = 0
    · rw [if_pos zero, if_neg (not_not.mpr zero)]
      exact ⟨ref, rpm⟩
    · rw [if_neg zero, if_pos zero]
      exact ⟨ref, by rw [← rpm]; rfl⟩
  · have still : ((roadPulse i c p).evaluateEngine i c.p10).running = p.running := by
      rw [evaluateEngine_kept]
      exact running
    rw [← still]
    rfl
  · rw [engine, PulseUnit.judgeRunning, evaluateEngine_kept]
    exact edge

/-! ## The road speed -/

section Road

variable {p : PulseUnit} {now timeout : Nat}

theorem evaluate_invalid (invalid : sourceValid p = false) : p.evaluate now timeout = (p.noSpeed, none) := by
  simp [PulseUnit.evaluate, invalid]

theorem evaluate_span {r : Stamp} (valid : sourceValid p = true) (edges : p.count ≠ 0) (ref : p.reference = some r) :
    p.evaluate now timeout = ({ p with
      raw := min (speedOf p.count p.k (span p.lastEdge r)) 25000, status := statusOf (speedOf p.count p.k (span p.lastEdge r))
      reference := some p.lastEdge, count := 0 },
      if 1 ≤ speedOf p.count p.k (span p.lastEdge r) then some .moving else none) := by
  simp only [PulseUnit.evaluate, valid, edges, ref, Bool.not_true, Bool.false_eq_true, if_false, ne_eq,
    not_false_eq_true, if_true]

theorem evaluate_first (valid : sourceValid p = true) (edges : p.count ≠ 0) (ref : p.reference = none) :
    p.evaluate now timeout =
      ({ p with reference := some p.lastEdge, count := 0, status := p.status.evaluated }, none) := by
  simp only [PulseUnit.evaluate, valid, edges, ref, Bool.not_true, Bool.false_eq_true, if_false, ne_eq,
    not_false_eq_true, if_true]

theorem evaluate_standing (valid : sourceValid p = true) (edges : p.count = 0) (still : p.motion = .standstill)
    (ref : p.reference = none) : p.evaluate now timeout = (p, none) := by
  simp [PulseUnit.evaluate, valid, edges, ref, still]

theorem evaluate_silent (valid : sourceValid p = true) (edges : p.count = 0)
    (awake : p.motion ≠ .standstill ∨ p.reference ≠ none) : p.evaluate now timeout =
      if timeout * 1000 ≤ span (stampOf now) p.lastEdge then
        ({ p with raw := 0, status := .valid, reference := none }, some .standstill)
      else if span (stampOf now) p.lastEdge ≠ 0 ∧ speedOf 1 p.k (span (stampOf now) p.lastEdge) < p.raw then
        ({ p with
          raw := min (speedOf 1 p.k (span (stampOf now) p.lastEdge)) 25000
          status := statusOf (speedOf 1 p.k (span (stampOf now) p.lastEdge)) }, none)
      else ({ p with status := p.status.evaluated }, none) := by
  have busy : ¬ (p.motion = .standstill ∧ p.reference.isNone = true) := fun ⟨still, none_⟩ =>
    awake.elim (· still) (· (Option.isNone_iff_eq_none.mp none_))
  simp only [PulseUnit.evaluate, valid, edges, Bool.not_true, Bool.false_eq_true, if_false, ne_eq, not_true_eq_false,
    if_neg busy]
  by_cases zero : span (stampOf now) p.lastEdge = 0
  · simp [zero]
  · simp [zero]

theorem speedOf_eq (n k span : Nat) : speedOf n k span = (2 * n * 360000000000 + k * span) / (2 * k * span) := by
  rw [speedOf, roundUp, Nat.mul_assoc, Nat.mul_assoc]

theorem evaluated_eq (x : SpeedStatus) : x.evaluated = if x = .invalid then .valid else x := by
  cases x <;> rfl

/-- The displayed speed after a cycle (R26). -/
theorem display_valid (shift : Nat) (valid : sourceValid p = true) : p.display shift = { p with
    displayed := (p.displayed + filterStep ((p.raw : Int) - p.displayed) shift).toNat } := if_pos valid

theorem display_invalid (shift : Nat) (invalid : sourceValid p = false) : p.display shift = p :=
  if_neg (Bool.eq_false_iff.mp invalid)

theorem roadPulse_speed (now : Nat) (c : PulseParams) (p : PulseUnit) :
    (roadPulse now c p).raw = (p.evaluate now c.timeout).1.raw ∧
    (roadPulse now c p).status = (p.evaluate now c.timeout).1.status ∧
    (roadPulse now c p).reference = (p.evaluate now c.timeout).1.reference ∧
    (roadPulse now c p).count = (p.evaluate now c.timeout).1.count ∧
    (roadPulse now c p).displayed = ((p.evaluate now c.timeout).1.display c.shift).displayed := by
  rw [roadPulse, moved_kept, display_kept]
  exact ⟨rfl, rfl, rfl, rfl, rfl⟩

theorem roadPulse_motion (now : Nat) (c : PulseParams) (p : PulseUnit) :
    ((roadPulse now c p).motion = (p.evaluate now c.timeout).2.getD p.motion) ∧
    (roadPulse now c p).standstillAt =
      if (p.evaluate now c.timeout).2.getD p.motion = p.motion then p.standstillAt
      else if (p.evaluate now c.timeout).2.getD p.motion = .standstill then some now else none := by
  have still : ((p.evaluate now c.timeout).1.display c.shift).motion = p.motion ∧
      ((p.evaluate now c.timeout).1.display c.shift).standstillAt = p.standstillAt := by
    rw [display_kept, evaluate_kept]
    exact ⟨rfl, rfl⟩
  obtain ⟨motion, at_⟩ := still
  rw [roadPulse]
  cases (p.evaluate now c.timeout).2 with
  | none => exact ⟨motion, at_.trans (if_pos rfl).symm⟩
  | some m =>
    simp only [moved, Option.getD_some, motion, eq_comm (a := m)]
    by_cases same : p.motion = m
    · rw [if_pos same, if_pos same]
      exact ⟨motion.trans same, at_⟩
    · rw [if_neg same, if_neg same]
      exact ⟨rfl, by simp only [eq_comm]⟩

/-- The displayed speed moves by the filter's step towards the raw speed (R26). -/
theorem roadPulse_displayed (now : Nat) (c : PulseParams) (valid : sourceValid p = true) :
    (roadPulse now c p).displayed =
      (p.displayed + filterStep (((roadPulse now c p).raw : Int) - p.displayed) c.shift).toNat := by
  obtain ⟨raw, -, -, -, displayed⟩ := roadPulse_speed now c p
  have kept := evaluate_kept now c.timeout p
  have shown : (p.evaluate now c.timeout).1.displayed = p.displayed := by
    unfold PulseUnit.evaluate
    simp only [valid, Bool.not_true, Bool.false_eq_true, if_false]
    repeat' split
    all_goals rfl
  have source : sourceValid (p.evaluate now c.timeout).1 = true := by
    rw [kept]
    exact valid
  rw [displayed, raw, display_valid c.shift source, shown]

end Road

/-- Settles O14: each case of R21 to R27 by its evaluation. -/
theorem gaugeCycleEvaluatesRoadSpeed : Obligations.GaugeCycleEvaluatesRoadSpeed := by
  intro s
  refine ⟨_, exec_gaugeCycle_road s, ?_⟩
  rw [gaugeCycle_pulse]
  intro p q i speed since timeout
  have road := enginePulse_road i (pulseParams s.image) (roadPulse i (pulseParams s.image) p)
  generalize params : pulseParams s.image = c at road
  obtain ⟨raw, displayed, status, reference, count, motion, standstillAt⟩ := road
  obtain ⟨eRaw, eStatus, eReference, eCount, eDisplayed⟩ := roadPulse_speed i c p
  obtain ⟨eMotion, eStandstill⟩ := roadPulse_motion i c p
  have whole : q = enginePulse i c (roadPulse i c p) := by rw [← params]
  have speeds : ∀ n span, speedOf n p.k span = speed n span := fun n span => speedOf_eq n p.k span
  have ago : span (stampOf i) p.lastEdge = since := rfl
  have late : c.timeout * 1000 = timeout := by rw [← params]
  rw [← whole] at raw displayed status reference count motion standstillAt
  refine ⟨fun valid edges r ref => ?_, fun valid edges ref => ?_, fun valid none_ still ref => ?_,
    fun valid none_ awake elapsed => ?_, fun valid none_ awake early => ?_, fun invalid => ?_, fun valid => ?_⟩
  · have e := evaluate_span (now := i) (timeout := c.timeout) valid edges ref
    rw [show span p.lastEdge r = (p.lastEdge - r).toNat from rfl, speeds] at e
    rw [e] at eRaw eStatus eReference eCount eMotion
    rw [raw, status, reference, count, motion, eRaw, eStatus, eReference, eCount, eMotion]
    exact ⟨rfl, rfl, rfl, rfl, fun moves => by rw [if_pos moves]; rfl, fun zero => by rw [if_neg (by omega)]; rfl⟩
  · have e := evaluate_first (now := i) (timeout := c.timeout) valid edges ref
    rw [e] at eRaw eStatus eReference eCount eMotion
    rw [raw, status, reference, count, motion, eRaw, eStatus, eReference, eCount, eMotion, evaluated_eq]
    exact ⟨rfl, rfl, rfl, rfl, rfl⟩
  · have e := evaluate_standing (now := i) (timeout := c.timeout) valid none_ still ref
    rw [e] at eRaw eStatus eReference eMotion eStandstill
    rw [raw, status, reference, motion, standstillAt, eRaw, eStatus, eReference, eMotion, eStandstill]
    exact ⟨rfl, rfl, ref, still, if_pos rfl⟩
  · have e := evaluate_silent (now := i) (timeout := c.timeout) valid none_ awake
    rw [ago, late, if_pos elapsed] at e
    rw [e] at eRaw eStatus eReference eMotion eStandstill
    rw [raw, status, reference, motion, standstillAt, eRaw, eStatus, eReference, eMotion, eStandstill]
    exact ⟨rfl, rfl, rfl, rfl, by simp only [Option.getD_some, eq_comm]; rfl⟩
  · have e := evaluate_silent (now := i) (timeout := c.timeout) valid none_ awake
    rw [ago, late, if_neg (Nat.not_le.mpr early), speeds] at e
    by_cases bound : since ≠ 0 ∧ speed 1 since < p.raw
    · rw [if_pos bound] at e ⊢
      rw [e] at eRaw eStatus eReference eMotion
      rw [raw, status, reference, motion, eRaw, eStatus, eReference, eMotion]
      exact ⟨rfl, rfl, rfl, rfl⟩
    · rw [if_neg bound] at e ⊢
      rw [e] at eRaw eStatus eReference eMotion
      rw [raw, status, reference, motion, eRaw, eStatus, eReference, eMotion, evaluated_eq]
      exact ⟨rfl, rfl, rfl, rfl⟩
  · have e := evaluate_invalid (now := i) (timeout := c.timeout) invalid
    rw [e] at eRaw eStatus eReference eCount eMotion eDisplayed
    rw [raw, displayed, status, count, reference, motion, eRaw, eDisplayed, eStatus, eReference, eCount, eMotion,
      display_invalid c.shift (by exact invalid)]
    exact ⟨rfl, rfl, rfl, rfl, rfl, rfl⟩
  · have shown := roadPulse_displayed i c valid
    rw [← raw, ← displayed] at shown
    exact shown

end Sys2Proof.Proofs

/-! The analog channels at a gauge cycle: the groups, the supply, and the senders. -/

namespace Sys2Proof.Proofs

open Sys2Proof Sys2Proof.Machine Sys2Proof.Safety

/-! ## The quick adopts at a motion change -/

section Quick

variable {s : State} {c : Fin 6}

/-- The unit with every quick-adopt run count 0 (R65). -/
def quickless (a : AnalogUnit) : AnalogUnit :=
  { a with channels := Vector.ofFn fun c => { a.channels[c] with quick := 0 } }

theorem setMotion_analog (m : Motion) (s : State) : (setMotion m s).analog =
    if s.pulse.motion = .standstill ∧ m ≠ .standstill then quickless s.analog else s.analog := by
  rw [setMotion]
  by_cases same : s.pulse.motion = m
  · have stays : ¬ (s.pulse.motion = .standstill ∧ m ≠ .standstill) := fun ⟨still, other⟩ => other (same.symm.trans still)
    rw [if_pos same, if_neg stays]
  rw [if_neg same, handMotion]
  by_cases still : s.pulse.motion = .standstill
  · have leaves : s.pulse.motion = .standstill ∧ m ≠ .standstill := ⟨still, fun e => same (still.trans e.symm)⟩
    rw [if_pos still, if_pos leaves]
    simp [resetQuick, setPulse, quickless]
  · have stays : ¬ (s.pulse.motion = .standstill ∧ m ≠ .standstill) := fun ⟨was, _⟩ => still was
    rw [if_neg still, if_neg stays]
    simp [setPulse]

theorem afterRoad_analog (s : State) : (afterRoad s).analog =
    if s.pulse.motion = .standstill ∧ (afterRoad s).pulse.motion ≠ .standstill then quickless s.analog else s.analog := by
  have analog : ∀ u : State, (roadEvent u).analog = (evaluateRoad u).analog := fun u => by simp [roadEvent]
  have pulse : ∀ u : State, (roadEvent u).pulse = (evaluateRoad u).pulse := fun u => by simp [roadEvent]
  have road : ∀ u : State, (evaluateRoad u).analog =
      if u.pulse.motion = .standstill ∧ (evaluateRoad u).pulse.motion ≠ .standstill then quickless u.analog
      else u.analog := fun u => by
    obtain ⟨motion, -⟩ := roadPulse_motion u.time.now (pulseParams u.image) u.pulse
    have still : ((u.pulse.evaluate u.time.now (pulseParams u.image).timeout).1.display
        (pulseParams u.image).shift).motion = u.pulse.motion := by
      rw [display_kept, evaluate_kept]
    rw [evaluateRoad_pulse, motion, evaluateRoad]
    cases (u.pulse.evaluate u.time.now (pulseParams u.image).timeout).2 with
    | none => exact (if_neg fun ⟨was, now⟩ => now was).symm
    | some m =>
      dsimp only
      rw [setMotion_analog]
      simp only [setPulse, still, Option.getD_some]
  rw [afterRoad, analog, pulse, road]
  simp

/-- A channel after the road speed: its quick-adopt run count alone may have been reset. -/
theorem afterRoad_channel (s : State) (c : Fin 6) : (afterRoad s).analog.channels[c] =
    { s.analog.channels[c] with
      quick := if s.pulse.motion = .standstill ∧ (afterRoad s).pulse.motion ≠ .standstill then 0
        else s.analog.channels[c].quick } := by
  rw [afterRoad_analog]
  split
  · simp [quickless]
  · rfl

end Quick

/-! ## Groups -/

section Groups

variable {s : State} {c : Fin 6}

/-- The group that a cycle closes, and the one that it opens (R56). -/
theorem close_eq (s : State) (i : Nat) (c : Fin 6) : s.analog.channels[c].close i s.analog.lateAt =
    { s.analog.channels[c] with
      mean := some (groupMean i (openGroup s i c).1 (openGroup s i c).2)
      sum := (nextGroup s i c).1, count := (nextGroup s i c).2, late := none } := by
  unfold openGroup nextGroup
  dsimp only
  generalize s.analog.channels[c] = x
  obtain ⟨sum, count, late, mean, table, y, status, fault, hold, quick⟩ := x
  cases late with
  | none => simp [Channel.close, Channel.absorb]
  | some v =>
    by_cases passed : s.analog.lateAt < i
    · simp [Channel.close, Channel.absorb, passed]
    · simp [Channel.close, Channel.absorb, passed]

theorem groupMean_some {now sum count : Nat} (some : count ≠ 0) : groupMean now sum count = (sum + count / 2) / count :=
  if_neg some

end Groups

/-! ## The channels of a cycle -/

section Channels

variable {s : State}

/-- A channel whose group a cycle has closed. -/
def closed (v : State) (c : Fin 6) : Channel := v.analog.channels[c].close v.time.now v.analog.lateAt

/-- The SUPPLY value of a cycle, from its raw mean (R58). -/
def supplied (v : State) : Nat := supplyOf ((closed v 5).mean.getD 0)

theorem judgeAnalog_supply (v : State) : (judgeAnalog v).analog.channels[5] = { closed v 5 with
    x := some (supplied v), y := some (supplied v), status := .valid } := by
  simp [judgeAnalog, judgeSenders, setAnalog, judgeSupply, supplyNow, closeGroups, supplied, closed]

theorem judgeAnalog_crank (v : State) :
    (judgeAnalog v).analog.crankHold = decide (supplied v < crankThreshold v.image) ∧
    (judgeAnalog v).analog.supplyLow = judgeLow (supplied v) v.analog.supplyLow := by
  simp [judgeAnalog, judgeSenders, setAnalog, judgeSupply, supplyNow, closeGroups, supplied, closed]

theorem judgeAnalog_sender (v : State) (n : Fin 5) : (judgeAnalog v).analog.channels[n.castSucc] =
    if v.analog.crankHold = true ∨ (judgeAnalog v).analog.crankHold = true then { closed v n.castSucc with quick := 0 }
    else (closed v n.castSucc).judge (senderEntry v.image n) v.time.now
      (decide (v.pulse.motion = .standstill) && ignitionOn v) := by
  have apart : (5 : Nat) ≠ n.val := by omega
  rw [(judgeAnalog_crank v).1]
  simp [judgeAnalog, judgeSenders, setAnalog, judgeSupply, supplyNow, closeGroups, supplied, closed, apart,
    Vector.getElem_set, ignitionOn, lineState] <;> rfl

/-- The group that a cycle closes is the one that was open before it. -/
theorem closed_cycle (s : State) (c : Fin 6) :
    let i := nextInstant Config.gaugePeriod s.time.lastGauge s.time.now
    closed (evaluateEngine (afterRoad s)) c = { s.analog.channels[c] with
      mean := some (groupMean i (openGroup s i c).1 (openGroup s i c).2)
      sum := (nextGroup s i c).1, count := (nextGroup s i c).2, late := none
      quick := if s.pulse.motion = .standstill ∧ (afterRoad s).pulse.motion ≠ .standstill then 0
        else s.analog.channels[c].quick } := by
  intro i
  have channel := afterRoad_channel s c
  have late : (afterRoad s).analog.lateAt = s.analog.lateAt := by simp [afterRoad]
  have now : (afterRoad s).time.now = i := by
    simp [afterRoad]
    rfl
  have analog : ∀ u, (evaluateEngine u).analog = u.analog := fun _ => rfl
  have time : ∀ u, (evaluateEngine u).time = u.time := fun _ => rfl
  have group : openGroup (afterRoad s) i c = openGroup s i c := by
    unfold openGroup
    rw [channel, late]
  have next : nextGroup (afterRoad s) i c = nextGroup s i c := by
    unfold nextGroup
    rw [channel, late]
  rw [closed, analog, time, now, close_eq, group, next, channel]

theorem cycle_analog (s : State) : (publishGauge (gaugeEvent (afterRoad s))).analog =
    (judgeAnalog (evaluateEngine (afterRoad s))).analog := by
  rw [← gaugeEvent_analog]
  simp

theorem cycle_now (s : State) : (publishGauge (gaugeEvent (afterRoad s))).time.now =
    nextInstant Config.gaugePeriod s.time.lastGauge s.time.now := by
  simp [afterRoad]
  rfl

theorem shownValue_valid {v : State} {c : Fin 6} {y : Int} (status : v.analog.channels[c].status = .valid)
    (value : v.analog.channels[c].y = some y) : shownValue v c = y := by
  simp only [shownValue, status, value, Option.getD_some]

/-- The watch takes the SUPPLY value of the cycle (R44). -/
theorem cycle_watch (s : State) : (publishGauge (gaugeEvent (afterRoad s))).dist.watch =
    s.dist.watch.take (nextInstant Config.gaugePeriod s.time.lastGauge s.time.now)
      (decide (supplied (evaluateEngine (afterRoad s)) < 1600)) := by
  have event : ∀ u : State, (gaugeEvent u).dist.watch = u.dist.watch.take u.time.now
      (decide (supplied (evaluateEngine u) < 1600)) := fun u => by
    have supply := judgeAnalog_supply (evaluateEngine u)
    have shown : shownValue (judgeAnalog (evaluateEngine u)) 5 = supplied (evaluateEngine u) :=
      shownValue_valid (congrArg Channel.status supply) (congrArg Channel.y supply)
    simp [gaugeEvent, handOver, shown, watchSupply, setDist, Config.pageSupply]
  have published : ∀ u : State, (publishGauge u).dist = u.dist := fun u => by simp
  rw [published, event]
  simp [afterRoad]
  rfl

end Channels

/-- Settles O13: the SUPPLY channel of a cycle, crank hold, SUPPLY_LOW and the watch. -/
theorem gaugeCycleJudgesSupply : Obligations.GaugeCycleJudgesSupply := by
  intro s i g some_
  refine ⟨_, exec_gaugeCycle_road s, ?_⟩
  intro raw v
  have mean : groupMean i (openGroup s i 5).1 (openGroup s i 5).2 = raw := groupMean_some some_
  have group := closed_cycle s 5
  have supply : supplied (evaluateEngine (afterRoad s)) = v := by
    rw [supplied, group]
    exact congrArg supplyOf mean
  have image : (evaluateEngine (afterRoad s)).image = s.image := by simp [afterRoad]
  have low : (evaluateEngine (afterRoad s)).analog.supplyLow = s.analog.supplyLow := by simp [afterRoad]
  obtain ⟨crank, supplyLow⟩ := judgeAnalog_crank (evaluateEngine (afterRoad s))
  dsimp only at group
  rw [cycle_analog, judgeAnalog_supply, crank, supplyLow, cycle_watch, cycle_now, supply, image, low, group]
  refine ⟨congrArg some mean, rfl, rfl, rfl, rfl, rfl, fun under => if_pos under, fun over_ => ?_, fun above below => ?_, ?_⟩
  · exact (if_neg (by omega)).trans (if_pos over_)
  · exact (if_neg (by omega)).trans (if_neg (by omega))
  · have timer : newTimer i 1000 = { left := 100, since := i } := newTimer_tenths i 10
    cases s.dist.watch <;> simp [Watch.take, timer, i]

/-! ## The senders -/

section Sender

variable {c : Channel} {e : SenderEntry} {now : Nat}

theorem fault_valid (status : c.status = .valid) (timed : e.hold ≠ 0) : c.faultCycle e now =
    { c with quick := 0, status := .held, hold := some (newTimer now (100 * e.hold)) } := by
  simp only [Channel.faultCycle, status, if_neg timed]

theorem fault_untimed (status : c.status = .valid) (untimed : e.hold = 0) : c.faultCycle e now =
    { c with quick := 0, status := .invalid, fault := true } := by
  simp only [Channel.faultCycle, status, if_pos untimed]

theorem fault_held (status : c.status = .held) : c.faultCycle e now = { c with quick := 0 } := by
  simp only [Channel.faultCycle, status]

theorem fault_known (status : c.status = .invalid) (known : c.hold.isSome = true ∨ c.fault = true) :
    c.faultCycle e now = { c with quick := 0 } := by
  simp only [Channel.faultCycle, status, if_pos known]

theorem fault_new (status : c.status = .invalid) (hold : c.hold = none) (fault : c.fault = false) :
    c.faultCycle e now = if e.hold = 0 then { c with quick := 0, fault := true }
      else { c with quick := 0, hold := some (newTimer now (100 * e.hold)) } := by
  simp [Channel.faultCycle, status, hold, fault]

theorem fault_rest (c : Channel) (e : SenderEntry) (now : Nat) : (c.faultCycle e now).mean = c.mean ∧
    (c.faultCycle e now).sum = c.sum ∧ (c.faultCycle e now).count = c.count ∧ (c.faultCycle e now).late = c.late ∧
    (c.faultCycle e now).y = c.y ∧ (c.faultCycle e now).quick = 0 := by
  unfold Channel.faultCycle
  dsimp only
  repeat' split
  all_goals exact ⟨rfl, rfl, rfl, rfl, rfl, rfl⟩

theorem good_invalid (status : c.status = .invalid) (quiet : Bool) (x : Int) : c.goodCycle e quiet x =
    { c with x := some x, y := some x, status := .valid, fault := false, hold := none, quick := 0 } := by
  simp only [Channel.goodCycle, status]

theorem good_shown (status : c.status ≠ .invalid) {y : Int} (value : c.y = some y) (quiet : Bool) (x : Int) :
    c.goodCycle e quiet x =
      if c.counts e quiet x y = true then
        if 3 ≤ c.quick + 1 then { c with x := some x, status := .valid, hold := none, y := some x, quick := 0 }
        else { c with x := some x, status := .valid, hold := none, y := some (y + filterStep (x - y) e.shift)
                      quick := c.quick + 1 }
      else { c with x := some x, status := .valid, hold := none, y := some (y + filterStep (x - y) e.shift)
                    quick := 0 } := by
  cases known : c.status with
  | invalid => exact absurd known status
  | valid => simp only [Channel.goodCycle, known, value, Option.getD_some]
  | held => simp only [Channel.goodCycle, known, value, Option.getD_some]

theorem good_rest (c : Channel) (e : SenderEntry) (quiet : Bool) (x : Int) : (c.goodCycle e quiet x).mean = c.mean ∧
    (c.goodCycle e quiet x).sum = c.sum ∧ (c.goodCycle e quiet x).count = c.count ∧
    (c.goodCycle e quiet x).late = c.late ∧ (c.goodCycle e quiet x).x = some x ∧
    (c.goodCycle e quiet x).status = .valid ∧ (c.goodCycle e quiet x).hold = none := by
  unfold Channel.goodCycle
  dsimp only
  repeat' split
  all_goals exact ⟨rfl, rfl, rfl, rfl, rfl, rfl, rfl⟩

theorem counts_iff (quiet : Bool) (x y : Int) : c.counts e quiet x y = true ↔
    e.margin ≠ 0 ∧ c.status = .valid ∧ quiet = true ∧ e.margin < (x - y).natAbs := by
  simp only [Channel.counts, Bool.and_eq_true, decide_eq_true_eq, and_assoc]
  norm_cast

/-- A sender after its group has closed, with a quick-adopt run count. -/
def closedSender (c : Channel) (r : Nat) (next : Nat × Nat) (quick : Nat) : Channel :=
  { c with mean := some r, sum := next.1, count := next.2, late := none, quick := quick }

theorem closedSender_judge (c : Channel) (e : SenderEntry) (r : Nat) (next : Nat × Nat) (quick now : Nat) (quiet : Bool) :
    (closedSender c r next quick).judge e now quiet =
      if r < e.shortLimit ∨ e.openLimit < r then (closedSender c r next quick).faultCycle e now
      else (closedSender c r next quick).goodCycle e quiet (tableValue e.table r) := rfl

/-- A fault cycle of a sender (R62). -/
theorem closedSender_fault (c : Channel) (r : Nat) (next : Nat × Nat) (quick : Nat) :
    let c' := (closedSender c r next quick).faultCycle e now
    c'.y = c.y ∧ c'.quick = 0 ∧
    (c.status = .valid → e.hold ≠ 0 →
      c'.status = .held ∧ c'.fault = c.fault ∧ c'.hold = some { left := 10 * e.hold, since := now }) ∧
    (c.status = .valid → e.hold = 0 → c'.status = .invalid ∧ c'.fault = true) ∧
    (c.status = .held → c'.status = .held ∧ c'.fault = c.fault ∧ c'.hold = c.hold) ∧
    (c.status = .invalid → c'.status = .invalid ∧
      (c.hold.isSome = true ∨ c.fault = true → c'.hold = c.hold ∧ c'.fault = c.fault) ∧
      (c.hold = none → c.fault = false →
        if e.hold = 0 then c'.fault = true else c'.hold = some { left := 10 * e.hold, since := now })) := by
  have timer : newTimer now (100 * e.hold) = { left := 10 * e.hold, since := now } := newTimer_tenths now e.hold
  intro c'
  obtain ⟨-, -, -, -, y, zero⟩ := fault_rest (closedSender c r next quick) e now
  refine ⟨y, zero, fun status timed => ?_, fun status untimed => ?_, fun status => ?_, fun status => ⟨?_, fun known => ?_,
    fun hold fault => ?_⟩⟩
  · rw [show c' = _ from fault_valid (c := closedSender c r next quick) status timed, timer]
    exact ⟨rfl, rfl, rfl⟩
  · rw [show c' = _ from fault_untimed (c := closedSender c r next quick) status untimed]
    exact ⟨rfl, rfl⟩
  · rw [show c' = _ from fault_held (c := closedSender c r next quick) status]
    exact ⟨status, rfl, rfl⟩
  · by_cases known : c.hold.isSome = true ∨ c.fault = true
    · rw [show c' = _ from fault_known (c := closedSender c r next quick) status known]
      exact status
    · have none_ : c.hold = none ∧ c.fault = false := by simpa using known
      rw [show c' = _ from fault_new (c := closedSender c r next quick) status none_.1 none_.2]
      split <;> exact status
  · rw [show c' = _ from fault_known (c := closedSender c r next quick) status known]
    exact ⟨rfl, rfl⟩
  · rw [show c' = _ from fault_new (c := closedSender c r next quick) status hold fault, timer]
    split <;> rfl

/-- A good cycle of a sender (R62, R64, R65). -/
theorem closedSender_good (c : Channel) (r : Nat) (next : Nat × Nat) (quick : Nat) (quiet : Bool) (x : Int)
    (kept : quiet = true → quick = c.quick) :
    let c' := (closedSender c r next quick).goodCycle e quiet x
    c'.x = some x ∧ c'.status = .valid ∧ c'.hold = none ∧
    (c.status = .invalid → c'.y = some x ∧ c'.fault = false ∧ c'.quick = 0) ∧
    (c.status ≠ .invalid → ∀ y, c.y = some y → c'.fault = c.fault ∧
      let counts := e.margin ≠ 0 ∧ c.status = .valid ∧ quiet = true ∧ e.margin < (x - y).natAbs
      (counts → c.quick < 2 → c'.y = some (y + filterStep (x - y) e.shift) ∧ c'.quick = c.quick + 1) ∧
      (counts → 2 ≤ c.quick → c'.y = some x ∧ c'.quick = 0) ∧
      (¬ counts → c'.y = some (y + filterStep (x - y) e.shift) ∧ c'.quick = 0)) := by
  intro c'
  obtain ⟨-, -, -, -, table, status', hold⟩ := good_rest (closedSender c r next quick) e quiet x
  refine ⟨table, status', hold, fun status => ?_, fun status y value => ?_⟩
  · rw [show c' = _ from good_invalid (c := closedSender c r next quick) status quiet x]
    exact ⟨rfl, rfl, rfl⟩
  · have shown : c' = _ := good_shown (c := closedSender c r next quick) (e := e) status value quiet x
    have iff := counts_iff (c := closedSender c r next quick) (e := e) quiet x y
    have fault : c'.fault = c.fault := by
      rw [shown]
      split_ifs <;> rfl
    refine ⟨fault, fun counts few => ?_, fun counts many => ?_, fun other => ?_⟩
    · have run : (closedSender c r next quick).quick = c.quick := kept counts.2.2.1
      rw [shown, if_pos (iff.mpr counts), run, if_neg (by omega)]
      exact ⟨rfl, rfl⟩
    · have run : (closedSender c r next quick).quick = c.quick := kept counts.2.2.1
      rw [shown, if_pos (iff.mpr counts), run, if_pos (by omega)]
      exact ⟨rfl, rfl⟩
    · rw [shown, if_neg fun counts => other (iff.mp counts)]
      exact ⟨rfl, rfl⟩

end Sender

theorem cycle_motion (s : State) :
    (publishGauge (gaugeEvent (afterRoad s))).pulse.motion = (afterRoad s).pulse.motion := by
  have engine : ∀ u : State, (evaluateEngine u).pulse.motion = u.pulse.motion := fun u =>
    (enginePulse_road u.time.now (pulseParams u.image) u.pulse).2.2.2.2.2.1
  simp [gaugeEvent, engine]

/-- A sender of a cycle by its closed channel, with the crank hold, the entry and the motion state of the cycle. -/
theorem cycle_sender (s : State) (n : Fin 5) {k : Channel}
    (group : closed (evaluateEngine (afterRoad s)) n.castSucc = k) :
    let t := publishGauge (gaugeEvent (afterRoad s))
    t.analog.channels[n.castSucc] =
      if s.analog.crankHold = true ∨ t.analog.crankHold = true then { k with quick := 0 }
      else k.judge (senderEntry s.image n) t.time.now (decide (t.pulse.motion = .standstill) && ignitionOn s) := by
  intro t
  have analog := cycle_analog s
  have sender := judgeAnalog_sender (evaluateEngine (afterRoad s)) n
  have crank : (evaluateEngine (afterRoad s)).analog.crankHold = s.analog.crankHold := by simp [afterRoad]
  have image : (evaluateEngine (afterRoad s)).image = s.image := by simp [afterRoad]
  have motion : (evaluateEngine (afterRoad s)).pulse.motion = t.pulse.motion := by simp [t, gaugeEvent]
  have now : (evaluateEngine (afterRoad s)).time.now = t.time.now := by simp [t, gaugeEvent]
  have ignition : ignitionOn (evaluateEngine (afterRoad s)) = ignitionOn s := by
    have lines : (evaluateEngine (afterRoad s)).sense = s.sense := by simp [afterRoad]
    rw [ignitionOn, lineState, lines, ignitionOn, lineState]
  rw [crank, image, motion, now, ignition, ← analog, group] at sender
  exact sender

/-- What a sender's cycle makes of its closed channel, held by supply or judged. -/
theorem sender_outcome {c c' : Channel} {e : SenderEntry} {r quick now : Nat} {next : Nat × Nat} {held : Prop} [Decidable held]
    {quiet : Bool} (outcome : c' = if held then { closedSender c r next quick with quick := 0 }
      else (closedSender c r next quick).judge e now quiet) :
    c'.mean = some r ∧ (c'.sum, c'.count) = next ∧ c'.late = none := by
  subst outcome
  by_cases free : held
  · rw [if_pos free]
    exact ⟨rfl, rfl, rfl⟩
  · rw [if_neg free, closedSender_judge]
    split
    · obtain ⟨mean, sum, count, late, -, -⟩ := fault_rest (closedSender c r next quick) e now
      rw [mean, sum, count, late]
      exact ⟨rfl, rfl, rfl⟩
    · obtain ⟨mean, sum, count, late, -⟩ := good_rest (closedSender c r next quick) e quiet (tableValue e.table r)
      rw [mean, sum, count, late]
      exact ⟨rfl, rfl, rfl⟩

/-- Settles O16: a sender held by supply, a fault cycle, and a good cycle. -/
theorem gaugeCycleJudgesSenders : Obligations.GaugeCycleJudgesSenders := by
  intro s n i g some_
  refine ⟨_, exec_gaugeCycle_road s, ?_⟩
  have mean : groupMean i (openGroup s i n.castSucc).1 (openGroup s i n.castSucc).2 = (g.1 + g.2 / 2) / g.2 :=
    groupMean_some some_
  have group := closed_cycle s n.castSucc
  dsimp only at group
  rw [← cycle_motion s] at group
  have sender := cycle_sender s n group
  dsimp only at sender
  generalize publishGauge (gaugeEvent (afterRoad s)) = t at group sender ⊢
  intro c c' e r held bad x
  rw [mean] at sender
  have whole : c' = if held then
      { closedSender c r (nextGroup s i n.castSucc)
          (if s.pulse.motion = .standstill ∧ t.pulse.motion ≠ .standstill then 0 else c.quick) with quick := 0 }
      else (closedSender c r (nextGroup s i n.castSucc)
          (if s.pulse.motion = .standstill ∧ t.pulse.motion ≠ .standstill then 0 else c.quick)).judge e t.time.now
        (decide (t.pulse.motion = .standstill) && ignitionOn s) := sender
  clear sender group mean
  generalize nextGroup s i n.castSucc = next at whole ⊢
  obtain ⟨mean, group, late⟩ := sender_outcome whole
  have quiet : (decide (t.pulse.motion = .standstill) && ignitionOn s) = true →
      (if s.pulse.motion = .standstill ∧ t.pulse.motion ≠ .standstill then 0 else c.quick) = c.quick := by
    intro still
    rw [Bool.and_eq_true, decide_eq_true_eq] at still
    exact if_neg fun ⟨_, left⟩ => left still.1
  refine ⟨mean, group, late, fun hold => ?_, fun free faulty => ?_, fun free fine => ?_⟩
  · rw [whole, if_pos hold]
    exact ⟨rfl, rfl, rfl, rfl, rfl, rfl⟩
  · rw [if_neg free, closedSender_judge, if_pos faulty] at whole
    rw [whole]
    exact closedSender_fault c r next _
  · rw [if_neg free, closedSender_judge, if_neg fine] at whole
    rw [whole]
    obtain ⟨table, status, hold, invalid, shown⟩ := closedSender_good (e := e) c r next _ _ x quiet
    refine ⟨table, status, hold, invalid, fun valid y value => ?_⟩
    obtain ⟨fault, few, many, other⟩ := shown valid y value
    have same : (e.margin ≠ 0 ∧ c.status = .valid ∧ t.pulse.motion = .standstill ∧ ignitionOn s = true ∧
        e.margin < (x - y).natAbs) ↔ (e.margin ≠ 0 ∧ c.status = .valid ∧
        (decide (t.pulse.motion = .standstill) && ignitionOn s) = true ∧ e.margin < (x - y).natAbs) := by
      simp only [Bool.and_eq_true, decide_eq_true_eq, and_assoc]
    exact ⟨fault, fun counts => few (same.mp counts), fun counts => many (same.mp counts),
      fun counts => other fun c => counts (same.mpr c)⟩

end Sys2Proof.Proofs

/-! The onset of a warning whose timer has expired: the list, the buzzer and the images. -/

namespace Sys2Proof.Proofs

open Sys2Proof Sys2Proof.Machine Sys2Proof.Safety

/-! ## The buzzer arbiter -/

theorem stopDemand_iff (s : State) : stopDemand s = true ↔ stopCalls s := by
  simp [stopDemand, stopCalls, and_assoc]

theorem resume_stopped (a : Arbiter) (now : Nat) : a.resume now = repeatStopped now a := by
  unfold Arbiter.resume repeatStopped
  cases a.pending <;> rfl

/-- The arbiter follows the STOP repeating flag (R106). -/
theorem follow_follows (a : Arbiter) (now : Nat) {demand : Bool} {calls : Prop} (h : demand = true ↔ calls) :
    repeatFollows now calls a (a.follow now demand) := by
  unfold Arbiter.follow
  refine ⟨fun c silent => ?_, fun c sounding => ?_, fun c silent => ?_, fun c sounding => ?_⟩
  · rw [if_pos (h.mpr c), silent]
    rfl
  · rw [if_pos (h.mpr c), if_pos (Option.isSome_iff_ne_none.mpr sounding)]
  · rw [if_neg fun d => c (h.mp d), silent]
    rfl
  · rw [if_neg fun d => c (h.mp d), if_pos (Option.isSome_iff_ne_none.mpr sounding), resume_stopped]

/-- The arbiter takes a burst request (R107). -/
theorem request_taken (a : Arbiter) (now : Nat) (c : BurstClass) : burstTaken now c a (a.request now c) := by
  unfold Arbiter.request
  refine ⟨fun silent still => ?_, fun busy => ?_⟩
  · rw [if_pos (by simp [silent, still])]
    rfl
  · have sounds : ¬ (a.repeatTimer.isNone = true ∧ a.current.isNone = true) := by
      simpa [or_iff_not_imp_left] using busy
    rw [if_neg sounds]
    cases waits : a.pending with
    | none => rfl
    | some p =>
      cases a
      cases p <;> cases c <;> simp_all [BurstClass.rank]

/-- What an onset makes of the arbiter is what it asks of the buzzer, its occurrence and the abort of a test
beside (R98). -/
theorem onset_arbiter (w : Fin 48) (s : State) :
    (onset w s).out.arbiter = (onsetBuzz (warningDef s.image w) (enterList w s)).out.arbiter := by
  have begun : (onsetBegun w s).out.arbiter = (onsetBuzz (warningDef s.image w) (enterList w s)).out.arbiter := by
    unfold onsetBegun
    dsimp only
    split
    · simp
    · rfl
  rw [onset_eq]
  split
  · rw [← begun]
    simp
  · exact begun

/-- What an onset asks of the arbiter, by its class and chime (R98, R105 to R107). -/
theorem onset_buzzes (w : Fin 48) (s : State) :
    let d := warningDef s.image w
    let now := s.time.now
    (d.cls = .stop → repeatFollows now (stopCalls (onset w s)) s.out.arbiter (onset w s).out.arbiter) ∧
    (d.cls = .stop → d.chime = true → stopCalls (onset w s)) ∧
    (d.cls ≠ .stop → d.chime = false → (onset w s).out.arbiter = s.out.arbiter) ∧
    (d.cls = .caution → d.chime = true → burstTaken now .caution s.out.arbiter (onset w s).out.arbiter) ∧
    (d.cls = .info → d.chime = true → burstTaken now .info s.out.arbiter (onset w s).out.arbiter) := by
  intro d now
  have image : (onset w s).image = s.image := by simp
  have calls : stopDemand (enterList w s) = true ↔ stopCalls (onset w s) := by
    rw [stopDemand_iff, stopCalls, stopCalls, onset_warn, image]
    simp
  have out : (enterList w s).out = s.out := by simp
  have time : (enterList w s).time = s.time := by simp
  rw [onset_arbiter]
  refine ⟨fun stop => ?_, fun stop chime => ⟨w, ?_, by rwa [image], by rwa [image]⟩, fun other quiet => ?_,
    fun caution chime => ?_, fun info chime => ?_⟩
  · have asked : onsetBuzz (warningDef s.image w) (enterList w s) = syncRepeat (enterList w s) := by
      rw [onsetBuzz, show (warningDef s.image w).cls = .stop from stop]
    rw [asked, syncRepeat, setArbiter, out, time]
    exact follow_follows _ _ calls
  · rw [onset_warn, enterList_warn]
    exact congrArg Warning.state (putWarning_self w _)
  · have asked : onsetBuzz (warningDef s.image w) (enterList w s) = enterList w s := by
      have no : ¬ (warningDef s.image w).chime = true := Bool.eq_false_iff.mp quiet
      unfold onsetBuzz
      cases cls : (warningDef s.image w).cls with
      | stop => exact absurd cls other
      | caution => exact if_neg no
      | info => exact if_neg no
    rw [asked, out]
  · have asked : onsetBuzz (warningDef s.image w) (enterList w s) = requestBurst .caution (enterList w s) := by
      rw [onsetBuzz, show (warningDef s.image w).cls = .caution from caution]
      exact if_pos chime
    rw [asked, requestBurst, setArbiter, out, time]
    exact request_taken _ _ _
  · have asked : onsetBuzz (warningDef s.image w) (enterList w s) = requestBurst .info (enterList w s) := by
      rw [onsetBuzz, show (warningDef s.image w).cls = .info from info]
      exact if_pos chime
    rw [asked, requestBurst, setArbiter, out, time]
    exact request_taken _ _ _

/-! ## The list -/

/-- A warning with an onset stands after the higher classes and before the rest, the others in their order (R99). -/
theorem insertOnset_splits (rank : Fin 48 → Nat) (w : Fin 48) (l : List (Fin 48)) : ∃ a b,
    insertOnset rank w l = a ++ w :: b ∧ a ++ b = l ∧ (∀ v ∈ a, rank v < rank w) ∧
      ∀ v, b.head? = some v → rank w ≤ rank v := by
  refine ⟨_, _, rfl, List.takeWhile_append_dropWhile, fun v mem => by simpa using List.mem_takeWhile_imp mem,
    fun v head => ?_⟩
  have first := List.head?_dropWhile_not (fun v => decide (rank v < rank w)) l
  rw [head] at first
  simpa using first

/-- An onset of a PENDING warning changes the list's entries. -/
theorem listFields_onset {w : Fin 48} {s : State} (h : s.warn.warnings[w].state = .pending) :
    listFields s ≠ listFields (onset w s) := by
  have entry : ∀ (t : State) (f : List Byte), f ∈ listFields t → f[0]? = some (byte w.val) →
      f[1]? = some (byte ((warningDef t.image w).cls.code + 4 * t.warn.warnings[w].state.code)) := by
    intro t f mem own
    obtain ⟨v, -, rfl⟩ := List.mem_map.mp mem
    obtain rfl : v = w := by
      have same := Option.some.inj own
      have := congrArg BitVec.toNat same
      simp only [byte, BitVec.toNat_ofNat] at this
      omega
    rfl
  have there : [byte w.val, byte ((warningDef s.image w).cls.code + 4 * WarnState.activeUnack.code),
      byte s.warn.nextNumber] ∈ listFields (onset w s) := by
    refine List.mem_map.mpr ⟨w, ?_, ?_⟩
    · rw [onset_warn, enterList_warn]
      exact List.mem_append_right _ List.mem_cons_self
    · rw [onset_warn, enterList_warn]
      simp [putWarning]
  intro same
  rw [← same] at there
  have code := entry s _ there rfl
  rw [h] at code
  simp only [List.getElem?_cons_succ, List.getElem?_cons_zero, Option.some.injEq] at code
  have value := congrArg BitVec.toNat code
  simp only [byte, BitVec.toNat_ofNat, WarnState.code] at value
  have : (warningDef s.image w).cls.code < 3 := by cases (warningDef s.image w).cls <;> decide
  omega

/-! ## The onset published -/

theorem onset_reachWarnings (w : Fin 48) (s : State) : Reach warningAreas warningNotices s (publish s (onset w s)) := by
  refine ((onset_reach w s).mono (by simp) (by simp [testNotices, warningNotices])).trans
    (publish_reachWarnings ?_ ?_ ?_ ?_)
  · exact senseBytes_congr (by simp) (by simp)
  · exact doorFields_congr (by simp) (by simp)
  · exact doorBytes_congr (by simp) (by simp)
  · simp

theorem onset_beside (w : Fin 48) (s : State) : besideWarnings (publish s (onset w s)) = besideWarnings s := by
  have ops : { (publish s (onset w s)).win.ops with test := WindowOp.idle } = { s.win.ops with test := .idle } := by
    obtain e | e := (onset_reachWarnings w s).op <;> rw [e]
  refine besideWarnings_eq ?_ ?_ ?_ ?_ ?_ ?_ ?_ ?_ ?_ ?_ ?_ ops ?_ ?_ ?_ <;> simp [besideReply]

/-- A test's result lies in a slot, below the images. -/
theorem slotResult_low {op : WindowOp} {r : Area} (h : r ∈ slotResultArea op) : r.1 + r.2 ≤ 0x0300 := by
  cases op with
  | slot n =>
    obtain rfl : r = (slotBase n + 3, 2) := by simpa [slotResultArea] using h
    have base : slotBase n = 0x0100 + 64 * n.val := rfl
    dsimp only
    omega
  | idle => simp [slotResultArea] at h
  | orphan => simp [slotResultArea] at h

/-- An event that leaves the list image alone until it is published rewrites it from the bytes before it. -/
theorem listImage_written {s u : State} {may : List Notice} (reach : Reach [] may s u)
    (h : listFields s ≠ listFields u) : imageWritten listArea (listBytes (publish s u)) s (publish s u) := by
  have same : listBytes (publish s u) = listBytes u := listBytes_congr (by simp) (by simp)
  rw [same]
  refine imageWritten_congr (by simp [listArea]) (fun a low high => ?_)
    (publishAll_list (b := s) (s := u) (f := false) false (.inr (.inl h))) fun _ _ _ => rfl
  simp only [listArea] at low
  exact reach.ram a fun r mem => .inr ((slotResult_low mem).trans (by omega))

theorem exec_onsetTimerExpiry {w : Fin 48} {s : State} (state : s.warn.warnings[w].state = .pending)
    (due : expired s.warn.warnings[w].timer = true) :
    exec (.onsetTimerExpiry w) s = .next (publish s (onset w s)) := by
  have run : exec (.onsetTimerExpiry w) s = .next (publish s (onsetExpiry w s)) := rfl
  rw [run, onsetExpiry]
  rw [if_pos ⟨state, due⟩]

/-- Settles O22: the onset's own warning, its place in the list, what it asks of the buzzer, and its images. -/
theorem onsetTimerExpiryIsOnset : Obligations.OnsetTimerExpiryIsOnset := by
  intro s w x rank
  have ranks : rank = classRank s := by
    funext v
    simp only [rank, classRank]
    cases (warningDef s.image v).cls <;> rfl
  refine ⟨fun idle => ?_, fun state due => ?_⟩
  · have run : exec (.onsetTimerExpiry w) s = .next (publish s (onsetExpiry w s)) := rfl
    have still : ¬ (s.warn.warnings[w].state = .pending ∧ expired s.warn.warnings[w].timer = true) := fun both =>
      idle.elim (fun other => other both.1) fun early => Bool.eq_false_iff.mp early both.2
    rw [run, onsetExpiry]
    rw [if_neg still, publish_self]
  · have changed := listFields_onset state
    have unit : (publish s (onset w s)).warn = (enterList w s).warn := by rw [← onset_warn]; simp
    have test : (publish s (onset w s)).out.test = (onset w s).out.test := by simp
    have link : (publish s (onset w s)).link = (onset w s).link := by simp
    have calls : stopCalls (publish s (onset w s)) ↔ stopCalls (onset w s) := by simp [stopCalls]
    have arbiter : (publish s (onset w s)).out.arbiter = (onset w s).out.arbiter := by simp
    refine ⟨_, exec_onsetTimerExpiry state due, ?_, ?_, ?_, ?_, fun stop => ?_, fun other => ?_, ?_,
      listImage_written (onset_reach w s) changed, onset_beside w s,
      reach_warning (onset_reachWarnings w s) rfl rfl rfl⟩
    · rw [unit, enterList_warn]
      rfl
    · rw [unit, enterList_warn]
    · rw [unit, enterList_warn, ranks]
      exact insertOnset_splits _ _ _
    · rw [publish, publishAll_notice]
      simp [changed]
    · rw [test, onset_eq, if_pos stop]
      exact abortTest_test _ _
    · rw [test, link, onset_eq, if_neg other]
      simp
    · intro d now
      obtain ⟨stop, chimed, quiet, caution, info⟩ := onset_buzzes w s
      exact ⟨fun c => by rw [calls, arbiter]; exact stop c, fun c chime => calls.mpr (chimed c chime),
        fun c chime => arbiter.trans (quiet c chime), fun c chime => by rw [arbiter]; exact caution c chime,
        fun c chime => by rw [arbiter]; exact info c chime⟩

end Sys2Proof.Proofs

/-! Fault records: an occurrence counted into its record, and a record made for a code without one. -/

namespace Sys2Proof.Proofs

open Sys2Proof Sys2Proof.Machine Sys2Proof.Safety

section Records

variable {s : State}

/-! ## Places, their jobs and the header's -/

/-- A place that changes takes its content and has its job enqueued (R131). -/
theorem setPlace_changes {i : Fin 40} {p : Place} (h : s.faults.places[i] ≠ p) :
    (setPlace i p s).faults.places = s.faults.places.set i.val p i.isLt ∧
    (setPlace i p s).store.queue = addJob s.store.queue (.place i) := by
  rw [setPlace, if_neg h, enqueue_store]
  exact ⟨rfl, rfl⟩

theorem headerJob_queue (b u : State) : (headerJob b u).store.queue =
    if recordCount b = recordCount u ∧ b.faults.overflow = u.faults.overflow then u.store.queue
    else addJob u.store.queue .header := by
  unfold headerJob
  split
  · rfl
  · rw [enqueue_store]

theorem headerJob_same {b u : State} (count : recordCount b = recordCount u)
    (overflow : b.faults.overflow = u.faults.overflow) : headerJob b u = u := if_pos ⟨count, overflow⟩

theorem recordCount_eq (s : State) : recordCount s = s.faults.places.countP Place.isStored := by
  rw [recordCount, ← List.countP_eq_length_filter, ← Vector.countP_toList]

/-- A record that replaces another leaves their number. -/
theorem recordCount_replaced {u : State} {i : Fin 40} {p : Place} (old : s.faults.places[i].isStored = true)
    (stored : p.isStored = true) (h : u.faults.places = s.faults.places.set i.val p i.isLt) :
    recordCount s = recordCount u := by
  have some : 0 < s.faults.places.countP Place.isStored :=
    Vector.countP_pos_iff.mpr ⟨_, Vector.getElem_mem i.isLt, old⟩
  have old' : s.faults.places[i.val].isStored = true := old
  rw [recordCount_eq, recordCount_eq, h, Vector.countP_set _, stored, old']
  simp only [if_true]
  omega

/-- A record in a FREE place is one more. -/
theorem recordCount_filled {u : State} {i : Fin 40} {p : Place} (free : s.faults.places[i] = .free)
    (stored : p.isStored = true) (h : u.faults.places = s.faults.places.set i.val p i.isLt) :
    recordCount u = recordCount s + 1 := by
  have free' : s.faults.places[i.val].isStored = false := congrArg Place.isStored free
  rw [recordCount_eq, recordCount_eq, h, Vector.countP_set _, stored, free']
  simp

/-! ## A further occurrence (R128) -/

theorem placeOf_eq {w : Fin 48} {i : Fin 40} {r : FaultRecord} (held : s.faults.places[i] = .stored r)
    (code : r.code = w)
    (unique : ∀ (j : Fin 40) (q : FaultRecord), s.faults.places[j] = .stored q → q.code = w → j = i) :
    placeOf s w = some i := by
  cases found : placeOf s w with
  | none => exact absurd code ((placeOf_none w).mp found i r held)
  | some j =>
    obtain ⟨q, held', code'⟩ := placeOf_some found
    rw [unique j q held' code']

theorem takeOccurrence_views (w : Fin 48) (x : Byte) (s : State) :
    (takeOccurrence w x s).faults.viewEvents = s.faults.viewEvents := by
  unfold takeOccurrence makeRecord
  (repeat' split) <;> simp

theorem occurrence_counted (w : Fin 48) (x : Byte) (s : State) : recordCounted s w
    (occurrence w x s).faults.places (occurrence w x s).faults.overflow (occurrence w x s).store.queue := by
  intro i r held code unique counted
  have taken : takeOccurrence w x s = setPlace i (.stored counted) s := by
    rw [takeOccurrence, placeOf_eq held code unique]
    simp only [held]
    rfl
  have header : headerJob s (setPlace i (.stored counted) s) = setPlace i (.stored counted) s := by
    refine headerJob_same ?_ (by simp)
    unfold setPlace
    split
    · rfl
    · exact recordCount_replaced (by rw [held]; rfl) rfl (by rw [enqueue_store]; rfl)
  have result : occurrence w x s = noteView (setPlace i (.stored counted) s) := by rw [occurrence, taken, header]
  have kept : (setPlace i (.stored counted) s).faults.overflow = s.faults.overflow := by simp
  rw [result]
  by_cases same : counted = r
  · have still : setPlace i (.stored counted) s = s := if_pos (by rw [held, same])
    rw [if_pos same, still, same, ← held]
    simp [noteView]
  · have changes := setPlace_changes (s := s) (i := i) (p := .stored counted)
      (by rw [held]; exact fun e => same (Place.stored.inj e).symm)
    rw [if_neg same]
    exact ⟨changes.1, kept, changes.2⟩

/-! ## A new record (R129) -/

theorem freePlace_eq {i : Fin 40} (free : s.faults.places[i] = .free)
    (lowest : ∀ j : Fin 40, j < i → s.faults.places[j] ≠ .free) : freePlace s = some i := by
  cases found : freePlace s with
  | none => simpa [free] using List.find?_eq_none.mp found i (List.mem_finRange i)
  | some j =>
    have isFree : s.faults.places[j] = .free := by simpa using List.find?_some found
    obtain ⟨-, before, after, split, none⟩ := List.find?_eq_some_iff_append.mp found
    have sorted := List.pairwise_lt_finRange 40
    rw [split] at sorted
    have mem : i ∈ before ++ j :: after := split ▸ List.mem_finRange i
    rw [List.mem_append, List.mem_cons] at mem
    obtain early | rfl | late := mem
    · simpa [free] using none i early
    · rfl
    · have := (List.pairwise_cons.mp (List.pairwise_append.mp sorted).2.1).1 i late
      exact absurd isFree (lowest j this)

theorem freePlace_none (full : ∀ i : Fin 40, s.faults.places[i] ≠ .free) : freePlace s = none :=
  List.find?_eq_none.mpr fun i _ => by simpa using full i

/-- One place considered for giving way. -/
def considered (s : State) (best : Option (Fin 40 × FaultRecord)) (i : Fin 40) : Option (Fin 40 × FaultRecord) :=
  match s.faults.places[i] with
  | .stored r =>
    if r.active then best
    else
      match best with
      | none => some (i, r)
      | some b => if r.before b.2 then some (i, r) else best
  | _ => best

theorem passivePlace_eq (s : State) : passivePlace s = (List.finRange 40).foldl (considered s) none := rfl

/-- A place that is a candidate for giving way. -/
def passive (s : State) (i : Fin 40) (r : FaultRecord) : Prop := s.faults.places[i] = .stored r ∧ r.active = false

theorem considered_or (s : State) (best : Option (Fin 40 × FaultRecord)) (i : Fin 40) :
    considered s best i = best ∨ ∃ r, passive s i r ∧ considered s best i = some (i, r) := by
  unfold considered
  split
  next r held =>
    split
    · exact .inl rfl
    next quiet =>
      have candidate : passive s i r := ⟨held, Bool.eq_false_iff.mpr quiet⟩
      split
      · exact .inr ⟨r, candidate, rfl⟩
      · split
        · exact .inr ⟨r, candidate, rfl⟩
        · exact .inl rfl
  · exact .inl rfl

/-- Whatever gives way of a list of places is one of its candidates. -/
theorem considered_candidate (s : State) (l : List (Fin 40)) :
    ∀ b : Fin 40 × FaultRecord, b ∈ l.foldl (considered s) none → b.1 ∈ l ∧ passive s b.1 b.2 := by
  refine List.foldlRecOn (motive := fun best => ∀ b : Fin 40 × FaultRecord, b ∈ best → b.1 ∈ l ∧ passive s b.1 b.2) _ _
    (fun b mem => by cases mem) fun best ih i mem b found => ?_
  obtain same | ⟨r, candidate, chosen⟩ := considered_or s best i
  · exact ih b (same ▸ found)
  · rw [chosen] at found
    obtain rfl := Option.mem_some_iff.mp found
    exact ⟨mem, candidate⟩

/-- A candidate stays the choice over places of which none comes before it. -/
theorem considered_keeps {i : Fin 40} {r : FaultRecord} (l : List (Fin 40))
    (least : ∀ j ∈ l, ∀ q, passive s j q → q.before r = false) :
    l.foldl (considered s) (some (i, r)) = some (i, r) := by
  refine List.foldlRecOn (motive := fun best => best = some (i, r)) _ _ rfl fun best ih j mem => ?_
  obtain same | ⟨q, ⟨held, quiet⟩, -⟩ := considered_or s best j
  · exact same.trans ih
  · rw [ih, considered, held]
    simp [quiet, least j mem q ⟨held, quiet⟩]

/-- The PASSIVE record that gives way (R129). -/
theorem passivePlace_best {i : Fin 40} {r : FaultRecord} (own : passive s i r)
    (best : ∀ (j : Fin 40) (q : FaultRecord), passive s j q → j ≠ i →
      (j < i → r.before q = true) ∧ (i < j → q.before r = false)) : passivePlace s = some (i, r) := by
  obtain ⟨before, after, split⟩ := List.append_of_mem (List.mem_finRange i)
  have sorted := List.pairwise_lt_finRange 40
  rw [split] at sorted
  obtain ⟨-, later, earlier⟩ := List.pairwise_append.mp sorted
  have later' := (List.pairwise_cons.mp later).1
  rw [passivePlace_eq, split, List.foldl_append, List.foldl_cons]
  have taken : considered s (before.foldl (considered s) none) i = some (i, r) := by
    have candidates := considered_candidate s before
    rw [considered, own.1]
    cases first : before.foldl (considered s) none with
    | none => simp [own.2]
    | some b =>
      obtain ⟨mem, candidate⟩ := candidates b (by rw [first]; rfl)
      have lower := earlier b.1 mem i List.mem_cons_self
      simp [own.2, (best b.1 b.2 candidate lower.ne).1 lower]
  rw [taken]
  exact considered_keeps after fun j mem q candidate =>
    (best j q candidate (later' j mem).ne').2 (later' j mem)

theorem passivePlace_none (active : ∀ (i : Fin 40) (q : FaultRecord), s.faults.places[i] = .stored q → q.active = true) :
    passivePlace s = none := by
  rw [passivePlace_eq]
  cases found : (List.finRange 40).foldl (considered s) none with
  | none => rfl
  | some b =>
    obtain ⟨-, held, quiet⟩ := considered_candidate s _ b (by rw [found]; rfl)
    exact absurd (active b.1 b.2 held) (by simp [quiet])

/-- A record made, with the header's job where the record count or the overflow count changed (R129, R131). -/
theorem makeRecord_made (w : Fin 48) (s : State) (small : s.faults.overflow ≤ 255) :
    let t := headerJob s (makeRecord w (warningDef s.image w).code s)
    recordMade s w t.faults.places t.faults.overflow t.store.queue := by
  have filled : ∀ i : Fin 40, s.faults.places[i] = .free ∨ (∃ r, passive s i r) →
      s.faults.places[i] ≠ .stored (newRecord w (warningDef s.image w).code s) := by
    rintro i (free | ⟨r, held, quiet⟩) same
    · rw [free] at same
      cases same
    · rw [held] at same
      have := congrArg FaultRecord.active (Place.stored.inj same)
      rw [quiet] at this
      cases this
  refine ⟨fun i free lowest => ?_, fun i r full held quiet best => ?_, fun full active => ?_⟩
  · obtain ⟨places, queue⟩ := setPlace_changes (filled i (.inl free))
    have made : makeRecord w (warningDef s.image w).code s =
        setPlace i (.stored (newRecord w (warningDef s.image w).code s)) s := by
      rw [makeRecord, freePlace_eq free lowest]
    have more := recordCount_filled (s := s) free rfl places
    rw [made]
    refine ⟨?_, ?_, ?_⟩
    · rw [(headerJob_frame _ _).2.2.2.2.2.2.2.2.1, places]
      rfl
    · simp
    · rw [headerJob_queue, if_neg (by omega), queue]
  · have own : passive s i r := ⟨held, quiet⟩
    obtain ⟨places, queue⟩ := setPlace_changes (filled i (.inr ⟨r, own⟩))
    have chosen : passivePlace s = some (i, r) := by
      refine passivePlace_best own fun j q candidate other => ?_
      have order := best j q candidate.1 candidate.2 other
      simp only [FaultRecord.before, Bool.or_eq_true, Bool.and_eq_true, decide_eq_true_eq, Bool.or_eq_false_iff,
        Bool.and_eq_false_iff, decide_eq_false_iff_not]
      omega
    have made : makeRecord w (warningDef s.image w).code s =
        setPlace i (.stored (newRecord w (warningDef s.image w).code s)) s := by
      rw [makeRecord, freePlace_none full, chosen]
    rw [made]
    refine ⟨?_, ?_, ?_⟩
    · rw [(headerJob_frame _ _).2.2.2.2.2.2.2.2.1, places]
      rfl
    · simp
    · rw [headerJob_same (recordCount_replaced (by rw [held]; rfl) rfl places) (by simp), queue]
  · have made : makeRecord w (warningDef s.image w).code s =
        { s with faults := { s.faults with overflow := min (s.faults.overflow + 1) 255 } } := by
      rw [makeRecord, freePlace_none full, passivePlace_none active]
    rw [made]
    refine ⟨?_, ?_, ?_⟩
    · rw [(headerJob_frame _ _).2.2.2.2.2.2.2.2.1]
    · rw [(headerJob_frame _ _).2.2.2.2.2.2.2.2.1]
    · have count : recordCount s =
          recordCount { s with faults := { s.faults with overflow := min (s.faults.overflow + 1) 255 } } := rfl
      rw [headerJob_queue]
      by_cases room : s.faults.overflow < 255
      · rw [if_pos room, if_neg fun both => by have := both.2; dsimp only at this; omega]
      · rw [if_neg room, if_pos ⟨count, by dsimp only; omega⟩]

/-- An occurrence of a code with no record makes one. -/
theorem occurrence_made {w : Fin 48} (small : s.faults.overflow ≤ 255) (new : unrecorded s w) :
    let t := occurrence w (warningDef s.image w).code s
    recordMade s w t.faults.places t.faults.overflow t.store.queue := by
  have result : occurrence w (warningDef s.image w).code s =
      noteView (headerJob s (makeRecord w (warningDef s.image w).code s)) := by
    rw [occurrence, takeOccurrence, (placeOf_none w).mpr new]
  rw [result]
  exact makeRecord_made w s small

end Records

/-! ## An occurrence by the onset timer -/

section Onset

variable (w : Fin 48) (s : State)

/-- An onset's records are those of its occurrence. -/
theorem onset_records (h : (warningDef s.image w).record = true) :
    (onset w s).faults = (occurrence w (warningDef s.image w).code
      (onsetBuzz (warningDef s.image w) (enterList w s))).faults ∧
    (onset w s).store = (occurrence w (warningDef s.image w).code
      (onsetBuzz (warningDef s.image w) (enterList w s))).store := by
  have begun : onsetBegun w s =
      occurrence w (warningDef s.image w).code (onsetBuzz (warningDef s.image w) (enterList w s)) := if_pos h
  rw [onset_eq, ← begun]
  split
  · simp
  · exact ⟨rfl, rfl⟩

/-- What a record holds is taken from blocks that the list and the buzzer leave. -/
theorem recordMade_congr {s u : State} {w : Fin 48} {places : Vector Place 40} {overflow : Nat} {queue : List Object}
    (pulse : u.pulse = s.pulse) (dist : u.dist = s.dist) (analog : u.analog = s.analog) (door : u.door = s.door)
    (faults : u.faults = s.faults) (store : u.store = s.store) (image : u.image = s.image)
    (h : recordMade u w places overflow queue) : recordMade s w places overflow queue := by
  simpa only [recordMade, shownValue, shownStatus, pulse, dist, analog, door, faults, store, image] using h

/-- The record of an onset by its timer (R98, R128, R129). -/
theorem onset_recorded (h : (warningDef s.image w).record = true) :
    recordCounted s w (onset w s).faults.places (onset w s).faults.overflow (onset w s).store.queue ∧
    (s.faults.overflow ≤ 255 → unrecorded s w →
      recordMade s w (onset w s).faults.places (onset w s).faults.overflow (onset w s).store.queue) := by
  obtain ⟨faults, store⟩ := onset_records w s h
  have faults' : (onsetBuzz (warningDef s.image w) (enterList w s)).faults = s.faults := by simp
  have store' : (onsetBuzz (warningDef s.image w) (enterList w s)).store = s.store := by simp
  have dist' : (onsetBuzz (warningDef s.image w) (enterList w s)).dist = s.dist := by simp
  have image' : (onsetBuzz (warningDef s.image w) (enterList w s)).image = s.image := by simp
  rw [faults, store]
  refine ⟨?_, fun small new => ?_⟩
  · have counted := occurrence_counted w (warningDef s.image w).code
      (onsetBuzz (warningDef s.image w) (enterList w s))
    simpa only [recordCounted, faults', store', dist'] using counted
  · have made := occurrence_made (s := onsetBuzz (warningDef s.image w) (enterList w s)) (w := w)
      (by rwa [faults']) (by simpa only [unrecorded, faults'] using new)
    rw [image'] at made
    exact recordMade_congr (by simp) dist' (by simp) (by simp) faults' store' image' made

/-- An event's fault memory view, where the event counts as one of the view's (R137). -/
theorem faultImage_written {s u : State} {may : List Notice} (reach : Reach [] may s u)
    (h : s.faults.viewEvents ≠ u.faults.viewEvents) :
    imageWritten faultArea (faultBytes (publish s u)) s (publish s u) := by
  have same : faultBytes (publish s u) = faultBytes u := by simp [faultBytes, recordCount]
  rw [same]
  refine imageWritten_congr (by simp [faultArea]) (fun a low high => ?_)
    (publishAll_faults (b := s) (s := u) false false h) fun _ _ _ => rfl
  simp only [faultArea] at low
  exact reach.ram a fun r mem => .inr ((slotResult_low mem).trans (by omega))

/-- Settles O23: the onset's occurrence, counted or made, and the view it rewrites. -/
theorem occurrenceIsRecorded : Obligations.OccurrenceIsRecorded := by
  intro s w state due record
  have views : s.faults.viewEvents ≠ (onset w s).faults.viewEvents := by
    rw [(onset_records w s record).1, occurrence, noteView_viewEvents]
    simp [takeOccurrence_views]
  obtain ⟨counted, made⟩ := onset_recorded w s record
  refine ⟨_, exec_onsetTimerExpiry state due, ?_, faultImage_written (onset_reach w s) views, by simp, ?_, ?_⟩
  · rw [publish, publishAll_notice]
    simp [views]
  · simpa using counted
  · simpa using made

end Onset

end Sys2Proof.Proofs

/-! The take of a clear of the fault memory, of either side. -/

namespace Sys2Proof.Proofs

open Sys2Proof Sys2Proof.Machine Sys2Proof.Safety

/-! ## Re-entry (R136) -/

/-- What a new record is made from stands alike. -/
structure SameRecorded (v s : State) : Prop where
  pulse : v.pulse = s.pulse
  dist : v.dist = s.dist
  analog : v.analog = s.analog
  door : v.door = s.door
  places : v.faults.places = s.faults.places
  overflow : v.faults.overflow = s.faults.overflow
  queue : v.store.queue = s.store.queue
  image : v.image = s.image

section Reentry

variable {s v : State}

theorem SameRecorded.unrecorded (h : SameRecorded v s) (w : Fin 48) : unrecorded v w ↔ unrecorded s w := by
  simp only [Safety.unrecorded, h.places]

theorem SameRecorded.made (h : SameRecorded v s) {w : Fin 48} {places : Vector Place 40} {overflow : Nat}
    {queue : List Object} (made : recordMade v w places overflow queue) : recordMade s w places overflow queue := by
  obtain ⟨pulse, dist, analog, door, samePlaces, sameOverflow, sameQueue, image⟩ := h
  simpa only [recordMade, shownValue, shownStatus, pulse, dist, analog, door, samePlaces, sameOverflow, sameQueue,
    image] using made

theorem makeRecord_overflow (w : Fin 48) (x : Byte) (small : s.faults.overflow ≤ 255) :
    (makeRecord w x s).faults.overflow ≤ 255 := by
  unfold makeRecord
  split
  · simpa using small
  · split
    · simpa using small
    · exact Nat.min_le_right _ _

theorem makeRecord_views (w : Fin 48) (x : Byte) (s : State) :
    (makeRecord w x s).faults.viewEvents = s.faults.viewEvents := by
  unfold makeRecord
  (repeat' split) <;> simp

theorem inScope_iff (scope : Option (Fin 48)) (w : Fin 48) : inScope scope w = true ↔ scope = none ∨ scope = some w := by
  cases scope <;> simp [inScope]

/-- A warning re-enters where it lies in the scope, has record yes and has no record. -/
theorem reenterWarning_eq (scope : Option (Fin 48)) (s : State) (w : Fin 48) [Decidable (unrecorded s w)] :
    reenterWarning scope s w =
      if (scope = none ∨ scope = some w) ∧ (warningDef s.image w).record = true ∧ unrecorded s w then
        headerJob s (makeRecord w (warningDef s.image w).code s) else s := by
  unfold reenterWarning
  dsimp only
  refine if_congr ?_ rfl rfl
  rw [Bool.and_eq_true, Bool.and_eq_true, inScope_iff, Option.isNone_iff_eq_none, placeOf_none, and_assoc]

/-- A list of warnings re-enters as `reentered` says, from any state whose records stand as `s` has them. -/
theorem reenter_reentered (scope : Option (Fin 48)) (l : List (Fin 48)) : ∀ {s v : State}, SameRecorded v s →
    s.faults.overflow ≤ 255 → ∃ u, reentered scope l s u ∧
      (l.foldl (reenterWarning scope) v).faults.places = u.faults.places ∧
      (l.foldl (reenterWarning scope) v).faults.overflow = u.faults.overflow ∧
      (l.foldl (reenterWarning scope) v).store.queue = u.store.queue := by
  classical
  induction l with
  | nil => exact fun {s v} same _ => ⟨s, rfl, same.places, same.overflow, same.queue⟩
  | cons w l ih =>
    intro s v same small
    have image : (warningDef v.image w).record = (warningDef s.image w).record := by rw [same.image]
    let next : State := { s with
      faults := { s.faults with places := (reenterWarning scope v w).faults.places
                                overflow := (reenterWarning scope v w).faults.overflow }
      store := { s.store with queue := (reenterWarning scope v w).store.queue } }
    have nextSame : SameRecorded (reenterWarning scope v w) next :=
      ⟨by simp [next, same.pulse], by simp [next, same.dist], by simp [next, same.analog], by simp [next, same.door],
        rfl, rfl, rfl, by simp [next, same.image]⟩
    have smallV : v.faults.overflow ≤ 255 := same.overflow ▸ small
    have nextSmall : next.faults.overflow ≤ 255 := by
      change (reenterWarning scope v w).faults.overflow ≤ 255
      rw [reenterWarning_eq]
      split
      · rw [(headerJob_frame _ _).2.2.2.2.2.2.2.2.1]
        exact makeRecord_overflow w _ smallV
      · exact smallV
    obtain ⟨u, rest, places, overflow, queue⟩ := ih nextSame nextSmall
    refine ⟨u, ⟨_, _, _, fun enters => ?_, fun stays => ?_, rest⟩, places, overflow, queue⟩
    · rw [← image, ← same.unrecorded w] at enters
      rw [reenterWarning_eq, if_pos enters]
      exact same.made (makeRecord_made w v smallV)
    · rw [← image, ← same.unrecorded w] at stays
      rw [reenterWarning_eq, if_neg stays]
      exact ⟨same.places, same.overflow, same.queue⟩

end Reentry

/-! ## The places a clear erases (R134) -/

section Erase

theorem mem_addJob {q : List Object} {o p : Object} : p ∈ addJob q o ↔ p ∈ q ∨ p = o := by
  unfold addJob
  split
  next there => exact ⟨.inl, fun h => h.elim id fun e => e ▸ there⟩
  · simp

theorem erasePlace_stored {s : State} {i : Fin 40} {q : FaultRecord} (h : s.faults.places[i] = .stored q) :
    (erasePlace s i).faults.places = s.faults.places.set i.val (.erasing q) i.isLt ∧
    (erasePlace s i).store.queue = addJob s.store.queue (.place i) := by
  have erased : erasePlace s i = setPlace i (.erasing q) s := by
    unfold erasePlace
    simp only [h]
  rw [erased]
  exact setPlace_changes (by rw [h]; exact Place.noConfusion)

theorem erasePlace_queue (s : State) (i : Fin 40) : ∀ o ∈ s.store.queue, o ∈ (erasePlace s i).store.queue := by
  intro o mem
  unfold erasePlace
  split
  next q h =>
    have erased : erasePlace s i = setPlace i (.erasing q) s := by
      unfold erasePlace
      simp only [h]
    rw [← erased, (erasePlace_stored h).2]
    exact mem_addJob.mpr (.inl mem)
  · exact mem

theorem erasePlace_other {s : State} {i j : Fin 40} (h : i ≠ j) :
    (erasePlace s i).faults.places[j] = s.faults.places[j] := by
  have apart : i.val ≠ j.val := fun e => h (Fin.ext e)
  cases held : s.faults.places[i] with
  | stored q =>
    rw [(erasePlace_stored held).1]
    simp [apart]
  | free => simp only [erasePlace, held]
  | erasing q => simp only [erasePlace, held]

/-- The STORED places of a list become ERASING with their jobs, and nothing else changes place or leaves the queue. -/
theorem erasePlaces_erase (l : List (Fin 40)) : ∀ s : State, l.Nodup →
    (∀ j ∉ l, (l.foldl erasePlace s).faults.places[j] = s.faults.places[j]) ∧
    (∀ j ∈ l, ∀ q, s.faults.places[j] = .stored q →
      (l.foldl erasePlace s).faults.places[j] = .erasing q ∧
      Object.place j ∈ (l.foldl erasePlace s).store.queue) ∧
    ∀ o ∈ s.store.queue, o ∈ (l.foldl erasePlace s).store.queue := by
  induction l with
  | nil => exact fun s _ => ⟨fun _ _ => rfl, fun j (mem : j ∈ []) => absurd mem (List.not_mem_nil), fun _ mem => mem⟩
  | cons i l ih =>
    intro s nodup
    obtain ⟨new, nodup'⟩ := List.nodup_cons.mp nodup
    obtain ⟨others, erased, kept⟩ := ih (erasePlace s i) nodup'
    refine ⟨fun j out => ?_, fun j mem q held => ?_, fun o mem => kept o (erasePlace_queue s i o mem)⟩
    · obtain ⟨own, out'⟩ := List.ne_and_not_mem_of_not_mem_cons out
      exact (others j out').trans (erasePlace_other (Ne.symm own))
    · obtain rfl | later := List.mem_cons.mp mem
      · obtain ⟨places, queue⟩ := erasePlace_stored held
        refine ⟨?_, kept _ (by rw [queue]; exact mem_addJob.mpr (.inr rfl))⟩
        refine (others j new).trans ?_
        rw [places]
        simp
      · exact erased j later q ((erasePlace_other (by rintro rfl; exact new later)).trans held)

theorem mem_chosenPlaces {scope : Option (Fin 48)} {s : State} {j : Fin 40} :
    j ∈ chosenPlaces scope s ↔ ∃ q, s.faults.places[j] = .stored q ∧ inScope scope q.code = true := by
  unfold chosenPlaces
  rw [List.mem_filter]
  cases s.faults.places[j] <;> simp

theorem takeClear_faults (side : Side) (scope : Option (Fin 48)) (s : State) :
    (takeClear side scope s).faults.places = ((chosenPlaces scope s).foldl erasePlace s).faults.places ∧
    (takeClear side scope s).faults.overflow = (if scope = none then 0 else s.faults.overflow) ∧
    (takeClear side scope s).faults.clear = some { side := side, scope := scope, failed := false
                                                   waits := (chosenPlaces scope s).map (fun i =>
                                                       { object := .place i, started := false }) ++
                                                     [{ object := .header, started := false }] } ∧
    (takeClear side scope s).faults.viewEvents = s.faults.viewEvents + 1 ∧
    (takeClear side scope s).store.queue =
      addJob ((chosenPlaces scope s).foldl erasePlace s).store.queue .header := by
  have views : ((chosenPlaces scope s).foldl erasePlace s).faults.viewEvents = s.faults.viewEvents := by simp
  have overflow : ((chosenPlaces scope s).foldl erasePlace s).faults.overflow = s.faults.overflow := by simp
  unfold takeClear
  dsimp only
  rw [enqueue_store]
  cases scope <;> simp [noteView, setClear, views, overflow]

end Erase

/-! ## The checks (R133) -/

/-- A selector or a code outside its range. -/
def clearBad (selector code : Byte) : Prop := 1 < selector.toNat ∨ (selector = 1 ∧ 48 ≤ code.toNat)

section Checks

variable {selector code : Byte}

theorem clearScope_bad (h : clearBad selector code) : clearScope selector code = none := by
  unfold clearScope
  obtain big | ⟨rfl, big⟩ := h
  · rw [if_neg (by rintro rfl; simp at big), if_neg (by rintro rfl; simp at big)]
  · rw [if_neg (by decide), if_pos rfl, dif_neg (by omega)]

theorem clearScope_good (h : ¬ clearBad selector code) : ∃ scope, clearScope selector code = some scope ∧
    (selector = 0 ↔ scope = none) ∧ (selector = 1 ↔ scope ≠ none) ∧
    (∀ w : Fin 48, scope = some w → w.val = code.toNat) ∧
    ∀ w : Fin 48, inScope scope w = true ↔ selector = 0 ∨ w.val = code.toNat := by
  unfold clearBad at h
  have cases : selector = 0 ∨ selector = 1 := by
    have zero := byte_eq_iff selector (k := 0) (by omega)
    have one := byte_eq_iff selector (k := 1) (by omega)
    obtain none | single | many : selector.toNat = 0 ∨ selector.toNat = 1 ∨ 1 < selector.toNat := by omega
    · exact .inl (zero.mpr none)
    · exact .inr (one.mpr single)
    · exact absurd (.inl many) h
  obtain rfl | rfl := cases
  · exact ⟨none, rfl, by simp, by simp, by simp, by simp [inScope]⟩
  · have small : code.toNat < 48 := by
      by_contra big
      exact h (.inr ⟨rfl, by omega⟩)
    refine ⟨some ⟨code.toNat, small⟩, ?_, by simp, by simp, fun w e => ?_, fun w => ?_⟩
    · rw [clearScope, if_neg (by decide), if_pos rfl, dif_pos small]
    · exact (congrArg Fin.val (Option.some.inj e)).symm
    · simp [inScope, Fin.ext_iff, eq_comm]

/-- The checks of a clear as one chain. -/
theorem clearOperation_eq {side : Side} {u : State} {scope : Option (Fin 48)}
    (named : clearScope selector code = some scope) : clearOperation side selector code u =
      if u.win.claims.faults ≠ sideHolder side then .done .notClaimed 0 u
      else if u.faults.clear ≠ none then .done .busy 0 u
      else if scope ≠ none ∧ ∀ j, j ∉ chosenPlaces scope u then .done .ok 0 (takeEmptyClear scope u)
      else .inFlight (takeClear side scope u) := by
  have empty : clearEmpty scope u = true ↔ scope ≠ none ∧ ∀ j, j ∉ chosenPlaces scope u := by
    rw [clearEmpty, Bool.and_eq_true, Option.isSome_iff_ne_none, List.isEmpty_iff, List.eq_nil_iff_forall_not_mem]
  unfold clearOperation
  simp only [named, not_holdsClaim, empty, Option.isSome_iff_ne_none]
  rfl

end Checks

/-! ## The publication of the view -/

/-- The publication at an event that shows in the fault memory view alone. -/
theorem publish_faultsKept {b u : State} (sense : b.sense = u.sense) (image : b.image = u.image)
    (door : b.door = u.door) (warn : b.warn = u.warn) (out : b.out = u.out) :
    ramKept [faultArea] u (publish b u) ∧ noticesKept [.faultMemoryChanged] u (publish b u) := by
  have only : publish b u = publishFaults false b u := by
    unfold publish publishAll
    rw [publishSense_same b u (senseBytes_congr sense image),
      publishDoor_same b u (doorBytes_congr door image) (doorFields_congr door image),
      publishWarnings_same _ _ (listFields_congr warn image) (listSeconds_congr warn), publishJournal,
      if_pos (by rw [door]), publishOutput_same _ _ (outputBytes_congr (by simp [out]))]
  rw [only]
  refine ⟨fun a outside => publishFaults_outside _ _ _ (by simpa [faultArea] using outside), fun n => ?_⟩
  rw [publishFaults_notice]
  refine ⟨fun set => by simp [set], fun other => ?_⟩
  have apart : Notice.faultMemoryChanged ≠ n := fun e => other (by simp [← e])
  simp [apart]

/-- Two states that differ in the fault memory and the job queue alone. -/
structure RecordsAlone (u t : State) : Prop where
  time : t.time = u.time
  sense : t.sense = u.sense
  pulse : t.pulse = u.pulse
  dist : t.dist = u.dist
  analog : t.analog = u.analog
  door : t.door = u.door
  warn : t.warn = u.warn
  out : t.out = u.out
  array : t.store.array = u.store.array
  job : t.store.job = u.store.job
  notRetained : t.store.notRetained = u.store.notRetained
  configCount : t.store.configCount = u.store.configCount
  link : t.link = u.link
  win : t.win = u.win
  image : t.image = u.image
  pending : t.pending = u.pending

theorem RecordsAlone.eq {u t : State} (h : RecordsAlone u t) : t =
    { u with faults := t.faults, store := { u.store with queue := t.store.queue } } := by
  obtain ⟨time, sense, pulse, dist, analog, door, warn, out, array, job, notRetained, configCount, link, win, image,
    pending⟩ := h
  cases t with
  | mk ttime tsense tpulse tdist tanalog tdoor twarn tout tfaults tstore tlink twin timage tpending =>
    cases tstore
    simp_all

theorem takeClear_alone (side : Side) (scope : Option (Fin 48)) (u : State) : RecordsAlone u (takeClear side scope u) := by
  constructor <;> simp

theorem takeEmptyClear_alone (scope : Option (Fin 48)) (u : State) : RecordsAlone u (takeEmptyClear scope u) := by
  constructor <;> simp

/-! ## The results -/

section Results

variable {s u t : State} {selector code : Byte} {scope : Option (Fin 48)} {side : Side}

/-- The places of a scope erased, with the jobs of their objects and the header's, and the clear in flight (R134). -/
theorem takeClear_cleared (faults : u.faults = s.faults) (queue : u.store.queue = s.store.queue)
    (all : selector = 0 ↔ scope = none) (one : selector = 1 ↔ scope ≠ none)
    (named : ∀ w : Fin 48, scope = some w → w.val = code.toNat)
    (within : ∀ w : Fin 48, inScope scope w = true ↔ selector = 0 ∨ w.val = code.toNat)
    (faultsT : t.faults = (takeClear side scope u).faults)
    (queueT : t.store.queue = (takeClear side scope u).store.queue) :
    let chosen : Fin 40 → Prop := fun j =>
      ∃ q, s.faults.places[j] = .stored q ∧ (selector = 0 ∨ q.code.val = code.toNat)
    (∀ j : Fin 40,
      (∀ q, s.faults.places[j] = .stored q → (selector = 0 ∨ q.code.val = code.toNat) →
        t.faults.places[j] = .erasing q) ∧
      (¬ chosen j → t.faults.places[j] = s.faults.places[j]) ∧
      (chosen j → Object.place j ∈ t.store.queue)) ∧
    Object.header ∈ t.store.queue ∧ (∀ o ∈ s.store.queue, o ∈ t.store.queue) ∧
    t.faults.overflow = (if selector = 0 then 0 else s.faults.overflow) ∧
    (∃ x, t.faults.clear = some x ∧ x.side = side ∧ x.failed = false ∧
      (selector = 0 → x.scope = none) ∧
      (selector = 1 → ∃ w : Fin 48, x.scope = some w ∧ w.val = code.toNat) ∧
      (∀ o, { object := o, started := false } ∈ x.waits ↔ o = .header ∨ ∃ j, chosen j ∧ o = .place j)) := by
  intro chosen
  obtain ⟨places, overflow, clear, -, jobs⟩ := takeClear_faults side scope u
  have picks : ∀ j, j ∈ chosenPlaces scope u ↔ chosen j := fun j => by
    rw [mem_chosenPlaces, faults]
    simp only [within, chosen]
  obtain ⟨others, erased, kept⟩ := erasePlaces_erase (chosenPlaces scope u) u ((List.nodup_finRange 40).filter _)
  rw [faults] at others erased
  rw [queue] at kept
  rw [faultsT, queueT, places, overflow, clear, jobs]
  refine ⟨fun j => ⟨fun q held lies => ?_, fun out => others j fun mem => out ((picks j).mp mem), fun isChosen => ?_⟩,
    mem_addJob.mpr (.inr rfl), fun o mem => mem_addJob.mpr (.inl (kept o mem)), ?_, _, rfl, rfl, rfl, all.mp,
    fun isOne => ?_, fun o => ?_⟩
  · exact (erased j ((picks j).mpr ⟨q, held, lies⟩) q held).1
  · obtain ⟨q, held, lies⟩ := isChosen
    exact mem_addJob.mpr (.inl (erased j ((picks j).mpr ⟨q, held, lies⟩) q held).2)
  · rw [faults]
    exact if_congr all.symm rfl rfl
  · obtain ⟨w, is⟩ := Option.ne_none_iff_exists'.mp (one.mp isOne)
    exact ⟨w, is, named w is⟩
  · simp only [List.mem_append, List.mem_map, List.mem_singleton, picks, ClearWait.mk.injEq, and_true, or_comm, eq_comm]

/-- A clear with nothing to wait on re-enters the listed warning of its code (R136). -/
theorem takeEmptyClear_reenters (same : SameRecorded u s) (list : u.warn.list = s.warn.list)
    (small : s.faults.overflow ≤ 255) : ∃ v, reentered scope s.warn.list s v ∧
      (takeEmptyClear scope u).faults.places = v.faults.places ∧
      (takeEmptyClear scope u).faults.overflow = v.faults.overflow ∧
      (takeEmptyClear scope u).store.queue = v.store.queue := by
  have found := reenter_reentered scope s.warn.list same small
  rw [← list] at found ⊢
  exact found

/-- A record change of a request from a slot, published. -/
theorem faultImage_kept {b u v : State} (alone : RecordsAlone u v) (sense : b.sense = u.sense) (image : b.image = u.image)
    (door : b.door = u.door) (warn : b.warn = u.warn) (out : b.out = u.out) {x : State} (xs : x.sense = v.sense)
    (xi : x.image = v.image) (xd : x.door = v.door) (xw : x.warn = v.warn) (xo : x.out = v.out) :
    ramKept [faultArea] x (publish b x) ∧ noticesKept [.faultMemoryChanged] x (publish b x) :=
  publish_faultsKept (by rw [xs, alone.sense, sense]) (by rw [xi, alone.image, image]) (by rw [xd, alone.door, door])
    (by rw [xw, alone.warn, warn]) (by rw [xo, alone.out, out])

/-- An event counted by the view sets FAULT_MEMORY_CHANGED (R137). -/
theorem publish_faultNotice {b x : State} (h : b.faults.viewEvents ≠ x.faults.viewEvents) :
    noticeSet (publish b x) .faultMemoryChanged = true := by
  rw [publish, publishAll_notice]
  simp [h]

theorem sameRecorded_begin (i : Nat) (n : Fin 8) (s : State) : SameRecorded (beginTake i n s) s := by
  constructor <;> rfl

theorem sameRecorded_service (r : Request) (s : State) : SameRecorded (beginService r s) s := by
  constructor <;> rfl

theorem takeEmptyClear_views (scope : Option (Fin 48)) (u : State) :
    (takeEmptyClear scope u).faults.viewEvents = u.faults.viewEvents + 1 := by
  have each : ∀ (l : List (Fin 48)) (v : State),
      (l.foldl (reenterWarning scope) v).faults.viewEvents = v.faults.viewEvents := fun l => by
    induction l with
    | nil => exact fun _ => rfl
    | cons w l ih =>
      intro v
      refine (ih _).trans ?_
      unfold reenterWarning
      dsimp only
      split
      · simp [makeRecord_views]
      · rfl
  exact congrArg (· + 1) (each u.warn.list u)

/-- Settles O43: the checks in their order, then a clear with jobs to wait on, or one that finds none. -/
theorem clearFaultsIsTaken : Obligations.ClearFaultsIsTaken := by
  intro s inScope chosen bad cleared empty
  refine ⟨fun i n due => ?_, fun r asked => ?_⟩
  · have run : exec (.clearFaults .window) s = .next (publish s (serveSlot .clear n (clearOperation .window
        (slotByte s n 6) (slotByte s n 7) (beginTake i n s)))) := by
      rw [← beginTake_byte s i n (k := 6) (by omega), ← beginTake_byte s i n (k := 7) (by omega)]
      exact congrArg (fun x => Host.Outcome.next (publish s x)) (windowRequest_due due .clear
        fun n s => clearOperation .window (slotByte s n 6) (slotByte s n 7) s)
    refine ⟨_, run, ?_⟩
    generalize slotByte s n 6 = selector
    generalize slotByte s n 7 = code
    dsimp only
    by_cases isBad : bad selector code
    · rw [if_pos isBad, clearOperation, clearScope_bad isBad, serveSlot, (finishSlot_quiet i n _ 0 s).publish]
      exact slotCompletes_begin s i n .badParameter 0
    obtain ⟨scope, named, all, one, code', within⟩ := clearScope_good (selector := selector) (code := code) isBad
    have took : clearOperation .window selector code (beginTake i n s) =
        if s.win.claims.faults ≠ .window then .done .notClaimed 0 (beginTake i n s)
        else if s.faults.clear ≠ none then .done .busy 0 (beginTake i n s)
        else if scope ≠ none ∧ ∀ j, j ∉ chosenPlaces scope s then
          .done .ok 0 (takeEmptyClear scope (beginTake i n s))
        else .inFlight (takeClear .window scope (beginTake i n s)) := clearOperation_eq named
    have picks : (scope ≠ none ∧ ∀ j, j ∉ chosenPlaces scope s) ↔ selector = 1 ∧ ∀ j, ¬ chosen selector code j := by
      simp only [mem_chosenPlaces, within, one, chosen, inScope]
    rw [if_neg isBad]
    by_cases unheld : s.win.claims.faults ≠ .window
    · rw [if_pos unheld] at took ⊢
      rw [took, serveSlot, (finishSlot_quiet i n _ 0 s).publish]
      exact slotCompletes_begin s i n .notClaimed 0
    by_cases busy : s.faults.clear ≠ none
    · rw [if_neg unheld, if_pos busy] at took ⊢
      rw [took, serveSlot, (finishSlot_quiet i n _ 0 s).publish]
      exact slotCompletes_begin s i n .busy 0
    rw [if_neg unheld, if_neg busy] at took ⊢
    refine ⟨fun none => ?_, fun some => ?_⟩
    · have alone := takeEmptyClear_alone scope (beginTake i n s)
      have faults : (publish s (finishSlot n .ok 0 (takeEmptyClear scope (beginTake i n s)))).faults =
          (takeEmptyClear scope (beginTake i n s)).faults := by simp
      have store : (publish s (finishSlot n .ok 0 (takeEmptyClear scope (beginTake i n s)))).store =
          (takeEmptyClear scope (beginTake i n s)).store := by simp
      have clear : (takeEmptyClear scope (beginTake i n s)).faults.clear = s.faults.clear := by simp
      rw [if_pos (picks.mpr none)] at took
      rw [took, serveSlot]
      obtain ⟨ram, notices⟩ := faultImage_kept (b := s) alone rfl rfl rfl rfl rfl
        (x := finishSlot n .ok 0 (takeEmptyClear scope (beginTake i n s))) (by simp) (by simp) (by simp) (by simp)
        (by simp)
      refine ⟨slotCompletes_publish (slotCompletes_of .ok 0 ?_ ?_ ?_ ?_) (ramKept_more ram (by simp))
        (noticesKept_more notices (by simp)), ?_, ?_, fun w is small => ?_⟩
      · rw [faults, store, alone.eq]
        rfl
      · rw [alone.win]
        exact beginTake_wf s i n
      · rw [alone.eq]
        exact ramKept_more (beginTake_kept s i n) (by simp)
      · rw [alone.eq]
        exact noticesKept_of rfl
      · rw [faults, clear]
        exact not_not.mp busy
      · refine publish_faultNotice ?_
        simp [takeEmptyClear_views]
      · obtain ⟨v, rest⟩ := takeEmptyClear_reenters (scope := scope) (sameRecorded_begin i n s) rfl small
        have scopeIs : scope = Option.some w := by
          obtain ⟨c, e⟩ := Option.ne_none_iff_exists'.mp (one.mp none.1)
          exact e.trans (congrArg Option.some (Fin.ext ((code' c e).trans is.symm)))
        rw [scopeIs] at rest
        rw [faults, store, scopeIs]
        exact ⟨v, rest⟩
    · have alone := takeClear_alone .window scope (beginTake i n s)
      have faults : (publish s (setWindowOp .clear (.slot n) (takeClear .window scope (beginTake i n s)))).faults =
          (takeClear .window scope (beginTake i n s)).faults := by simp
      have store : (publish s (setWindowOp .clear (.slot n) (takeClear .window scope (beginTake i n s)))).store =
          (takeClear .window scope (beginTake i n s)).store := by simp
      rw [if_neg fun none => some (picks.mp none)] at took
      rw [took, serveSlot]
      obtain ⟨ram, notices⟩ := faultImage_kept (b := s) alone rfl rfl rfl rfl rfl
        (x := setWindowOp .clear (.slot n) (takeClear .window scope (beginTake i n s))) (by simp) (by simp) (by simp)
        (by simp) (by simp)
      refine ⟨takeClear_cleared (u := beginTake i n s) rfl rfl all one code' within faults
        (congrArg RetainedStore.queue store), slotInFlight_publish (slotInFlight_of .clear ?_ ?_ ?_ ?_)
        (ramKept_more ram (by simp)) notices⟩
      · rw [faults, store, alone.eq]
        rfl
      · rw [alone.eq]
        exact beginTake_result s i n
      · rw [alone.eq]
        exact ramKept_more (beginTake_kept s i n) (by simp)
      · rw [alone.eq]
        exact noticesKept_of rfl
  · have head := asked.2.1
    have run : exec (.clearFaults .workshop) s = .next (publish s (serveLink .clear r (clearOperation .workshop
        (param r.payload 1) (param r.payload 2) (beginService r s)))) :=
      congrArg (fun x => Host.Outcome.next (publish s x)) (linkTake_requested (code := 16) asked _)
    refine ⟨_, run, ?_⟩
    generalize param r.payload 1 = selector
    generalize param r.payload 2 = code
    dsimp only
    by_cases isBad : bad selector code
    · rw [if_pos isBad, clearOperation, clearScope_bad isBad, serveLink, (answer_quiet _ []).publish]
      exact linkAnswers_begin .badParameter [] head
    obtain ⟨scope, named, all, one, code', within⟩ := clearScope_good (selector := selector) (code := code) isBad
    have took : clearOperation .workshop selector code (beginService r s) =
        if s.win.claims.faults ≠ .workshop then .done .notClaimed 0 (beginService r s)
        else if s.faults.clear ≠ none then .done .busy 0 (beginService r s)
        else if scope ≠ none ∧ ∀ j, j ∉ chosenPlaces scope s then
          .done .ok 0 (takeEmptyClear scope (beginService r s))
        else .inFlight (takeClear .workshop scope (beginService r s)) := clearOperation_eq named
    have picks : (scope ≠ none ∧ ∀ j, j ∉ chosenPlaces scope s) ↔ selector = 1 ∧ ∀ j, ¬ chosen selector code j := by
      simp only [mem_chosenPlaces, within, one, chosen, inScope]
    rw [if_neg isBad]
    by_cases unheld : s.win.claims.faults ≠ .workshop
    · rw [if_pos unheld] at took ⊢
      rw [took, serveLink, (answer_quiet _ []).publish]
      exact linkAnswers_begin .notClaimed [] head
    by_cases busy : s.faults.clear ≠ none
    · rw [if_neg unheld, if_pos busy] at took ⊢
      rw [took, serveLink, (answer_quiet _ []).publish]
      exact linkAnswers_begin .busy [] head
    rw [if_neg unheld, if_neg busy] at took ⊢
    refine ⟨fun none => ?_, fun some => ?_⟩
    · have alone := takeEmptyClear_alone scope (beginService r s)
      have faults : (publish s (answer r .ok [] (takeEmptyClear scope (beginService r s)))).faults =
          (takeEmptyClear scope (beginService r s)).faults := by simp
      have store : (publish s (answer r .ok [] (takeEmptyClear scope (beginService r s)))).store =
          (takeEmptyClear scope (beginService r s)).store := by simp
      have clear : (takeEmptyClear scope (beginService r s)).faults.clear = s.faults.clear := by simp
      rw [if_pos (picks.mpr none)] at took
      rw [took, serveLink]
      obtain ⟨ram, notices⟩ := faultImage_kept (b := s) alone rfl rfl rfl rfl rfl
        (x := answer r .ok [] (takeEmptyClear scope (beginService r s))) (by simp) (by simp) (by simp) (by simp)
        (by simp)
      refine ⟨linkAnswers_publish (linkAnswers_of .ok [] head ?_ ?_ ?_ ?_ ?_) ram notices, ?_, ?_,
        fun w is small => ?_⟩
      · rw [faults, store, alone.eq]
        rfl
      · rw [alone.time]
        rfl
      · rw [alone.link]
        exact linkBegun_reply s
      · rw [alone.eq]
        exact fun _ _ => rfl
      · rw [alone.eq]
        exact noticesKept_of rfl
      · rw [faults, clear]
        exact not_not.mp busy
      · refine publish_faultNotice ?_
        simp [takeEmptyClear_views]
      · obtain ⟨v, rest⟩ := takeEmptyClear_reenters (scope := scope) (sameRecorded_service r s) rfl small
        have scopeIs : scope = Option.some w := by
          obtain ⟨c, e⟩ := Option.ne_none_iff_exists'.mp (one.mp none.1)
          exact e.trans (congrArg Option.some (Fin.ext ((code' c e).trans is.symm)))
        rw [scopeIs] at rest
        rw [faults, store, scopeIs]
        exact ⟨v, rest⟩
    · have alone := takeClear_alone .workshop scope (beginService r s)
      have faults : (publish s (setReply (.waiting r.tag (Option.some .clear))
          (takeClear .workshop scope (beginService r s)))).faults =
          (takeClear .workshop scope (beginService r s)).faults := by simp
      have store : (publish s (setReply (.waiting r.tag (Option.some .clear))
          (takeClear .workshop scope (beginService r s)))).store =
          (takeClear .workshop scope (beginService r s)).store := by simp
      rw [if_neg fun none => some (picks.mp none)] at took
      rw [took, serveLink]
      obtain ⟨ram, notices⟩ := faultImage_kept (b := s) alone rfl rfl rfl rfl rfl
        (x := setReply (.waiting r.tag (Option.some .clear)) (takeClear .workshop scope (beginService r s))) (by simp)
        (by simp) (by simp) (by simp) (by simp)
      refine ⟨takeClear_cleared (u := beginService r s) rfl rfl all one code' within faults
        (congrArg RetainedStore.queue store), linkServes_publish (linkServes_of _ ?_ ?_ ?_ ?_ ?_) ram notices⟩
      · rw [faults, store, alone.eq]
        rfl
      · rw [alone.time]
        rfl
      · rw [alone.link]
        exact linkBegun_reply s
      · rw [alone.eq]
        exact fun _ _ => rfl
      · rw [alone.eq]
        exact noticesKept_of rfl

end Results

end Sys2Proof.Proofs

/-! Warnings that leave their states without an onset: the end of the repeat and the return of their records; the
acknowledgement of warnings by the host. -/

namespace Sys2Proof.Proofs

open Sys2Proof Sys2Proof.Machine Sys2Proof.Safety

/-! ## The end of the repeat (R106) -/

/-- No warning calls for the repeat anew; where any `moved`, the repeat ends with the last call of it, and a pending
burst then starts. -/
structure Quieted (now : Nat) (moved : Prop) (s t : State) : Prop where
  calls : stopCalls t → stopCalls s
  still : ¬ moved → stopCalls s → stopCalls t
  ends : moved → s.out.arbiter.repeatTimer ≠ none → ¬ stopCalls t → t.out.arbiter = repeatStopped now s.out.arbiter
  sounds : s.out.arbiter.repeatTimer ≠ none → ¬ moved ∨ stopCalls t → t.out.arbiter = s.out.arbiter
  silent : s.out.arbiter.repeatTimer = none → ¬ stopCalls s → t.out.arbiter = s.out.arbiter

section Quieted

variable {now : Nat} {moved moves : Prop} {s t u : State}

theorem Quieted.refl : Quieted now False s s :=
  ⟨id, fun _ => id, fun f => f.elim, fun _ _ => rfl, fun _ _ => rfl⟩

theorem repeatStopped_timer (now : Nat) (a : Arbiter) : (repeatStopped now a).repeatTimer = none := by
  unfold repeatStopped
  dsimp only
  cases a.pending <;> rfl

theorem Quieted.trans (h : Quieted now moved s t) (g : Quieted now moves t u) : Quieted now (moved ∨ moves) s u := by
  refine ⟨fun c => h.calls (g.calls c), fun none c => ?_, fun some sounding silent => ?_, fun sounding stays => ?_,
    fun quiet none => ?_⟩
  · exact g.still (fun m => none (.inr m)) (h.still (fun m => none (.inl m)) c)
  · by_cases callsT : stopCalls t
    · have first := h.sounds sounding (.inr callsT)
      have second : moves := by
        by_contra no
        exact silent (g.still no callsT)
      rw [g.ends second (by rw [first]; exact sounding) silent, first]
    · by_cases first : moved
      · have ended := h.ends first sounding callsT
        rw [g.silent (by rw [ended, repeatStopped_timer]) callsT, ended]
      · have same := h.sounds sounding (.inl first)
        rw [g.ends (some.resolve_left first) (by rw [same]; exact sounding) silent, same]
  · obtain none | c := stays
    · have same := h.sounds sounding (.inl fun m => none (.inl m))
      rw [g.sounds (by rw [same]; exact sounding) (.inl fun m => none (.inr m)), same]
    · have same := h.sounds sounding (.inr (g.calls c))
      rw [g.sounds (by rw [same]; exact sounding) (.inr c), same]
  · have same := h.silent quiet none
    rw [g.silent (by rw [same]; exact quiet) fun c => none (h.calls c), same]

theorem Quieted.iff (h : Quieted now moved s t) (e : moved ↔ moves) : Quieted now moves s t := by
  rw [← propext e]
  exact h

/-- A step that follows the flag, after which no warning calls anew. -/
theorem Quieted.follow (calls : stopCalls t → stopCalls s)
    (h : repeatFollows now (stopCalls t) s.out.arbiter t.out.arbiter) : Quieted now True s t := by
  obtain ⟨-, on, off, stop⟩ := h
  exact ⟨calls, fun no => absurd trivial no, fun _ sounding silent => stop silent sounding,
    fun sounding stays => on (stays.resolve_left (not_not.mpr trivial)) sounding,
    fun quiet none => off (fun c => none (calls c)) quiet⟩

/-- A step beside the arbiter and the flag. -/
theorem Quieted.beside (calls : stopCalls t ↔ stopCalls s) (arbiter : t.out.arbiter = s.out.arbiter) :
    Quieted now False s t :=
  ⟨calls.mp, fun _ => calls.mpr, fun f => f.elim, fun _ _ => arbiter, fun _ _ => arbiter⟩

/-- With one warning's state other than ACTIVE_UNACK, and the others as they were, no warning calls anew. -/
theorem stopCalls_less {w : Fin 48} {x : Warning} (quiet : x.state ≠ .activeUnack)
    (warnings : t.warn.warnings = s.warn.warnings.set w.val x w.isLt) (image : t.image = s.image)
    (h : stopCalls t) : stopCalls s := by
  obtain ⟨v, active, stop, chime⟩ := h
  rw [image] at stop chime
  rw [warnings] at active
  by_cases same : w = v
  · subst same
    exact absurd (by simpa using active) quiet
  · have apart : w.val ≠ v.val := fun e => same (Fin.ext e)
    exact ⟨v, by simpa [apart] using active, stop, chime⟩

theorem syncRepeat_follows (s : State) :
    repeatFollows s.time.now (stopCalls s) s.out.arbiter (syncRepeat s).out.arbiter :=
  follow_follows _ _ (stopDemand_iff s)

theorem restate_quiets (w : Fin 48) {st : WarnState} (quiet : st ≠ .activeUnack) (s : State) :
    Quieted s.time.now True s (restate w st s) := by
  have calls : stopCalls (restate w st s) ↔ stopCalls (setWarning w { s.warn.warnings[w] with state := st } s) := by
    simp [restate, stopCalls]
  refine .follow (stopCalls_less (w := w) (x := { s.warn.warnings[w] with state := st }) quiet ?_ (by simp)) ?_
  · rw [restate_warn]
  · rw [calls]
    exact syncRepeat_follows _

theorem leaveList_quiets (w : Fin 48) (s : State) : Quieted s.time.now True s (leaveList w s) := by
  have calls : stopCalls (leaveList w s) ↔
      stopCalls (setList (s.warn.list.erase w) (setWarning w s.warn.warnings[w].toInactive s)) := by
    simp only [stopCalls, leaveList_warn, (leaveList_frame w s).2.2.2.2.2.2.2.2.2.2.2.2.2.2.2.2.2.2.2.2.1]
    rfl
  have arbiter : (leaveList w s).out.arbiter =
      (syncRepeat (setList (s.warn.list.erase w) (setWarning w s.warn.warnings[w].toInactive s))).out.arbiter := by
    unfold leaveList
    dsimp only
    split <;> simp
  refine .follow (stopCalls_less (w := w) (x := returned s.warn.warnings[w]) (by simp [returned]) ?_ (by simp)) ?_
  · rw [leaveList_warn]
  · rw [calls, arbiter]
    exact syncRepeat_follows _

end Quieted

/-! ## The return of records (R130) -/

/-- The records of the warnings in `left` become PASSIVE, each with its place's job where that changes it; every other
place stays. -/
structure Deactivated (left : Fin 48 → Prop) (s t : State) : Prop where
  each : ∀ j : Fin 40, t.faults.places[j] = s.faults.places[j] ∨
    ∃ q, s.faults.places[j] = .stored q ∧ t.faults.places[j] = .stored { q with active := false }
  gone : ∀ (w : Fin 48) (j : Fin 40) (q : FaultRecord), left w → s.faults.places[j] = .stored q → q.code = w →
    (∀ (k : Fin 40) (p : FaultRecord), s.faults.places[k] = .stored p → p.code = w → k = j) →
    t.faults.places[j] = .stored { q with active := false } ∧
    (q.active = true → Object.place j ∈ t.store.queue ∧ s.faults.viewEvents < t.faults.viewEvents)
  kept : ∀ j : Fin 40, (∀ (w : Fin 48) (q : FaultRecord), left w → s.faults.places[j] = .stored q → q.code ≠ w) →
    t.faults.places[j] = s.faults.places[j]
  jobs : ∀ o ∈ s.store.queue, o ∈ t.store.queue
  views : s.faults.viewEvents ≤ t.faults.viewEvents

section Deactivated

variable {left leaves : Fin 48 → Prop} {s t u : State}

theorem Deactivated.same (faults : t.faults = s.faults) (queue : t.store.queue = s.store.queue)
    (none : ∀ w, ¬ left w) : Deactivated left s t :=
  ⟨fun j => .inl (by rw [faults]), fun w _ _ isLeft => absurd isLeft (none w), fun j _ => by rw [faults],
    fun o mem => queue ▸ mem, le_of_eq (by rw [faults])⟩

theorem Deactivated.refl : Deactivated (fun _ => False) s s := .same rfl rfl fun _ => id

theorem Deactivated.iff (h : Deactivated left s t) (e : ∀ w, left w ↔ leaves w) : Deactivated leaves s t := by
  rw [← funext fun w => propext (e w)]
  exact h

/-- A place that still holds a record of a code holds one that differs in its status at most. -/
theorem Deactivated.stored (h : Deactivated left s t) {j : Fin 40} {q : FaultRecord}
    (held : t.faults.places[j] = .stored q) : ∃ p, s.faults.places[j] = .stored p ∧ p.code = q.code := by
  obtain same | ⟨p, was, now⟩ := h.each j
  · exact ⟨q, same ▸ held, rfl⟩
  · rw [now] at held
    exact ⟨p, was, by rw [← Place.stored.inj held]⟩

theorem Deactivated.trans (h : Deactivated left s t) (g : Deactivated leaves t u) :
    Deactivated (fun w => left w ∨ leaves w) s u := by
  refine ⟨fun j => ?_, fun w j q out held code unique => ?_, fun j other => ?_, fun o mem => g.jobs o (h.jobs o mem),
    h.views.trans g.views⟩
  · obtain first | ⟨q, was, now⟩ := h.each j
    · rw [← first]
      exact g.each j
    · obtain second | ⟨p, was', now'⟩ := g.each j
      · exact .inr ⟨q, was, second.trans now⟩
      · rw [now] at was'
        obtain rfl := Place.stored.inj was'
        exact .inr ⟨q, was, now'⟩
  · by_cases first : left w
    · obtain ⟨now, jobs⟩ := h.gone w j q first held code unique
      refine ⟨?_, fun active => ⟨g.jobs _ (jobs active).1, (jobs active).2.trans_le g.views⟩⟩
      obtain second | ⟨p, was', now'⟩ := g.each j
      · exact second.trans now
      · rw [now] at was'
        obtain rfl := Place.stored.inj was'
        exact now'
    · have same : t.faults.places[j] = s.faults.places[j] := h.kept j fun v p isLeft held' code' => by
        rw [held] at held'
        obtain rfl := Place.stored.inj held'
        exact first (code.symm.trans code' ▸ isLeft)
      obtain ⟨now, jobs⟩ := g.gone w j q (out.resolve_left first) (same.trans held) code fun k p at_ code' => by
        obtain ⟨p', was, code''⟩ := h.stored at_
        exact unique k p' was (code''.trans code')
      exact ⟨now, fun active => ⟨(jobs active).1, h.views.trans_lt (jobs active).2⟩⟩
  · have same := h.kept j fun w q isLeft => other w q (.inl isLeft)
    rw [g.kept j fun w q isLeft held => other w q (.inr isLeft) (same ▸ held), same]

/-- One record's return. -/
theorem returnInactive_returns (w : Fin 48) (s : State) : Deactivated (fun v => v = w) s (returnInactive w s) := by
  unfold returnInactive
  cases found : placeOf s w with
  | none =>
    have new := (placeOf_none w).mp found
    exact ⟨fun _ => .inl rfl, fun v j q is held code _ => absurd (code.trans is) (new j q held), fun _ _ => rfl,
      fun _ mem => mem, le_rfl⟩
  | some i =>
    obtain ⟨r, held, code⟩ := placeOf_some found
    simp only [held]
    split
    next active =>
      have changes := setPlace_changes (s := s) (i := i) (p := .stored { r with active := false }) (by
        rw [held]
        intro same
        have := congrArg FaultRecord.active (Place.stored.inj same)
        rw [active] at this
        cases this)
      have views : (setPlace i (.stored { r with active := false }) s).faults.viewEvents = s.faults.viewEvents := by
        simp
      have places : ∀ j : Fin 40, (noteView (setPlace i (.stored { r with active := false }) s)).faults.places[j] =
          if j = i then .stored { r with active := false } else s.faults.places[j] := fun j => by
        rw [noteView_faults_places, changes.1]
        by_cases same : j = i
        · subst same
          simp
        · have apart : i.val ≠ j.val := fun e => same (Fin.ext e.symm)
          simp [same, apart]
      refine ⟨fun j => ?_, fun v j q is held' code' unique => ?_, fun j other => ?_, fun o mem => ?_, ?_⟩
      · rw [places]
        split
        next same => exact .inr ⟨r, same ▸ held, rfl⟩
        · exact .inl rfl
      · obtain rfl : i = j := unique i r held (code.trans is.symm)
        rw [held] at held'
        obtain rfl := Place.stored.inj held'
        refine ⟨by rw [places, if_pos rfl], fun _ => ⟨?_, ?_⟩⟩
        · rw [noteView_store, changes.2]
          exact mem_addJob.mpr (.inr rfl)
        · rw [noteView_viewEvents, views]
          exact Nat.lt_succ_self _
      · rw [places, if_neg]
        rintro rfl
        exact other w r rfl held code
      · rw [noteView_store, changes.2]
        exact mem_addJob.mpr (.inl mem)
      · rw [noteView_viewEvents, views]
        exact Nat.le_succ _
    next passive =>
      refine ⟨fun _ => .inl rfl, fun v j q is held' code' unique => ?_, fun _ _ => rfl, fun _ mem => mem, le_rfl⟩
      obtain rfl : i = j := unique i r held (code.trans is.symm)
      rw [held] at held'
      obtain rfl := Place.stored.inj held'
      have quiet : r.active = false := Bool.eq_false_iff.mpr passive
      refine ⟨?_, fun active => absurd active passive⟩
      rw [held, ← quiet]

theorem leaveList_returns (w : Fin 48) (s : State) :
    Deactivated (fun v => v = w ∧ (warningDef s.image w).record = true) s (leaveList w s) := by
  have beside : Deactivated (fun _ => False) s
      (syncRepeat (setList (s.warn.list.erase w) (setWarning w s.warn.warnings[w].toInactive s))) :=
    .same rfl rfl fun _ => id
  unfold leaveList
  dsimp only
  split
  next record => exact (beside.trans (returnInactive_returns w _)).iff fun v => by simp [record]
  next no => exact beside.iff fun v => by simp [no]

theorem restate_returns (w : Fin 48) (st : WarnState) (s : State) : Deactivated (fun _ => False) s (restate w st s) :=
  .same (by simp) (by simp) fun _ => id

end Deactivated

/-! ## The acknowledgements of ACK_WARNINGS -/

/-- What acknowledgements change. -/
structure AckAlone (u t : State) : Prop where
  time : t.time = u.time
  sense : t.sense = u.sense
  pulse : t.pulse = u.pulse
  dist : t.dist = u.dist
  analog : t.analog = u.analog
  door : t.door = u.door
  nextNumber : t.warn.nextNumber = u.warn.nextNumber
  handed : t.warn.handed = u.warn.handed
  lamps : t.out.lamps = u.out.lamps
  test : t.out.test = u.out.test
  lastResult : t.out.lastResult = u.out.lastResult
  supervision : t.out.supervision = u.out.supervision
  overflow : t.faults.overflow = u.faults.overflow
  clear : t.faults.clear = u.faults.clear
  array : t.store.array = u.store.array
  job : t.store.job = u.store.job
  notRetained : t.store.notRetained = u.store.notRetained
  configCount : t.store.configCount = u.store.configCount
  link : t.link = u.link
  win : t.win = u.win
  image : t.image = u.image
  pending : t.pending = u.pending

theorem AckAlone.eq {u t : State} (h : AckAlone u t) : t = { u with
    warn := { u.warn with warnings := t.warn.warnings, list := t.warn.list }
    out := { u.out with arbiter := t.out.arbiter }
    faults := { u.faults with places := t.faults.places, viewEvents := t.faults.viewEvents }
    store := { u.store with queue := t.store.queue } } := by
  obtain ⟨time, sense, pulse, dist, analog, door, nextNumber, handed, lamps, test, lastResult, supervision, overflow,
    clear, array, job, notRetained, configCount, link, win, image, pending⟩ := h
  cases t with
  | mk ttime tsense tpulse tdist tanalog tdoor twarn tout tfaults tstore tlink twin timage tpending =>
    cases twarn
    cases tout
    cases tfaults
    cases tstore
    simp_all

theorem acknowledges_alone (l : List (Fin 48)) (u : State) : AckAlone u (l.foldl acknowledge u) := by
  constructor <;> simp

/-- The effect of one acknowledgement on the unit (R102). -/
theorem acknowledge_warn (s : State) (w : Fin 48) : (acknowledge s w).warn = acknowledged w s.warn := by
  unfold acknowledge acknowledged
  dsimp only
  cases s.warn.warnings[w].state with
  | activeUnack => exact restate_warn w .activeAck s
  | latched => exact leaveList_warn w s
  | inactive => rfl
  | pending => rfl
  | activeAck => rfl

/-- A warning that an acknowledgement changes. -/
def ackWaits (s : State) (w : Fin 48) : Prop :=
  s.warn.warnings[w].state = .activeUnack ∨ s.warn.warnings[w].state = .latched

/-- A warning that an acknowledgement makes INACTIVE, with a record to return. -/
def ackReturns (s : State) (w : Fin 48) : Prop :=
  s.warn.warnings[w].state = .latched ∧ (warningDef s.image w).record = true

theorem acknowledge_quiets (s : State) (w : Fin 48) : Quieted s.time.now (ackWaits s w) s (acknowledge s w) := by
  unfold acknowledge ackWaits
  cases s.warn.warnings[w].state with
  | activeUnack => exact (restate_quiets w (by simp) s).iff (by simp)
  | latched => exact (leaveList_quiets w s).iff (by simp)
  | inactive => exact Quieted.refl.iff (by simp)
  | pending => exact Quieted.refl.iff (by simp)
  | activeAck => exact Quieted.refl.iff (by simp)

theorem acknowledge_returns (s : State) (w : Fin 48) :
    Deactivated (fun v => v = w ∧ ackReturns s w) s (acknowledge s w) := by
  unfold acknowledge ackReturns
  cases s.warn.warnings[w].state with
  | activeUnack => exact (restate_returns w .activeAck s).iff (by simp)
  | latched => exact (leaveList_returns w s).iff (by simp)
  | inactive => exact Deactivated.refl.iff (by simp)
  | pending => exact Deactivated.refl.iff (by simp)
  | activeAck => exact Deactivated.refl.iff (by simp)

/-- A warning other than the acknowledged one stays, in state and in the list. -/
theorem acknowledge_other {s : State} {w v : Fin 48} (h : v ≠ w) :
    (acknowledge s w).warn.warnings[v] = s.warn.warnings[v] ∧
    (v ∈ (acknowledge s w).warn.list ↔ v ∈ s.warn.list) := by
  have apart : w.val ≠ v.val := fun e => h (Fin.ext e.symm)
  rw [acknowledge_warn, acknowledged]
  cases s.warn.warnings[w].state <;> simp [apart, List.mem_erase_of_ne h]

/-- The acknowledgement of one warning (R102). -/
theorem acknowledge_own (s : State) (w : Fin 48) :
    (s.warn.warnings[w].state = .activeUnack → (acknowledge s w).warn.warnings[w].state = .activeAck) ∧
    (s.warn.warnings[w].state = .latched → (acknowledge s w).warn.warnings[w].state = .inactive ∧
      (s.warn.list.Nodup → w ∉ (acknowledge s w).warn.list)) ∧
    (¬ ackWaits s w → (acknowledge s w).warn = s.warn) := by
  rw [acknowledge_warn, acknowledged, ackWaits]
  have erased : s.warn.list.Nodup → w ∉ s.warn.list.erase w := fun nodup => nodup.not_mem_erase
  cases state : s.warn.warnings[w].state with
  | latched => exact ⟨fun e => by simp at e, fun _ => ⟨by simp [returned], erased⟩, fun no => absurd (.inr rfl) no⟩
  | activeUnack => simp
  | inactive => simp
  | pending => simp
  | activeAck => simp

theorem acknowledge_nodup {s : State} (w : Fin 48) (h : s.warn.list.Nodup) : (acknowledge s w).warn.list.Nodup := by
  rw [acknowledge_warn, acknowledged]
  cases s.warn.warnings[w].state with
  | latched => exact h.erase w
  | activeUnack => exact h
  | inactive => exact h
  | pending => exact h
  | activeAck => exact h

/-- Warnings beside a list of acknowledgements stay. -/
theorem acknowledges_other (l : List (Fin 48)) : ∀ (s : State) (v : Fin 48), v ∉ l →
    (l.foldl acknowledge s).warn.warnings[v] = s.warn.warnings[v] ∧
    (v ∈ (l.foldl acknowledge s).warn.list ↔ v ∈ s.warn.list) := by
  induction l with
  | nil => exact fun s v _ => ⟨rfl, Iff.rfl⟩
  | cons w l ih =>
    intro s v out
    obtain ⟨own, out'⟩ := List.ne_and_not_mem_of_not_mem_cons out
    obtain ⟨first, list⟩ := acknowledge_other (s := s) own
    obtain ⟨rest, list'⟩ := ih (acknowledge s w) v out'
    exact ⟨rest.trans first, list'.trans list⟩

/-- A list of acknowledgements makes of each of its warnings what R102 says. -/
theorem acknowledges_own (l : List (Fin 48)) : ∀ (s : State), l.Nodup → ∀ w ∈ l,
    (s.warn.warnings[w].state = .activeUnack → (l.foldl acknowledge s).warn.warnings[w].state = .activeAck) ∧
    (s.warn.warnings[w].state = .latched → (l.foldl acknowledge s).warn.warnings[w].state = .inactive ∧
      (s.warn.list.Nodup → w ∉ (l.foldl acknowledge s).warn.list)) ∧
    (¬ ackWaits s w → (l.foldl acknowledge s).warn.warnings[w] = s.warn.warnings[w] ∧
      (w ∈ (l.foldl acknowledge s).warn.list ↔ w ∈ s.warn.list)) := by
  induction l with
  | nil => exact fun s _ w mem => absurd mem List.not_mem_nil
  | cons v l ih =>
    intro s nodup w mem
    obtain ⟨new, nodup'⟩ := List.nodup_cons.mp nodup
    rw [List.foldl_cons]
    obtain rfl | later := List.mem_cons.mp mem
    · obtain ⟨same, list⟩ := acknowledges_other l (acknowledge s w) w new
      obtain ⟨unack, latch, still⟩ := acknowledge_own s w
      rw [same, list]
      exact ⟨unack, latch, fun quiet => by rw [still quiet]; simp⟩
    · have apart : w ≠ v := by
        rintro rfl
        exact new later
      obtain ⟨same, list⟩ := acknowledge_other (s := s) apart
      obtain ⟨unack, latch, still⟩ := ih (acknowledge s v) nodup' w later
      rw [same] at unack latch still
      rw [list] at still
      have waits : ackWaits (acknowledge s v) w ↔ ackWaits s w := by rw [ackWaits, ackWaits, same]
      rw [waits] at still
      exact ⟨unack, fun state => ⟨(latch state).1, fun n => (latch state).2 (acknowledge_nodup v n)⟩, still⟩

/-- The arbiter and the records after a list of acknowledgements. -/
theorem acknowledges_hand (l : List (Fin 48)) : ∀ (s : State), l.Nodup →
    Quieted s.time.now (∃ w ∈ l, ackWaits s w) s (l.foldl acknowledge s) ∧
    Deactivated (fun w => w ∈ l ∧ ackReturns s w) s (l.foldl acknowledge s) := by
  induction l with
  | nil => exact fun s _ => ⟨Quieted.refl.iff (by simp), Deactivated.refl.iff (by simp)⟩
  | cons v l ih =>
    intro s nodup
    obtain ⟨new, nodup'⟩ := List.nodup_cons.mp nodup
    obtain ⟨quiet, returns⟩ := ih (acknowledge s v) nodup'
    have same : ∀ w ∈ l, (acknowledge s v).warn.warnings[w] = s.warn.warnings[w] := fun w mem =>
      (acknowledge_other (by rintro rfl; exact new mem)).1
    have waits : ∀ w ∈ l, (ackWaits (acknowledge s v) w ↔ ackWaits s w) := fun w mem => by
      rw [ackWaits, ackWaits, same w mem]
    have image : (acknowledge s v).image = s.image := by simp
    have out : ∀ w ∈ l, (ackReturns (acknowledge s v) w ↔ ackReturns s w) := fun w mem => by
      rw [ackReturns, ackReturns, same w mem, image]
    have time : (acknowledge s v).time = s.time := by simp
    rw [time] at quiet
    refine ⟨((acknowledge_quiets s v).trans quiet).iff ?_, ((acknowledge_returns s v).trans returns).iff fun w => ?_⟩
    · refine Iff.trans (or_congr Iff.rfl (exists_congr fun w => and_congr_right fun mem => waits w mem)) ?_
      simp
    · rw [List.mem_cons, or_and_right]
      refine or_congr (and_congr_right fun is => by rw [is]) (and_congr_right fun mem => out w mem)

/-- What returns hand over, once published (R98, R106, R130). -/
theorem returnsHanded_of {now : Nat} {moved : Prop} {left : Fin 48 → Prop} {s b u t : State}
    (arbiter : b.out.arbiter = s.out.arbiter) (calls : stopCalls b ↔ stopCalls s) (faults : b.faults = s.faults)
    (image : b.image = s.image) (quiet : Quieted now moved b u)
    (returns : Deactivated (fun w => left w ∧ (warningDef b.image w).record = true) b u)
    (arbiterT : t.out.arbiter = u.out.arbiter) (callsT : stopCalls t ↔ stopCalls u) (faultsT : t.faults = u.faults)
    (storeT : t.store = u.store)
    (noticeT : s.faults.viewEvents ≠ u.faults.viewEvents → noticeSet t .faultMemoryChanged = true) :
    returnsHanded s t now moved left := by
  obtain ⟨-, -, ends, sounds, silent⟩ := quiet
  obtain ⟨-, gone, kept, -, -⟩ := returns
  rw [arbiter] at ends sounds silent
  rw [calls] at silent
  rw [faults] at gone kept
  rw [image] at gone kept
  unfold returnsHanded
  rw [arbiterT, callsT, faultsT, storeT]
  refine ⟨ends, sounds, silent, fun w j q out record held code unique => ?_, fun j other => kept j
    fun w q out held => other w q out.1 out.2 held⟩
  obtain ⟨now, jobs⟩ := gone w j q ⟨out, record⟩ held code unique
  exact ⟨now, fun active => ⟨(jobs active).1, noticeT (jobs active).2.ne⟩⟩

/-- The publication at an event that shows in the images of warnings alone. -/
theorem publish_warningsKept {b u : State} (sense : b.sense = u.sense) (image : b.image = u.image)
    (door : b.door = u.door) : ramKept warningAreas u (publish b u) ∧
    noticesKept [.warningsChanged, .faultMemoryChanged] u (publish b u) := by
  refine ⟨fun a outside => ?_, fun n => ?_⟩
  · have apart := outside
    simp only [warningAreas, List.mem_cons, List.not_mem_nil, or_false, forall_eq_or_imp, forall_eq, outputArea,
      listArea, faultArea] at apart
    unfold publish publishAll
    rw [publishOutput_outside _ _ (by omega), publishFaults_outside _ _ _ (by omega), publishJournal,
      if_pos (by simp [door]), publishWarnings_outside _ _ _ (by omega),
      publishSense_same b u (senseBytes_congr sense image),
      publishDoor_same b u (doorBytes_congr door image) (doorFields_congr door image)]
  · rw [publish, publishAll_notice, doorFields_congr door image]
    refine ⟨fun set => by simp [set], fun other => ?_⟩
    have list : Notice.warningsChanged ≠ n := fun e => other (by simp [← e])
    have view : Notice.faultMemoryChanged ≠ n := fun e => other (by simp [← e])
    simp [list, view]

/-! ## ACK_WARNINGS -/

/-- The warnings that a request of ACK_WARNINGS names, in ascending order (R104). -/
def ackNamed (selector : Byte) (mask : List Byte) : List (Fin 48) :=
  if selector = 0 then (List.finRange 48).filter (maskNames mask) else List.finRange 48

theorem ackNamed_nodup (selector : Byte) (mask : List Byte) : (ackNamed selector mask).Nodup := by
  unfold ackNamed
  split
  · exact (List.nodup_finRange 48).filter _
  · exact List.nodup_finRange 48

theorem ackOperation_bad {selector : Byte} (h : 1 < selector.toNat) (mask : List Byte) (s : State) :
    ackOperation selector mask s = .done .badParameter 0 s := by
  rw [ackOperation, if_neg (by rintro rfl; simp at h), if_neg (by rintro rfl; simp at h)]

theorem ackOperation_good {selector : Byte} (h : selector.toNat ≤ 1) (mask : List Byte) (s : State) :
    ackOperation selector mask s = .done .ok 0 ((ackNamed selector mask).foldl acknowledge s) := by
  unfold ackOperation ackNamed
  split
  · rfl
  next other =>
    have zero := byte_eq_iff selector (k := 0) (by omega)
    rw [if_pos]
    refine (byte_eq_iff selector (k := 1) (by omega)).mpr ?_
    by_contra
    exact other (zero.mpr (by omega))

/-- The mask's bytes, from +7 of the slot on. -/
theorem mask_param (s : State) (n : Fin 8) {k : Nat} (small : k < 6) :
    param ((slotParams s n 7).drop 1) k = slotByte s n (7 + k) := by
  rw [param, slotParams, List.getD_eq_getElem?_getD, List.getElem?_drop, List.getElem?_map, List.getElem?_range (by omega)]
  simp only [Option.map_some, Option.getD_some]
  congr 1
  omega

theorem mem_ackNamed {s : State} {n : Fin 8} {selector : Byte} (h : selector.toNat ≤ 1) (w : Fin 48) :
    w ∈ ackNamed selector ((slotParams s n 7).drop 1) ↔
      selector = 1 ∨ (selector = 0 ∧ (slotByte s n (7 + w.val / 8)).getLsbD (w.val % 8) = true) := by
  unfold ackNamed
  split
  next zero =>
    subst zero
    rw [List.mem_filter, maskNames, mask_param s n (by omega)]
    simp
  next other =>
    have zero := byte_eq_iff selector (k := 0) (by omega)
    have one : selector = 1 := by
      refine (byte_eq_iff selector (k := 1) (by omega)).mpr ?_
      by_contra
      exact other (zero.mpr (by omega))
    simp [one]

/-- Settles O39: each named warning acknowledged, and what those that return hand over. -/
theorem ackWarningsAcknowledges : Obligations.AckWarningsAcknowledges := by
  intro s i n due
  have run : exec .ackWarnings s = .next (publish s (serveSlot .test n (ackOperation (slotByte s n 6)
      ((slotParams s n 7).drop 1) (beginTake i n s)))) := by
    rw [← beginTake_byte s i n (k := 6) (by omega), ← beginTake_params s i n]
    exact congrArg (fun x => Host.Outcome.next (publish s x)) (windowRequest_due due .test
      fun n s => ackOperation (slotByte s n 6) ((slotParams s n 7).drop 1) s)
  refine ⟨_, run, ?_⟩
  intro selector named
  refine ⟨fun big => ?_, fun small => ?_⟩
  · rw [ackOperation_bad big, serveSlot, (finishSlot_quiet i n _ 0 s).publish]
    exact slotCompletes_begin s i n .badParameter 0
  rw [ackOperation_good small, serveSlot]
  have names : ∀ w, w ∈ ackNamed selector ((slotParams s n 7).drop 1) ↔ named w := mem_ackNamed small
  have nodup := ackNamed_nodup selector ((slotParams s n 7).drop 1)
  change let t := publish s (finishSlot n .ok 0
    ((ackNamed selector ((slotParams s n 7).drop 1)).foldl acknowledge (beginTake i n s))); _
  revert names nodup
  generalize ackNamed selector ((slotParams s n 7).drop 1) = l
  intro names nodup t
  have alone := acknowledges_alone l (beginTake i n s)
  have warn : t.warn = (l.foldl acknowledge (beginTake i n s)).warn := by simp [t]
  have faults : t.faults = (l.foldl acknowledge (beginTake i n s)).faults := by simp [t]
  have store : t.store = (l.foldl acknowledge (beginTake i n s)).store := by simp [t]
  have arbiter : t.out.arbiter = (l.foldl acknowledge (beginTake i n s)).out.arbiter := by simp [t]
  have image : t.image = (l.foldl acknowledge (beginTake i n s)).image := by simp [t]
  have calls : stopCalls t ↔ stopCalls (l.foldl acknowledge (beginTake i n s)) := by
    rw [stopCalls, stopCalls, warn, image]
  obtain ⟨quiet, returns⟩ := acknowledges_hand l (beginTake i n s) nodup
  obtain ⟨ram, notices⟩ := publish_warningsKept (b := s)
    (u := finishSlot n .ok 0 (l.foldl acknowledge (beginTake i n s))) (by simp) (by simp) (by simp)
  refine ⟨fun w => ⟨fun isNamed state => ?_, fun isNamed state => ?_, fun stays => ?_⟩, ?_, ?_, ?_,
    slotCompletes_publish (slotCompletes_of .ok 0 ?_ ?_ ?_ ?_) (ramKept_more ram (by simp [warningAreas]))
      (noticesKept_more notices (by simp))⟩
  · rw [warn]
    exact (acknowledges_own l (beginTake i n s) nodup w ((names w).mpr isNamed)).1 state
  · rw [warn]
    exact (acknowledges_own l (beginTake i n s) nodup w ((names w).mpr isNamed)).2.1 state
  · rw [warn]
    by_cases isNamed : named w
    · refine (acknowledges_own l (beginTake i n s) nodup w ((names w).mpr isNamed)).2.2 fun waits => ?_
      obtain no | ⟨notUnack, notLatched⟩ := stays
      · exact no isNamed
      · exact waits.elim notUnack notLatched
    · exact acknowledges_other l (beginTake i n s) w fun mem => isNamed ((names w).mp mem)
  · rw [warn, alone.nextNumber]
    rfl
  · rw [faults, alone.overflow]
    rfl
  · refine returnsHanded_of (b := beginTake i n s) rfl Iff.rfl rfl rfl
      (quiet.iff (exists_congr fun w => and_congr (names w) Iff.rfl))
      (returns.iff fun w => ?_) arbiter calls faults store fun changed => publish_faultNotice ?_
    · rw [names, ackReturns, and_assoc]
      rfl
    · simpa using changed
  · rw [warn, faults, store, arbiter, alone.eq]
    rfl
  · rw [alone.win]
    exact beginTake_wf s i n
  · rw [alone.eq]
    exact ramKept_more (beginTake_kept s i n) (by simp)
  · rw [alone.eq]
    exact noticesKept_of rfl

end Sys2Proof.Proofs

/-! One judgement of the stop cycle: what it makes of the Doorway Monitor, and what it shows. -/

namespace Sys2Proof.Proofs

open Sys2Proof Sys2Proof.Machine Sys2Proof.Safety

section Cycle

variable {s t u : State}

/-! ## What a judgement reads -/

/-- The inputs of the stop cycle stand alike. -/
structure CycleInputs (s t : State) : Prop where
  sense : t.sense = s.sense
  motion : t.pulse.motion = s.pulse.motion
  doorways : t.door.doorways = s.door.doorways
  image : t.image = s.image

theorem CycleInputs.ignition (h : CycleInputs s t) : ignitionOn t = ignitionOn s := by
  rw [ignitionOn, ignitionOn, lineState, lineState, h.sense]

theorem CycleInputs.open_ (h : CycleInputs s t) : anyOpen t = anyOpen s := by
  have each : doorwayOpen t = doorwayOpen s := funext fun n => by rw [doorwayOpen, doorwayOpen, h.doorways, h.image]
  rw [anyOpen, anyOpen, each]

theorem CycleInputs.closed (h : CycleInputs s t) : allClosed t = allClosed s := by
  simp only [allClosed, h.doorways, h.image]

theorem inputs_setCycle (c : Cycle) (s : State) : CycleInputs s (setCycle c s) := by constructor <;> simp

theorem inputs_outOfService (s : State) : CycleInputs s (outOfService s) := by constructor <;> simp

theorem inputs_closeStop (f : OpenStop → Nat) (b : BitVec 8) (s : State) : CycleInputs s (closeStop f b s) := by
  constructor <;> simp

theorem inputs_openStop (s : State) : CycleInputs s (openStop s) := by constructor <;> simp

theorem inputs_captureDwell (s : State) : CycleInputs s (captureDwell s) := by constructor <;> simp

theorem CycleInputs.trans (h : CycleInputs s t) (g : CycleInputs t u) : CycleInputs s u :=
  ⟨g.sense.trans h.sense, g.motion.trans h.motion, g.doorways.trans h.doorways, g.image.trans h.image⟩

/-! ## The steps of a judgement -/

theorem cycleSteps_none (k : Nat) (h : cycleStep s = none) : cycleSteps k s = s := by
  cases k with
  | zero => rfl
  | succ k => rw [cycleSteps, h]

theorem cycleSteps_some (k : Nat) (h : cycleStep s = some t) : cycleSteps (k + 1) s = cycleSteps k t := by
  rw [cycleSteps, h]

/-- With the ignition OFF the cycle is OUT_OF_SERVICE, and stays. -/
theorem cycleStep_off (off : ignitionOn s = false) : cycleStep s =
    match s.door.cycle with
    | .outOfService => none
    | .driving => some (outOfService s)
    | .arrived => some (outOfService s)
    | .atStop => some (outOfService (closeStop OpenStop.count flagIgnition s))
    | .departing => some (outOfService (closeStop OpenStop.lastClose flagIgnition s)) := by
  unfold cycleStep
  cases s.door.cycle <;> simp [off]

theorem cycleStep_moving (on : ignitionOn s = true) (moving : s.pulse.motion ≠ .standstill) : cycleStep s =
    match s.door.cycle with
    | .outOfService => some (setCycle .driving s)
    | .driving => none
    | .arrived => some (setCycle .driving s)
    | .atStop => some (setCycle .driving (closeStop OpenStop.count flagMoved s))
    | .departing => some (setCycle .driving (closeStop OpenStop.lastClose 0 s)) := by
  unfold cycleStep
  cases s.door.cycle <;> simp [on, moving]

theorem cycleStep_standing (on : ignitionOn s = true) (standing : s.pulse.motion = .standstill) : cycleStep s =
    match s.door.cycle with
    | .outOfService => some (setCycle .driving s)
    | .driving => some (setCycle .arrived s)
    | .arrived => if anyOpen s then some (openStop s) else none
    | .atStop => if allClosed s then some (setCycle .departing (captureDwell s)) else none
    | .departing => if anyOpen s then some (setCycle .atStop s) else none := by
  unfold cycleStep
  cases s.door.cycle <;> simp [on, standing]

/-- A present doorway is not both closed and not closed. -/
theorem open_notClosed (h : anyOpen s = true) : allClosed s = false := by
  obtain ⟨n, -, isOpen⟩ := List.any_eq_true.mp h
  obtain ⟨present, state⟩ := Bool.and_eq_true_iff.mp isOpen
  rw [Bool.eq_false_iff]
  intro all
  have own := List.all_eq_true.mp all n (List.mem_finRange n)
  rw [present] at own
  have closed : s.door.doorways[n].state = .closed := by simpa using own
  rw [closed] at state
  cases state

/-! ## The outcome of a judgement (R76) -/

/-- The state after a judgement. -/
def cycleOutcome (s : State) : State :=
  if ignitionOn s = false then
    match s.door.cycle with
    | .outOfService => s
    | .driving => outOfService s
    | .arrived => outOfService s
    | .atStop => outOfService (closeStop OpenStop.count flagIgnition s)
    | .departing => outOfService (closeStop OpenStop.lastClose flagIgnition s)
  else if s.pulse.motion ≠ .standstill then
    match s.door.cycle with
    | .outOfService => setCycle .driving s
    | .driving => s
    | .arrived => setCycle .driving s
    | .atStop => setCycle .driving (closeStop OpenStop.count flagMoved s)
    | .departing => setCycle .driving (closeStop OpenStop.lastClose 0 s)
  else if anyOpen s = true then
    match s.door.cycle with
    | .outOfService => openStop s
    | .driving => openStop s
    | .arrived => openStop s
    | .atStop => s
    | .departing => setCycle .atStop s
  else
    match s.door.cycle with
    | .outOfService => setCycle .arrived s
    | .driving => setCycle .arrived s
    | .arrived => s
    | .atStop => if allClosed s = true then setCycle .departing (captureDwell s) else s
    | .departing => s

theorem cycleStep_outOfService (off : ignitionOn s = false) : cycleStep (outOfService s) = none := by
  rw [cycleStep_off ((inputs_outOfService s).ignition.trans off)]
  rfl

theorem cycleStep_driving (on : ignitionOn s = true) (moving : s.pulse.motion ≠ .standstill) :
    cycleStep (setCycle .driving s) = none := by
  rw [cycleStep_moving ((inputs_setCycle _ s).ignition.trans on) (by rwa [(inputs_setCycle _ s).motion])]
  rfl

/-- From ARRIVED at a standstill: a stop opens where a doorway is open. -/
theorem cycleSteps_arrived (k : Nat) (on : ignitionOn s = true) (standing : s.pulse.motion = .standstill)
    (arrived : s.door.cycle = .arrived) :
    cycleSteps (k + 1) s = if anyOpen s = true then openStop s else s := by
  have step := cycleStep_standing on standing
  rw [arrived] at step
  dsimp only at step
  split
  next isOpen =>
    rw [if_pos isOpen] at step
    rw [cycleSteps_some k step]
    have same := inputs_openStop s
    refine cycleSteps_none k ?_
    rw [cycleStep_standing (same.ignition.trans on) (same.motion.trans standing)]
    exact if_neg (by rw [same.closed, open_notClosed isOpen]; simp)
  next shut =>
    rw [if_neg shut] at step
    exact cycleSteps_none _ step

theorem cycleSteps_driving (k : Nat) (on : ignitionOn s = true) (standing : s.pulse.motion = .standstill)
    (driving : s.door.cycle = .driving) :
    cycleSteps (k + 2) s = if anyOpen s = true then openStop s else setCycle .arrived s := by
  have step := cycleStep_standing on standing
  rw [driving] at step
  have same := inputs_setCycle .arrived s
  rw [cycleSteps_some (k + 1) step, cycleSteps_arrived k (same.ignition.trans on) (same.motion.trans standing) rfl,
    same.open_]
  split <;> rfl

theorem judgeCycle_eq (s : State) : judgeCycle s = cycleOutcome s := by
  unfold judgeCycle cycleOutcome
  by_cases off : ignitionOn s = false
  · have step := cycleStep_off off
    rw [if_pos off]
    cases cycle : s.door.cycle with
    | outOfService =>
      rw [cycle] at step
      exact cycleSteps_none _ step
    | driving =>
      rw [cycle] at step
      rw [cycleSteps_some 3 step]
      exact cycleSteps_none _ (cycleStep_outOfService off)
    | arrived =>
      rw [cycle] at step
      rw [cycleSteps_some 3 step]
      exact cycleSteps_none _ (cycleStep_outOfService off)
    | atStop =>
      rw [cycle] at step
      rw [cycleSteps_some 3 step]
      exact cycleSteps_none _ (cycleStep_outOfService ((inputs_closeStop _ _ s).ignition.trans off))
    | departing =>
      rw [cycle] at step
      rw [cycleSteps_some 3 step]
      exact cycleSteps_none _ (cycleStep_outOfService ((inputs_closeStop _ _ s).ignition.trans off))
  have on : ignitionOn s = true := by simpa using off
  rw [if_neg off]
  by_cases moving : s.pulse.motion ≠ .standstill
  · have step := cycleStep_moving on moving
    rw [if_pos moving]
    cases cycle : s.door.cycle with
    | outOfService =>
      rw [cycle] at step
      rw [cycleSteps_some 3 step]
      exact cycleSteps_none _ (cycleStep_driving on moving)
    | driving =>
      rw [cycle] at step
      exact cycleSteps_none _ step
    | arrived =>
      rw [cycle] at step
      rw [cycleSteps_some 3 step]
      exact cycleSteps_none _ (cycleStep_driving on moving)
    | atStop =>
      rw [cycle] at step
      rw [cycleSteps_some 3 step]
      have same := inputs_closeStop OpenStop.count flagMoved s
      exact cycleSteps_none _ (cycleStep_driving (same.ignition.trans on) (by rwa [same.motion]))
    | departing =>
      rw [cycle] at step
      rw [cycleSteps_some 3 step]
      have same := inputs_closeStop OpenStop.lastClose 0 s
      exact cycleSteps_none _ (cycleStep_driving (same.ignition.trans on) (by rwa [same.motion]))
  have standing : s.pulse.motion = .standstill := not_not.mp moving
  have step := cycleStep_standing on standing
  rw [if_neg moving]
  cases cycle : s.door.cycle with
  | outOfService =>
    rw [cycle] at step
    have same := inputs_setCycle .driving s
    rw [cycleSteps_some 3 step, cycleSteps_driving 1 (same.ignition.trans on) (same.motion.trans standing) rfl,
      same.open_]
    rfl
  | driving => exact cycleSteps_driving 2 on standing cycle
  | arrived => exact cycleSteps_arrived 3 on standing cycle
  | atStop =>
    rw [cycle] at step
    dsimp only at step
    by_cases isOpen : anyOpen s = true
    · rw [if_pos isOpen]
      rw [if_neg (by rw [open_notClosed isOpen]; simp)] at step
      exact cycleSteps_none _ step
    · rw [if_neg isOpen]
      dsimp only
      split
      next closed =>
        rw [if_pos closed] at step
        have same := (inputs_captureDwell s).trans (inputs_setCycle .departing (captureDwell s))
        rw [cycleSteps_some 3 step]
        refine cycleSteps_none _ ?_
        rw [cycleStep_standing (same.ignition.trans on) (same.motion.trans standing)]
        exact if_neg (by rw [same.open_]; exact isOpen)
      next ajar =>
        rw [if_neg ajar] at step
        exact cycleSteps_none _ step
  | departing =>
    rw [cycle] at step
    dsimp only at step
    by_cases isOpen : anyOpen s = true
    · rw [if_pos isOpen] at step ⊢
      have same := inputs_setCycle .atStop s
      rw [cycleSteps_some 3 step]
      refine cycleSteps_none _ ?_
      rw [cycleStep_standing (same.ignition.trans on) (same.motion.trans standing)]
      exact if_neg (by rw [same.closed, open_notClosed isOpen]; simp)
    · rw [if_neg isOpen] at step ⊢
      exact cycleSteps_none _ step

/-! ## The Doorway Monitor after a judgement -/

theorem closeStop_door (f : OpenStop → Nat) (b : BitVec 8) (s : State) :
    (closeStop f b s).door = stopClosed s.time.now f b s.door := by
  unfold closeStop stopClosed
  cases s.door.stop with
  | none => rfl
  | some o =>
    have journal : ∀ r : StopRecord, appendRecord r s.door.journal =
        s.door.journal.drop (s.door.journal.length - 7) ++ [r] := fun r => by
      unfold appendRecord
      split
      · rfl
      · rw [show s.door.journal.length - 7 = 0 by omega, List.drop_zero]
    dsimp only
    rw [journal]
    rfl

theorem captureDwell_door (s : State) : (captureDwell s).door =
    { s.door with stop := s.door.stop.map (fun o => { o with lastClose := o.record.dwell }) } := by
  have unit : ∀ d : DoorMonitor, d.stop = none → d = { d with stop := none } := fun d none => by rw [← none]
  unfold captureDwell
  cases stop : s.door.stop with
  | none => exact unit s.door stop
  | some o => rfl

theorem allClosed_iff (s : State) : allClosed s = true ↔
    ∀ n : Fin 4, doorwayPresent s.image n = true → s.door.doorways[n].state = .closed := by
  simp only [allClosed, List.all_eq_true, List.mem_finRange, forall_const, Bool.or_eq_true, Bool.not_eq_true',
    decide_eq_true_eq]
  exact forall_congr' fun n => by cases doorwayPresent s.image n <;> simp

/-- The number of a set bit. -/
def bitNumber (b : Bool) (k : Nat) : Nat := if b = true then k else 0

theorem openMask_eq (s : State) : openMask s = BitVec.ofNat 4 (bitNumber (notClosed s 0) 1 +
    bitNumber (notClosed s 1) 2 + bitNumber (notClosed s 2) 4 + bitNumber (notClosed s 3) 8) := by
  simp only [notClosed_eq]
  change (if doorwayOpen s 3 then _ else _) = _
  generalize doorwayOpen s 3 = d
  have fold : ∀ a b c d : Bool,
      (let m0 : BitVec 4 := 0
       let m1 := if a then m0 ||| BitVec.twoPow 4 0 else m0
       let m2 := if b then m1 ||| BitVec.twoPow 4 1 else m1
       let m3 := if c then m2 ||| BitVec.twoPow 4 2 else m2
       if d then m3 ||| BitVec.twoPow 4 3 else m3) =
      BitVec.ofNat 4 (bitNumber a 1 + bitNumber b 2 + bitNumber c 4 + bitNumber d 8) := by decide
  exact fold (doorwayOpen s 0) (doorwayOpen s 1) (doorwayOpen s 2) d

theorem openingFlags_eq (s : State) : openingFlags s = BitVec.ofNat 8 (bitNumber s.door.ramp 1 +
    bitNumber s.door.kneel 2 + bitNumber ((List.finRange 4).any (doorEmergency s)) 4 + bitNumber s.door.latch 8) := by
  have flags : ∀ latch ramp kneel emergency : Bool,
      (if latch then flagRequested else 0) ||| (if ramp then flagRamp else 0) ||| (if kneel then flagKneel else 0) |||
        (if emergency then flagEmergency else 0) =
      BitVec.ofNat 8 (bitNumber ramp 1 + bitNumber kneel 2 + bitNumber emergency 4 + bitNumber latch 8) := by decide
  exact flags _ _ _ _

theorem emergency_number (s : State) : bitNumber ((List.finRange 4).any (doorEmergency s)) 4 =
    if ∃ n : Fin 4, doorwayPresent s.image n = true ∧ s.door.doorways[n].emergency = true then 4 else 0 := by
  unfold bitNumber
  refine if_congr ?_ rfl rfl
  simp [doorEmergency]

theorem openStop_door (s : State) : (openStop s).door = { s.door with
    cycle := .atStop
    stop := some
      { record := { sequence := if s.door.nextSequence = 0 then 1 else s.door.nextSequence
                    openStamp := BitVec.ofNat 32 s.time.now, closeStamp := 0, odometer := s.dist.live, dwell := 0
                    mask := openMask s, obstructions := 0, flags := openingFlags s }
        openedAt := s.time.now, lastClose := 0 }
    latch := false
    journal := if s.door.nextSequence = 0 then [] else s.door.journal
    nextSequence := if s.door.nextSequence = 0 then 2
      else if s.door.nextSequence = 4294967295 then 0 else s.door.nextSequence + 1 } := rfl

/-- One judgement of the stop cycle (R76, R78, R80 to R82). -/
theorem judgeCycle_judged (s : State) : cycleJudged s s.door (judgeCycle s).door := by
  unfold cycleJudged
  rw [judgeCycle_eq, ← anyOpen_iff, ← allClosed_iff, ← emergency_number]
  unfold cycleOutcome
  refine ⟨fun off => ?_, fun on moving => ?_, fun on standing isOpen => ⟨fun early => ?_, fun late => ?_⟩,
    fun on standing shut => ⟨fun early => ?_, fun stop closed => ?_, fun stop ajar => ?_, fun departing => ?_⟩⟩
  · rw [if_pos off]
    cases s.door.cycle with
    | outOfService => rfl
    | driving => rfl
    | arrived => rfl
    | atStop => exact congrArg (fun d : DoorMonitor => { d with cycle := .outOfService, latch := false }) (closeStop_door _ _ s)
    | departing => exact congrArg (fun d : DoorMonitor => { d with cycle := .outOfService, latch := false }) (closeStop_door _ _ s)
  · rw [if_neg (by simp [on]), if_pos moving]
    cases s.door.cycle with
    | outOfService => rfl
    | driving => rfl
    | arrived => rfl
    | atStop => exact congrArg (fun d : DoorMonitor => { d with cycle := .driving }) (closeStop_door _ _ s)
    | departing => exact congrArg (fun d : DoorMonitor => { d with cycle := .driving }) (closeStop_door _ _ s)
  · have opens : (openStop s).door = _ := openStop_door s
    rw [openMask_eq, openingFlags_eq] at opens
    rw [if_neg (by simp [on]), if_neg (not_not.mpr standing), if_pos isOpen]
    obtain cycle | cycle | cycle := early <;> rw [cycle] <;> exact opens
  · rw [if_neg (by simp [on]), if_neg (not_not.mpr standing), if_pos isOpen]
    have unit : ∀ d : DoorMonitor, d.cycle = .atStop → d = { d with cycle := .atStop } := fun d e => by rw [← e]
    obtain cycle | cycle := late
    · rw [cycle]
      exact unit s.door cycle
    · rw [cycle]
      rfl
  · rw [if_neg (by simp [on]), if_neg (not_not.mpr standing), if_neg shut]
    have unit : ∀ d : DoorMonitor, d.cycle = .arrived → d = { d with cycle := .arrived } := fun d e => by rw [← e]
    obtain cycle | cycle | cycle := early
    · rw [cycle]
      rfl
    · rw [cycle]
      rfl
    · rw [cycle]
      exact unit s.door cycle
  · rw [if_neg (by simp [on]), if_neg (not_not.mpr standing), if_neg shut, stop]
    dsimp only
    rw [if_pos closed]
    exact congrArg (fun d : DoorMonitor => { d with cycle := .departing }) (captureDwell_door s)
  · rw [if_neg (by simp [on]), if_neg (not_not.mpr standing), if_neg shut, stop]
    dsimp only
    rw [if_neg ajar]
  · rw [if_neg (by simp [on]), if_neg (not_not.mpr standing), if_neg shut, departing]

/-! ## What a judgement shows (R81, R86, R87) -/

theorem cycleJudged_congr {d e : DoorMonitor} (h : CycleInputs s t) (now : t.time.now = s.time.now)
    (live : t.dist.live = s.dist.live) (judged : cycleJudged s d e) : cycleJudged t d e := by
  have closed : notClosed t = notClosed s := funext fun n => by rw [notClosed, notClosed, h.image, h.doorways]
  unfold cycleJudged at judged ⊢
  rw [h.ignition, closed, h.motion, h.doorways, h.image, now, live]
  exact judged

theorem doorFields_cycle (h : doorFields s = doorFields t) : t.door.cycle = s.door.cycle := by
  have code := congrArg (fun l => l[5]?) h
  simp only [doorFields, List.append_assoc, List.getElem?_append, List.length_map, List.length_finRange,
    List.length_cons, List.length_nil] at code
  have same : byte s.door.cycle.code = byte t.door.cycle.code := Option.some.inj code
  have value := congrArg BitVec.toNat same
  revert value
  cases s.door.cycle <;> cases t.door.cycle <;> decide

theorem doorFields_latch (h : doorFields s = doorFields t) : t.door.latch = s.door.latch := by
  have flags := congrArg (fun l => l[4]?) h
  simp only [doorFields, List.append_assoc, List.getElem?_append, List.length_map, List.length_finRange,
    List.length_cons, List.length_nil] at flags
  have same : byte (bit s.door.kneel 0 + bit s.door.ramp 1 + bit s.door.latch 2 + bit s.door.dpermit 3) =
      byte (bit t.door.kneel 0 + bit t.door.ramp 1 + bit t.door.latch 2 + bit t.door.dpermit 3) :=
    Option.some.inj flags
  have third : ∀ a b c d : Bool, (byte (bit a 0 + bit b 1 + bit c 2 + bit d 3)).getLsbD 2 = c := by decide
  have latch := congrArg (fun b : Byte => b.getLsbD 2) same
  rw [third, third] at latch
  exact latch.symm

/-- A close of the open record is recorded (R81). -/
theorem closeStop_recorded (f : OpenStop → Nat) (b : BitVec 8) (open_ : s.door.stop ≠ none) :
    noticeSet (closeStop f b s) .stopRecorded = true := by
  obtain ⟨o, is⟩ := Option.ne_none_iff_exists'.mp open_
  unfold closeStop
  rw [is]
  dsimp only
  rw [noticeSet_setNotice]
  simp

theorem cycleOutcome_stop (open_ : s.door.stop ≠ none) : (cycleOutcome s).door.stop ≠ none ∨
    noticeSet (cycleOutcome s) .stopRecorded = true := by
  have captured : (setCycle .departing (captureDwell s)).door.stop ≠ none := by
    have stop : (setCycle .departing (captureDwell s)).door.stop =
        s.door.stop.map (fun o => { o with lastClose := o.record.dwell }) :=
      congrArg DoorMonitor.stop (captureDwell_door s)
    rw [stop, ne_eq, Option.map_eq_none_iff]
    exact open_
  have opened : (openStop s).door.stop ≠ none := by
    rw [openStop_door]
    simp
  unfold cycleOutcome
  split
  · cases s.door.cycle with
    | outOfService => exact .inl open_
    | driving => exact .inl open_
    | arrived => exact .inl open_
    | atStop => exact .inr (closeStop_recorded _ _ open_)
    | departing => exact .inr (closeStop_recorded _ _ open_)
  split
  · cases s.door.cycle with
    | outOfService => exact .inl open_
    | driving => exact .inl open_
    | arrived => exact .inl open_
    | atStop => exact .inr (closeStop_recorded _ _ open_)
    | departing => exact .inr (closeStop_recorded _ _ open_)
  split
  · cases s.door.cycle with
    | outOfService => exact .inl opened
    | driving => exact .inl opened
    | arrived => exact .inl opened
    | atStop => exact .inl open_
    | departing => exact .inl open_
  · cases s.door.cycle with
    | outOfService => exact .inl open_
    | driving => exact .inl open_
    | arrived => exact .inl open_
    | atStop =>
      dsimp only
      split
      · exact .inl captured
      · exact .inl open_
    | departing => exact .inl open_

theorem judgeCycle_recorded (open_ : s.door.stop ≠ none) (shut : (judgeCycle s).door.stop = none) :
    noticeSet (judgeCycle s) .stopRecorded = true := by
  rw [judgeCycle_eq] at shut ⊢
  exact (cycleOutcome_stop open_).resolve_left fun stays => stays shut

/-- A judgement of the stop cycle followed to the end of its event. -/
theorem cycleFollows_of (inputs : CycleInputs u t) (now : t.time.now = u.time.now) (live : t.dist.live = u.dist.live)
    (opened : s.door.stop ≠ none → u.door.stop ≠ none)
    (door : { t.door with dpermit := s.door.dpermit } = (judgeCycle u).door)
    (doors : doorFields s ≠ doorFields t → noticeSet t .doorsChanged = true)
    (recorded : noticeSet (judgeCycle u) .stopRecorded = true → noticeSet t .stopRecorded = true)
    (journal : t.door.journal ≠ s.door.journal → imageWritten journalArea (journalBytes t) s t) :
    cycleFollows s t u.door := by
  refine ⟨?_, fun changed => doors fun same => ?_, fun open_ shut => recorded ?_, journal⟩
  · rw [door]
    exact cycleJudged_congr inputs now live (judgeCycle_judged u)
  · exact changed.elim (fun c => c (doorFields_cycle same)) fun l => l (doorFields_latch same)
  · refine judgeCycle_recorded (opened open_) ?_
    rw [← door]
    exact shut

end Cycle

end Sys2Proof.Proofs

/-! The end of an event in its images, notices and jobs, and a change of the motion state. -/

namespace Sys2Proof.Proofs

open Sys2Proof Sys2Proof.Machine Sys2Proof.Safety

/-! ## The end of an event -/

section Event

variable {b s u : State}

theorem finish_notice (b : State) {n : Notice} (h : noticeSet u n = true) : noticeSet (finish b u) n = true :=
  ((finish_reach b u).notices n).1 h

theorem finish_doorFields (b u : State) : doorFields (finish b u) = doorFields u :=
  doorFields_congr (by simp [finish]) (by simp [finish])

/-- A change of a field of the door image sets DOORS_CHANGED (R86). -/
theorem finish_doors (h : doorFields b ≠ doorFields (finish b u)) : noticeSet (finish b u) .doorsChanged = true := by
  have fields : doorFields b ≠ doorFields (judgeAll u) := by
    rw [finish_doorFields] at h
    rwa [doorFields_congr (b := judgeAll u) (s := u) (by simp) (by simp)]
  rw [finish, publish, publishAll_notice]
  simp [fields]

/-- A step that reaches no image leaves them all. -/
theorem images_kept {may : List Notice} (reach : Reach [] may s u) {area : Area} (high : 0x0300 ≤ area.1) :
    areaSame area s u := fun _ low _ =>
  reach.ram _ fun _ mem => .inr ((slotResult_low mem).trans (high.trans low))

/-- A changed journal has its image rewritten (R87). -/
theorem finish_journal (kept : areaSame journalArea s u)
    (h : (finish s u).door.journal ≠ s.door.journal) :
    imageWritten journalArea (journalBytes (finish s u)) s (finish s u) := by
  have door : (finish s u).door = (judgeAll u).door := by simp [finish]
  have bytes : journalBytes (finish s u) = journalBytes (judgeAll u) := by rw [journalBytes, journalBytes, door]
  rw [door] at h
  rw [bytes]
  refine imageWritten_congr (by simp [journalArea]) (fun a low high => ?_)
    (publishAll_journal (b := s) (s := judgeAll u) false false (Ne.symm h)) fun _ _ _ => rfl
  rw [images_kept (judgeAll_reach u) (by simp [journalArea]) a low high,
    kept a low high]

end Event

/-! ## Jobs -/

/-- No job is lost, and only those of records are new. -/
def RecordJobs (s t : State) : Prop :=
  (∀ o ∈ s.store.queue, o ∈ t.store.queue) ∧
  ∀ o ∈ t.store.queue, o ∈ s.store.queue ∨ o = .header ∨ ∃ i, o = .place i

section Jobs

variable {s t u : State}

theorem RecordJobs.same (h : t.store = s.store) : RecordJobs s t := by
  rw [RecordJobs, h]
  exact ⟨fun _ => id, fun _ => .inl⟩

theorem RecordJobs.trans (h : RecordJobs s t) (g : RecordJobs t u) : RecordJobs s u :=
  ⟨fun o mem => g.1 o (h.1 o mem), fun o mem => (g.2 o mem).elim (h.2 o) .inr⟩

theorem RecordJobs.enqueue {o : Object} (record : o = .header ∨ ∃ i, o = .place i) (s : State) :
    RecordJobs s (enqueue o s) := by
  rw [enqueue_store]
  refine ⟨fun p mem => mem_addJob.mpr (.inl mem), fun p mem => ?_⟩
  obtain old | rfl := mem_addJob.mp mem
  · exact .inl old
  · exact .inr record

theorem RecordJobs.setPlace (i : Fin 40) (p : Place) (s : State) : RecordJobs s (setPlace i p s) := by
  unfold Machine.setPlace
  split
  · exact .same rfl
  · have put : RecordJobs s (putPlace i p s) := .same rfl
    exact put.trans (.enqueue (.inr ⟨i, rfl⟩) _)

theorem RecordJobs.headerJob (b s : State) : RecordJobs s (headerJob b s) := by
  unfold Machine.headerJob
  split
  · exact .same rfl
  · exact .enqueue (.inl rfl) s

theorem RecordJobs.makeRecord (w : Fin 48) (x : Byte) (s : State) : RecordJobs s (makeRecord w x s) := by
  unfold Machine.makeRecord
  split
  · exact .setPlace _ _ s
  · split
    · exact .setPlace _ _ s
    · exact .same rfl

theorem RecordJobs.occurrence (w : Fin 48) (x : Byte) (s : State) : RecordJobs s (occurrence w x s) := by
  have taken : RecordJobs s (takeOccurrence w x s) := by
    unfold takeOccurrence
    split
    · split
      · exact .setPlace _ _ s
      · exact .same rfl
    · exact .makeRecord w x s
  exact (taken.trans (.headerJob s _)).trans (.same rfl)

theorem RecordJobs.returnInactive (w : Fin 48) (s : State) : RecordJobs s (returnInactive w s) := by
  unfold Machine.returnInactive
  split
  · split
    · split
      · exact (RecordJobs.setPlace _ _ s).trans (.same rfl)
      · exact .same rfl
    · exact .same rfl
  · exact .same rfl

theorem recordJobs_steps : JudgeSteps RecordJobs where
  refl _ := .same rfl
  trans := .trans
  set w x s := .same rfl
  onset w s := by
    have begun : RecordJobs s (onsetBegun w s) := by
      have buzzed : RecordJobs s (onsetBuzz (warningDef s.image w) (enterList w s)) := .same (by simp)
      unfold onsetBegun
      dsimp only
      split
      · exact buzzed.trans (.occurrence w _ _)
      · exact buzzed
    rw [onset_eq]
    split
    · exact begun.trans (.same (by simp))
    · exact begun
  leave w s := by
    have left : RecordJobs s
        (syncRepeat (setList (s.warn.list.erase w) (setWarning w s.warn.warnings[w].toInactive s))) := .same rfl
    unfold leaveList
    dsimp only
    split
    · exact left.trans (.returnInactive w _)
    · exact left
  restate w x s := .same (by simp)

theorem finish_jobs (b u : State) : RecordJobs u (finish b u) :=
  (recordJobs_steps.judgeAll u).trans (.same (by simp [finish]))

end Jobs

/-! ## A change of the motion state (R27) -/

section Motion

variable {s : State} {m : Motion}

/-- The motion state and the standstill's start set. -/
def motionSet (m : Motion) (s : State) : State := setPulse { s.pulse with
  motion := m, standstillAt := if m = .standstill then some s.time.now else none } s

/-- A new motion state with the marks of the Doorway Monitor, the stop cycle not yet judged (R84). -/
def motionMarked (m : Motion) (s : State) : State :=
  setDoor { s.door with age := ageAtMotion m, matureDue := false } (motionSet m s)

theorem setMotion_change (h : s.pulse.motion ≠ m) : setMotion m s = handMotion s.pulse.motion (motionSet m s) := if_neg h

theorem setMotion_same (h : s.pulse.motion = m) : setMotion m s = s := if_pos h

theorem doorMotion_marked (m : Motion) (s : State) :
    doorMotion (motionSet m s) = judgePermit (judgeCycle (motionMarked m s)) := rfl

/-- The Doorway Monitor after a motion change: the stop cycle judged from the marks, and the permit. -/
theorem setMotion_door (h : s.pulse.motion ≠ m) :
    (setMotion m s).door = (judgePermit (judgeCycle (motionMarked m s))).door := by
  rw [setMotion_change h, handMotion, doorMotion_marked]
  split
  · simp
  · rfl

/-- What a motion change has recorded stays. -/
theorem setMotion_recorded (h : s.pulse.motion ≠ m)
    (recorded : noticeSet (judgeCycle (motionMarked m s)) .stopRecorded = true) :
    noticeSet (setMotion m s) .stopRecorded = true := by
  have judged : noticeSet (judgePermit (judgeCycle (motionMarked m s))) .stopRecorded = true := recorded
  rw [setMotion_change h, handMotion, doorMotion_marked]
  split
  · exact ((abortTest_reach .motion _).notices .stopRecorded).1 judged
  · exact judged

/-- Leaving STANDSTILL ends a test (R119). -/
theorem setMotion_test (was : s.pulse.motion = .standstill) (leaves : m ≠ .standstill) (run : s.out.test ≠ none) :
    (setMotion m s).out.test = none ∧ (setMotion m s).out.lastResult = .aborted .motion := by
  have change : s.pulse.motion ≠ m := fun e => leaves (e.symm.trans was)
  rw [setMotion_change change, handMotion, if_pos was, doorMotion_marked]
  obtain ⟨x, running⟩ := Option.ne_none_iff_exists'.mp run
  have out : (resetQuick (judgePermit (judgeCycle (motionMarked m s)))).out = s.out := by
    simp [motionMarked, motionSet, setPulse]
  have running' : (resetQuick (judgePermit (judgeCycle (motionMarked m s)))).out.test = some x := by rw [out, running]
  refine ⟨abortTest_test _ _, ?_⟩
  rw [abortTest, endTest_out _ running']
  simp [testDropped, endResult]

theorem judgePermit_permit (s : State) : (judgePermit s).door.dpermit = permitJudged (judgePermit s) := rfl

/-! ## The return of the speed source (R32) -/

/-- The edge references started afresh, the motion state not yet changed. -/
def referenced (s : State) : State := setPulse { s.pulse with
  standstillAt := none, reference := none, count := 0, lastEdge := stampOf s.time.now } s

theorem sourceReturn_eq (s : State) : sourceReturn s = judgePermit (setMotion .unknown (referenced s)) := rfl

theorem sourceReturn_pulse (s : State) : (sourceReturn s).pulse = { s.pulse with
    reference := none, count := 0, lastEdge := BitVec.ofNat 32 s.time.now, motion := .unknown
    standstillAt := none } := by
  have pulse : (sourceReturn s).pulse = (setMotion .unknown (referenced s)).pulse := rfl
  rw [pulse, setMotion_pulse, moved]
  split
  next same =>
    have unit : ∀ p : PulseUnit, p.motion = .unknown → p = { p with motion := .unknown } := fun p e => by rw [← e]
    exact unit (referenced s).pulse same
  · rfl

/-- The return from a standstill: the stop cycle judged, every quick adopt ended, and a test. -/
theorem sourceReturn_door (was : s.pulse.motion ≠ .unknown) : { (sourceReturn s).door with dpermit := s.door.dpermit } =
    (judgeCycle (motionMarked .unknown (referenced s))).door := by
  have door : (sourceReturn s).door =
      { (setMotion .unknown (referenced s)).door with dpermit := permitJudged (sourceReturn s) } := rfl
  have judged := setMotion_door (s := referenced s) (m := .unknown) was
  have permit : (judgeCycle (motionMarked .unknown (referenced s))).door.dpermit = s.door.dpermit := by
    simp [motionMarked, referenced, motionSet, setPulse]
  rw [door, judged, ← permit]
  rfl

theorem sourceReturn_analog (was : s.pulse.motion = .standstill) : (sourceReturn s).analog = quickless s.analog := by
  have analog : (sourceReturn s).analog = (setMotion .unknown (referenced s)).analog := rfl
  rw [analog, setMotion_analog, if_pos ⟨was, by decide⟩]
  rfl

end Motion

end Sys2Proof.Proofs

/-! A new k-factor of either side. -/

namespace Sys2Proof.Proofs

open Sys2Proof Sys2Proof.Machine Sys2Proof.Safety

section KFactor

variable {s b x y t : State} {side : Side} {k now : Nat}

/-! ## The checks (R53) -/

/-- The result of the first check of a k-factor that fails. -/
def kFactorRefusal (s : State) (k : Nat) (h : Holder) : Option Byte :=
  if k < 2000 ∨ 65000 < k then some 4
  else if s.win.claims.odometer ≠ h then some 2
  else if s.pulse.motion ≠ .standstill then some 3
  else if s.dist.kfactor ≠ none then some 5
  else none

theorem kFactorCheck_refused {e : Byte} (h : kFactorRefusal s k (sideHolder side) = some e) :
    ∃ x : Result, kFactorCheck side k s = some x ∧ x.code = e := by
  unfold kFactorRefusal at h
  unfold kFactorCheck
  simp only [holdsClaim_odometer, Option.isSome_iff_ne_none]
  split_ifs at h ⊢ <;> simp only [Option.some.injEq] at h
  exacts [⟨.badParameter, rfl, h⟩, ⟨.notClaimed, rfl, h⟩, ⟨.wrongState, rfl, h⟩, ⟨.busy, rfl, h⟩]

theorem kFactorCheck_passed (h : kFactorRefusal s k (sideHolder side) = none) :
    kFactorCheck side k s = none ∧ s.pulse.motion = .standstill := by
  unfold kFactorRefusal at h
  unfold kFactorCheck
  simp only [holdsClaim_odometer, Option.isSome_iff_ne_none]
  split_ifs at h ⊢
  next standing _ => exact ⟨rfl, not_not.mp standing⟩

/-! ## A k-factor taken -/

/-- The k-factor in flight and its job, from the state with K taken. -/
def kInFlight (side : Side) (u : State) : State := { u with
  dist := { u.dist with kfactor := some { side := side, started := false } }
  store := { u.store with queue := addJob u.store.queue .calibration } }

theorem takeKFactor_eq (side : Side) (k : Nat) (s : State) : takeKFactor side k s = kInFlight side (takeK k s) := by
  rw [takeKFactor, enqueue_store]
  rfl

/-- The source stays what it is, unless an invalid record gives way to a valid one with the wire healthy. -/
theorem takeKFactor_stays (h : s.pulse.calValid = true ∨ s.pulse.wireBroken = true) :
    takeKFactor side k s = kInFlight side (kTaken k s) ∧
    sourceValid (kTaken k s).pulse = sourceValid s.pulse := by
  have same : sourceValid (kTaken k s).pulse = sourceValid s.pulse := by
    obtain valid | broken := h
    · simp [kTaken, setPulse, sourceValid, valid]
    · simp [kTaken, setPulse, sourceValid, broken]
  refine ⟨?_, same⟩
  rw [takeKFactor_eq, takeK_eq, if_neg]
  rw [same]
  rintro ⟨not_, is⟩
  simp [is] at not_

theorem takeKFactor_returns (invalid : s.pulse.calValid = false) (healthy : s.pulse.wireBroken = false) :
    takeKFactor side k s = kInFlight side (sourceReturn (kTaken k s)) := by
  rw [takeKFactor_eq, takeK_eq, if_pos]
  simp [kTaken, setPulse, sourceValid, invalid, healthy]

/-- A request taken or left in flight: the blocks stand as they were, but for the clock, the link and the slots. -/
structure RequestAlone (s b : State) : Prop where
  sense : b.sense = s.sense
  pulse : b.pulse = s.pulse
  dist : b.dist = s.dist
  analog : b.analog = s.analog
  door : b.door = s.door
  warn : b.warn = s.warn
  out : b.out = s.out
  faults : b.faults = s.faults
  store : b.store = s.store
  image : b.image = s.image
  pending : b.pending = s.pending
  claims : b.win.claims = s.win.claims
  notices : ∀ n, noticeSet s n = true → noticeSet b n = true
  images : ∀ a, 0x0300 ≤ a → ramRead b a = ramRead s a

theorem requestAlone_begin (i : Nat) (n : Fin 8) (s : State) : RequestAlone s (beginTake i n s) := by
  refine ⟨rfl, rfl, rfl, rfl, rfl, rfl, rfl, rfl, rfl, rfl, rfl, rfl, fun _ => id, fun a high => ?_⟩
  refine beginTake_kept s i n a fun r mem => .inr ?_
  obtain rfl : r = (slotBase n + 3, 2) := by simpa using mem
  have base : slotBase n = 0x0100 + 64 * n.val := rfl
  dsimp only
  omega

theorem requestAlone_service (r : Request) (s : State) : RequestAlone s (beginService r s) :=
  ⟨rfl, rfl, rfl, rfl, rfl, rfl, rfl, rfl, rfl, rfl, rfl, rfl, fun _ => id, fun _ _ => rfl⟩

theorem requestAlone_slot (k : Operation) (w : WindowOp) (s : State) : RequestAlone s (setWindowOp k w s) :=
  ⟨rfl, rfl, rfl, rfl, rfl, rfl, rfl, rfl, rfl, rfl, rfl, rfl, fun _ => id, fun _ _ => rfl⟩

theorem requestAlone_reply (r : Reply) (s : State) : RequestAlone s (setReply r s) := by
  refine ⟨?_, ?_, ?_, ?_, ?_, ?_, ?_, ?_, ?_, ?_, ?_, ?_, fun n => ?_, fun a _ => ?_⟩ <;> simp [noticeSet, ramRead]

/-- A new K alone, with the job and the operation: the state in which a request with a valid record, or a broken
wire, leaves the unit. -/
theorem kFactor_quiet (base : RequestAlone s b) (rest : RequestAlone (kInFlight side (kTaken k b)) y) : QuietWrite s y := by
  refine ⟨?_, ?_, ?_, ?_, ?_, outputBytes_congr ?_, ?_⟩
  · rw [rest.sense]; exact base.sense
  · rw [rest.image]; exact base.image
  · rw [rest.door]; exact base.door
  · rw [rest.warn]; exact base.warn
  · rw [rest.faults]; exact base.faults
  · rw [rest.out]; exact base.out
  · rw [supervisionFallback, supervisionFallback, rest.out]
    rw [show (kInFlight side (kTaken k b)).out = s.out from base.out]

/-- What a new k-factor leaves at the end of its event, whatever follows the source. -/
theorem kFactor_common {c : Bool} (base : RequestAlone s b) (clock : b.time.now = now)
    (rest : RequestAlone (takeKFactor side k b) y) (time : y.time = b.time) :
    let t := settle c s y
    t.time.now = now ∧ t.dist.kfactor = some { side := side, started := false } ∧
    Object.calibration ∈ t.store.queue ∧
    t.dist.live = s.dist.live ∧ t.dist.retained = s.dist.retained ∧ t.dist.tripA = s.dist.tripA ∧
    t.dist.tripB = s.dist.tripB ∧ t.dist.ticks = s.dist.ticks ∧ t.sense = s.sense ∧ t.image = s.image ∧
    t.win.claims = s.win.claims ∧ t.pending = s.pending := by
  have dist : (settle c s y).dist = y.dist := by simp
  have taken : (takeKFactor side k b).dist = { b.dist with kfactor := some { side := side, started := false } } := by
    rw [takeKFactor_eq]
    simp [kInFlight]
  have job : Object.calibration ∈ y.store.queue := by
    rw [rest.store, takeKFactor_eq]
    exact mem_addJob.mpr (.inr rfl)
  refine ⟨?_, ?_, ?_, ?_, ?_, ?_, ?_, ?_, ?_, ?_, ?_, ?_⟩
  · rw [show (settle c s y).time = y.time by simp, time, clock]
  · rw [dist, rest.dist, taken]
  · unfold settle
    split
    · exact (finish_jobs s y).1 _ job
    · rw [show (publish s y).store = y.store by simp]
      exact job
  all_goals try rw [dist, rest.dist, taken, base.dist]
  · rw [show (settle c s y).sense = y.sense by simp, rest.sense, ← base.sense]
    simp
  · rw [show (settle c s y).image = y.image by simp, rest.image, ← base.image]
    simp
  · rw [show (settle c s y).win.claims = y.win.claims by simp, rest.claims, ← base.claims]
    simp
  · rw [show (settle c s y).pending = y.pending by simp, rest.pending, ← base.pending]
    simp

/-- The return of the source with a new K, at the end of its event (R32, R53). -/
theorem kFactor_returned (base : RequestAlone s b) (clock : b.time.now = now)
    (rest : RequestAlone (takeKFactor side k b) y) (time : y.time = b.time)
    (invalid : s.pulse.calValid = false) (healthy : s.pulse.wireBroken = false)
    (standing : s.pulse.motion = .standstill) :
    let t := finish s y
    t.pulse = { s.pulse with
      k := k, calValid := true, acc := 0, reference := none, count := 0, lastEdge := BitVec.ofNat 32 now
      motion := .unknown, standstillAt := none } ∧
    cycleFollows s t (motionMarks s t s.door) ∧ t.door.dpermit = permitJudged t ∧
    (∀ c : Fin 6, t.analog.channels[c] = { s.analog.channels[c] with quick := 0 }) ∧
    (s.out.test ≠ none → t.out.test = none ∧ t.out.lastResult = .aborted .motion) ∧
    warningsJudged t now s.warn t.warn := by
  intro t
  have invalidB : b.pulse.calValid = false := by rw [base.pulse, invalid]
  have healthyB : b.pulse.wireBroken = false := by rw [base.pulse, healthy]
  rw [takeKFactor_returns invalidB healthyB] at rest
  have standingB : (kTaken k b).pulse.motion = .standstill := by
    change b.pulse.motion = .standstill
    rw [base.pulse, standing]
  have pulse : t.pulse = (sourceReturn (kTaken k b)).pulse := by
    rw [show t.pulse = y.pulse by simp [t], rest.pulse]
    rfl
  have door : t.door = (sourceReturn (kTaken k b)).door := by
    rw [show t.door = y.door by simp [t], rest.door]
    rfl
  have sense : t.sense = (sourceReturn (kTaken k b)).sense := by
    rw [show t.sense = y.sense by simp [t], rest.sense]
    rfl
  have image : t.image = (sourceReturn (kTaken k b)).image := by
    rw [show t.image = y.image by simp [t], rest.image]
    rfl
  have doorB : (kTaken k b).door = s.door := base.door
  have pulseS : t.pulse = { s.pulse with
      k := k, calValid := true, acc := 0, reference := none, count := 0, lastEdge := BitVec.ofNat 32 now
      motion := .unknown, standstillAt := none } := by
    rw [pulse, sourceReturn_pulse, kTaken, setPulse]
    simp [invalid, base.pulse, clock]
  have marks : motionMarks s t s.door = (motionMarked .unknown (referenced (kTaken k b))).door := by
    have moves : t.pulse.motion ≠ s.pulse.motion := by
      rw [pulseS, standing]
      exact fun e => by cases e
    rw [motionMarks, if_neg moves, pulseS, ← doorB]
    rfl
  have imagesY : areaSame journalArea s y := fun a low _ => by
    have high : 0x0300 ≤ a := le_trans (by simp [journalArea]) low
    rw [rest.images a high, ← base.images a high]
    exact images_kept (area := (a, 1)) (sourceReturn_reach (kTaken k b)) high a le_rfl (by simp)
  refine ⟨pulseS, ?_, ?_, fun c => ?_, fun run => ?_, ?_⟩
  · rw [marks]
    refine cycleFollows_of ⟨?_, ?_, ?_, ?_⟩ ?_ ?_ ?_ ?_ finish_doors (fun recorded => ?_) (finish_journal imagesY)
    · rw [sense]
      simp [motionMarked, referenced, motionSet, setPulse]
    · rw [pulseS]
      rfl
    · rw [door]
      simp [motionMarked, referenced, motionSet, setPulse]
    · rw [image]
      simp [motionMarked, referenced, motionSet, setPulse]
    · rw [show t.time = y.time by simp [t], time]
      rfl
    · rw [show t.dist = y.dist by simp [t], rest.dist]
      simp [kInFlight, motionMarked, referenced, motionSet, setPulse]
    · intro open_
      rw [← doorB] at open_
      exact open_
    · rw [door, ← doorB]
      exact sourceReturn_door (by rw [standingB]; decide)
    · refine finish_notice s (rest.notices _ ?_)
      exact setMotion_recorded (s := referenced (kTaken k b)) (m := .unknown)
        (fun e => absurd (standingB.symm.trans e) (by decide)) recorded
  · have same : PermitSame (sourceReturn (kTaken k b)) t := ⟨by rw [door], by rw [door], by rw [pulse], by rw [pulse], sense, image⟩
    rw [door, same.judged]
    rfl
  · rw [show t.analog = y.analog by simp [t], rest.analog]
    change (sourceReturn (kTaken k b)).analog.channels[c] = _
    rw [sourceReturn_analog standingB, ← base.analog]
    simp [quickless, kTaken, setPulse]
  · have run' : (referenced (kTaken k b)).out.test ≠ none := by
      change b.out.test ≠ none
      rw [base.out]
      exact run
    obtain ⟨ended, result⟩ := setMotion_test (s := referenced (kTaken k b)) (m := .unknown) standingB (by decide) run'
    have out : y.out = (setMotion .unknown (referenced (kTaken k b))).out := rest.out
    obtain ⟨endedT, -, resultT⟩ := (finish_outputs s y).idle (by rw [out, ended])
    exact ⟨endedT, by rw [resultT, out, result]⟩
  · have judged := finish_judged (b := s) (u := y)
    have warn : y.warn = s.warn := by
      rw [rest.warn, ← base.warn]
      simp [kInFlight, kTaken, setPulse]
    rw [warn, show (finish s y).time = y.time by simp, time, clock] at judged
    exact judged

/-! ## The request's own slot and reply -/

/-- A slot stands alike, with its result. -/
structure SlotSame (n : Fin 8) (s t : State) : Prop where
  state : t.win.slots[n] = s.win.slots[n]
  result : slotByte t n 3 = slotByte s n 3
  detail : slotByte t n 4 = slotByte s n 4

theorem SlotSame.trans {n : Fin 8} {u v w : State} (h : SlotSame n u v) (g : SlotSame n v w) : SlotSame n u w :=
  ⟨g.state.trans h.state, g.result.trans h.result, g.detail.trans h.detail⟩

theorem SlotSame.of {n : Fin 8} {u v : State} (slots : v.win.slots = u.win.slots) (ram : v.win.ram = u.win.ram) :
    SlotSame n u v :=
  ⟨by simp only [slots], by rw [slotByte, slotByte, ramRead, ramRead, ram], by
    rw [slotByte, slotByte, ramRead, ramRead, ram]⟩

theorem deliverWindow_slotOther {u : State} {n : Fin 8} (other : u.win.ops.test ≠ .slot n) (result : Result)
    (detail : Byte) : SlotSame n u (deliverWindow .test result detail u) := by
  unfold deliverWindow
  split
  next m named =>
    have apart : n ≠ m := by
      rintro rfl
      exact other named
    obtain ⟨state, third, fourth⟩ := finishSlot_other apart result detail u
    exact ⟨state, third, fourth⟩
  next => exact .of rfl rfl

/-- The end of a test leaves a slot that it does not name. -/
theorem endTest_slotOther {u : State} {n : Fin 8} (r : Option AbortReason) (other : u.win.ops.test ≠ .slot n) :
    SlotSame n u (endTest r u) := by
  cases run : u.out.test with
  | none =>
    rw [endTest_idle r run]
    exact .of rfl rfl
  | some z =>
    have dropped : SlotSame n u (testDropped r u) := .of (testDropped_slots ..) (testDropped_ram ..)
    rw [endTest_eq r run]
    refine dropped.trans ?_
    cases z.side with
    | workshop => exact .of (by simp [deliver]) (by simp [deliver])
    | window => exact deliverWindow_slotOther (by rw [testDropped_ops]; exact other) _ _

/-- A motion change leaves every slot but that of a test it ends. -/
theorem setMotion_slotOther {u : State} {n : Fin 8} (m : Motion) (other : u.win.ops.test ≠ .slot n) :
    SlotSame n u (setMotion m u) := by
  by_cases same : u.pulse.motion = m
  · rw [setMotion_same same]
    exact .of rfl rfl
  · have ops : (resetQuick (doorMotion (motionSet m u))).win.ops = u.win.ops := by simp [motionSet, setPulse]
    have marked : SlotSame n u (doorMotion (motionSet m u)) :=
      .of (by simp [motionSet, setPulse]) (by simp [motionSet, setPulse])
    rw [setMotion_change same, handMotion]
    split
    · have quick : SlotSame n u (resetQuick (doorMotion (motionSet m u))) := marked.trans (.of (by simp) (by simp))
      exact quick.trans (endTest_slotOther (some .motion) (by rw [ops]; exact other))
    · exact marked

theorem setMotion_ops (m : Motion) (u : State) :
    (setMotion m u).win.ops = u.win.ops ∨ (setMotion m u).win.ops = { u.win.ops with test := .idle } :=
  (setMotion_reach m u).op

/-- Leaving STANDSTILL leaves no test. -/
theorem setMotion_untested {u : State} {m : Motion} (was : u.pulse.motion = .standstill) (leaves : m ≠ .standstill) :
    (setMotion m u).out.test = none := by
  have change : u.pulse.motion ≠ m := fun e => leaves (e.symm.trans was)
  rw [setMotion_change change, handMotion, if_pos was]
  exact abortTest_test _ _

/-- The end of an event with no test running delivers nothing. -/
theorem finish_quiet {u : State} (b : State) (idle : u.out.test = none) : (finish b u).win.slots = u.win.slots ∧
    (finish b u).win.ops = u.win.ops ∧ (finish b u).link = u.link := by
  obtain ⟨-, slots, ops, link⟩ := (finish_reach b u).quiet idle
  exact ⟨slots, ops, link⟩

/-- The end of an event leaves the bytes of a slot that no test names. -/
theorem finish_slotByte {u : State} (b : State) {n : Fin 8} (other : u.win.ops.test ≠ .slot n) {k : Nat} (low : k < 64) :
    slotByte (finish b u) n k = slotByte u n k := by
  have base : slotBase n = 0x0100 + 64 * n.val := rfl
  refine (finish_reach b u).ram _ fun r mem => ?_
  obtain event | result := List.mem_append.mp mem
  · left
    have high : 0x1000 ≤ r.1 := by
      revert event
      simp only [eventAreas, List.mem_cons, List.not_mem_nil, or_false, outputArea, listArea, faultArea, senseArea,
        doorArea, journalArea]
      rintro (rfl | rfl | rfl | rfl | rfl | rfl) <;> simp
    omega
  · cases op : u.win.ops.test with
    | slot m =>
      rw [op] at result
      obtain rfl : r = (slotBase m + 3, 2) := by simpa [slotResultArea] using result
      have apart : n.val ≠ m.val := fun e => other (by rw [op, Fin.ext e])
      have base' : slotBase m = 0x0100 + 64 * m.val := rfl
      dsimp only
      omega
    | idle => simp [op, slotResultArea] at result
    | orphan => simp [op, slotResultArea] at result

end KFactor

/-! ## SET_K_FACTOR and WRITE_K_FACTOR -/

section Requests

variable {s b y : State} {side : Side} {k now : Nat}

/-- What a new k-factor with an invalid record leaves. -/
def kFactorFresh (s : State) (k : Nat) (side : Side) (now : Nat) (t : State) : Prop :=
  let set : PulseUnit := { s.pulse with k := k, calValid := true, acc := 0 }
  (s.pulse.wireBroken = true → t.pulse = set ∧ t.door = s.door ∧ t.warn = s.warn ∧ t.analog = s.analog ∧
    t.out = s.out ∧ t.faults = s.faults) ∧
  (s.pulse.wireBroken = false →
    t.pulse =
      { set with
        reference := none, count := 0, lastEdge := BitVec.ofNat 32 now, motion := .unknown
        standstillAt := none } ∧
    cycleFollows s t (motionMarks s t s.door) ∧ t.door.dpermit = permitJudged t ∧
    (∀ c : Fin 6, t.analog.channels[c] = { s.analog.channels[c] with quick := 0 }) ∧
    (s.out.test ≠ none → t.out.test = none ∧ t.out.lastResult = .aborted .motion) ∧
    warningsJudged t now s.warn t.warn) ∧
  t.time.now = now ∧ t.dist.kfactor = some { side := side, started := false } ∧
  Object.calibration ∈ t.store.queue ∧
  t.dist.live = s.dist.live ∧ t.dist.retained = s.dist.retained ∧ t.dist.tripA = s.dist.tripA ∧
  t.dist.tripB = s.dist.tripB ∧ t.dist.ticks = s.dist.ticks ∧ t.sense = s.sense ∧ t.image = s.image ∧
  t.win.claims = s.win.claims ∧ t.pending = s.pending

theorem kFactor_fresh (base : RequestAlone s b) (clock : b.time.now = now)
    (rest : RequestAlone (takeKFactor side k b) y) (time : y.time = b.time)
    (invalid : s.pulse.calValid = false) (standing : s.pulse.motion = .standstill) :
    kFactorFresh s k side now (settle (sourceValid s.pulse != sourceValid y.pulse) s y) := by
  refine ⟨fun broken => ?_, fun healthy => ?_, kFactor_common base clock rest time⟩
  · have brokenB : b.pulse.wireBroken = true := by rw [base.pulse, broken]
    obtain ⟨taken, same⟩ := takeKFactor_stays (side := side) (k := k) (.inr brokenB)
    rw [taken] at rest
    have pulse : y.pulse = (kTaken k b).pulse := rest.pulse
    rw [pulse, same, base.pulse, bne_self_eq_false, settle, if_neg (by simp), (kFactor_quiet base rest).publish, pulse,
      rest.door, rest.warn, rest.analog, rest.out, rest.faults]
    refine ⟨?_, base.door, base.warn, base.analog, base.out, base.faults⟩
    simp [kTaken, setPulse, base.pulse, invalid]
  · have valid : sourceValid y.pulse = true := by
      rw [rest.pulse, takeKFactor_returns (by rw [base.pulse, invalid]) (by rw [base.pulse, healthy])]
      change sourceValid (sourceReturn (kTaken k b)).pulse = true
      rw [sourceReturn_pulse]
      simp [kTaken, setPulse, sourceValid, base.pulse, healthy]
    have was : sourceValid s.pulse = false := by simp [sourceValid, invalid]
    rw [valid, was, settle, if_pos (by decide)]
    exact kFactor_returned base clock rest time invalid healthy standing

theorem kFactorOperation_done {x : Result} (h : kFactorCheck side k b = some x) :
    kFactorOperation side k b = .done x 0 b := by rw [kFactorOperation, h]

theorem kFactorOperation_passed (h : kFactorCheck side k b = none) :
    kFactorOperation side k b = .inFlight (takeKFactor side k b) := by rw [kFactorOperation, h]

/-- A valid record stays valid: K, the accumulator, the operation and the job alone change. -/
theorem kInFlight_valid (base : RequestAlone s b) (valid : s.pulse.calValid = true) :
    takeKFactor side k b = { b with
      pulse := { s.pulse with k := k, calValid := true, acc := s.pulse.acc * k / s.pulse.k }
      dist := { s.dist with kfactor := some { side := side, started := false } }
      store := { s.store with queue := addJob s.store.queue .calibration } } := by
  rw [(takeKFactor_stays (side := side) (k := k) (.inl (by rw [base.pulse, valid]))).1, kInFlight, kTaken, setPulse]
  simp only [base.pulse, base.dist, base.store, valid, if_true]

theorem sourceReturn_slotOther {u : State} {n : Fin 8} (other : u.win.ops.test ≠ .slot n) :
    SlotSame n u (sourceReturn u) := by
  have start : SlotSame n u (referenced u) := .of rfl rfl
  have set := start.trans (setMotion_slotOther (u := referenced u) .unknown other)
  exact set.trans (.of rfl rfl)

/-- What the source's return leaves of tests and operations, from a standstill. -/
theorem sourceReturn_untested {u : State} (standing : u.pulse.motion = .standstill) :
    (sourceReturn u).out.test = none :=
  setMotion_untested (u := referenced u) standing (by decide)

theorem sourceReturn_ops (u : State) :
    (sourceReturn u).win.ops = u.win.ops ∨ (sourceReturn u).win.ops = { u.win.ops with test := .idle } :=
  (sourceReturn_reach u).op

/-- The slot of a k-factor in flight, its source settled. -/
theorem kFactor_slot {i : Nat} {n : Fin 8} (rest : RequestAlone (takeKFactor .window k (beginTake i n s))
      (setWindowOp .kfactor (.slot n) (takeKFactor .window k (beginTake i n s))))
    (standing : s.pulse.motion = .standstill) :
    let y := setWindowOp .kfactor (.slot n) (takeKFactor .window k (beginTake i n s))
    let t := settle (sourceValid s.pulse != sourceValid y.pulse) s y
    t.win.ops.kfactor = .slot n ∧ (s.win.ops.test ≠ .slot n → t.win.slots[n] = .taken ∧
      (s.win.ram.wf → slotByte t n 3 = 0xFF ∧ slotByte t n 4 = 0)) := by
  intro y t
  have slot : (beginTake i n s).win.slots[n] = .taken := by simp [beginTake]
  by_cases stays : s.pulse.calValid = true ∨ s.pulse.wireBroken = true
  · obtain ⟨taken, same⟩ := takeKFactor_stays (side := .window) (k := k) (s := beginTake i n s) stays
    have source : sourceValid y.pulse = sourceValid s.pulse := by
      change sourceValid (takeKFactor .window k (beginTake i n s)).pulse = _
      rw [taken]
      exact same
    have quiet : t = y := by
      change settle _ s y = y
      rw [source, bne_self_eq_false, settle, if_neg (by simp)]
      refine (kFactor_quiet (requestAlone_begin i n s) (side := .window) (k := k) ?_).publish
      rw [← taken]
      exact rest
    rw [quiet]
    change (setWindowOp .kfactor (.slot n) (takeKFactor .window k (beginTake i n s))).win.ops.kfactor = .slot n ∧ _
    refine ⟨rfl, fun _ => ?_⟩
    simp only [y, taken]
    exact ⟨slot, fun wf => beginTake_result s i n wf⟩
  · obtain ⟨invalid, healthy⟩ : s.pulse.calValid = false ∧ s.pulse.wireBroken = false := by simpa using stays
    have taken := takeKFactor_returns (side := .window) (k := k) (s := beginTake i n s) invalid healthy
    have idle : y.out.test = none := by
      simp only [y, taken]
      exact sourceReturn_untested (u := kTaken k (beginTake i n s)) standing
    have finished : t = finish s y ∨ t = publish s y := by
      change settle _ s y = _ ∨ settle _ s y = _
      unfold settle
      split
      · exact .inl rfl
      · exact .inr rfl
    have slots : t.win.slots = y.win.slots ∧ t.win.ops = y.win.ops := by
      obtain e | e := finished
      · rw [e]
        exact ⟨(finish_quiet s idle).1, (finish_quiet s idle).2.1⟩
      · rw [e]
        simp
    refine ⟨?_, fun other => ?_⟩
    · rw [slots.2]
      rfl
    · have same : SlotSame n (beginTake i n s) y := by
        have returned := sourceReturn_slotOther (u := kTaken k (beginTake i n s)) (n := n) other
        simp only [y, taken]
        exact ⟨returned.state, returned.result, returned.detail⟩
      have otherY : y.win.ops.test ≠ .slot n := by
        simp only [y, taken]
        change (sourceReturn (kTaken k (beginTake i n s))).win.ops.test ≠ .slot n
        obtain e | e := sourceReturn_ops (kTaken k (beginTake i n s)) <;> rw [e]
        · exact other
        · simp
      have bytes : ∀ j, j < 64 → slotByte t n j = slotByte y n j := fun j low => by
        obtain e | e := finished
        · rw [e]
          exact finish_slotByte s otherY low
        · rw [e, publish, publishAll_slotByte _ _ _ _ _ (by omega)]
      refine ⟨?_, fun wf => ?_⟩
      · simp only [slots.1, same.state, slot]
      · rw [bytes 3 (by omega), bytes 4 (by omega), same.result, same.detail]
        exact beginTake_result s i n wf

/-- The reply of a k-factor in flight, its source settled. -/
theorem kFactor_reply {r : Request} (rest : RequestAlone (takeKFactor .workshop k (beginService r s))
      (setReply (.waiting r.tag (some .kfactor)) (takeKFactor .workshop k (beginService r s))))
    (standing : s.pulse.motion = .standstill) :
    let y := setReply (.waiting r.tag (some .kfactor)) (takeKFactor .workshop k (beginService r s))
    let t := settle (sourceValid s.pulse != sourceValid y.pulse) s y
    t.link.reply = .waiting r.tag (some .kfactor) ∧ t.link.request = none := by
  intro y t
  have request : y.link.request = none := by
    simp [y, beginService_request]
  have reply : y.link.reply = .waiting r.tag (some .kfactor) := setReply_reply _ _
  have link : t.link = y.link := by
    by_cases same : sourceValid s.pulse = sourceValid y.pulse
    · have quiet : t = publish s y := by
        change settle _ s y = _
        rw [same, bne_self_eq_false, settle, if_neg (by simp)]
      rw [quiet]
      simp
    · have finished : t = finish s y := by
        change settle _ s y = _
        rw [settle, if_pos (bne_iff_ne.mpr same)]
      have returns : ¬ (s.pulse.calValid = true ∨ s.pulse.wireBroken = true) := fun stays => by
        obtain ⟨taken, kept⟩ := takeKFactor_stays (side := .workshop) (k := k) (s := beginService r s) stays
        refine same ?_
        rw [rest.pulse, taken]
        exact kept.symm
      obtain ⟨invalid, healthy⟩ : s.pulse.calValid = false ∧ s.pulse.wireBroken = false := by simpa using returns
      have taken := takeKFactor_returns (side := .workshop) (k := k) (s := beginService r s) invalid healthy
      have idle : y.out.test = none := by
        rw [rest.out, taken]
        exact sourceReturn_untested (u := kTaken k (beginService r s)) standing
      rw [finished]
      exact (finish_quiet s idle).2.2
  rw [link]
  exact ⟨reply, request⟩

/-- Settles O41: the checks of R53, a valid record, and the return of the source with an invalid one. -/
theorem kFactorIsSet : Obligations.KFactorIsSet := by
  intro s acc taken fresh bad refused
  have same : ∀ k h, refused k h = kFactorRefusal s k h := fun k h => by
    simp only [refused, bad, kFactorRefusal]
    by_cases range : k < 2000 ∨ 65000 < k
    · rw [if_pos range, if_pos range]
    · rw [if_neg range, if_neg range]
  simp only [same]
  refine ⟨fun i n due => ?_, fun r asked => ?_⟩
  · have taking : setKRequest s = serveSlot .kfactor n (kFactorOperation .window
        ((slotByte s n 6).toNat + 256 * (slotByte s n 7).toNat) (beginTake i n s)) := by
      rw [← beginTake_byte s i n (k := 6) (by omega), ← beginTake_byte s i n (k := 7) (by omega)]
      exact windowRequest_due due .kfactor fun n s =>
        kFactorOperation .window ((slotByte s n 6).toNat + 256 * (slotByte s n 7).toNat) s
    have run : exec .setKFactor s =
        .next (settle (sourceValid s.pulse != sourceValid (setKRequest s).pulse) s (setKRequest s)) := rfl
    rw [taking] at run
    refine ⟨_, run, ?_⟩
    clear taking run
    generalize (slotByte s n 6).toNat + 256 * (slotByte s n 7).toNat = k
    have base := requestAlone_begin i n s
    refine ⟨fun e refuse => ?_, fun pass valid => ?_, fun pass invalid => ?_⟩
    · obtain ⟨x, check, rfl⟩ := kFactorCheck_refused (s := beginTake i n s) (side := .window) refuse
      rw [kFactorOperation_done check, serveSlot,
        show (finishSlot n x 0 (beginTake i n s)).pulse = s.pulse by simp, bne_self_eq_false, settle,
        if_neg (by simp), (finishSlot_quiet i n x 0 s).publish]
      exact slotCompletes_begin s i n x 0
    · obtain ⟨check, -⟩ := kFactorCheck_passed (s := beginTake i n s) (side := .window) pass
      have stays := takeKFactor_stays (side := .window) (k := k) (s := beginTake i n s) (.inl valid)
      have rest := requestAlone_slot .kfactor (.slot n) (kInFlight .window (kTaken k (beginTake i n s)))
      have source : sourceValid (setWindowOp .kfactor (.slot n)
          (kInFlight .window (kTaken k (beginTake i n s)))).pulse = sourceValid s.pulse := stays.2
      rw [kFactorOperation_passed check, serveSlot, stays.1, source, bne_self_eq_false, settle, if_neg (by simp),
        (kFactor_quiet base rest).publish]
      refine slotInFlight_begin .kfactor ?_ rfl
      simp only [taken, acc, if_pos valid]
      rw [← stays.1, kInFlight_valid base valid]
      rfl
    · obtain ⟨check, standing⟩ := kFactorCheck_passed (s := beginTake i n s) (side := .window) pass
      have rest := requestAlone_slot .kfactor (.slot n) (takeKFactor .window k (beginTake i n s))
      rw [kFactorOperation_passed check, serveSlot]
      have facts := kFactor_fresh base (now := i) rfl rest (by simp) invalid standing
      refine ⟨?_, ?_⟩
      · exact facts
      · exact kFactor_slot rest standing
  · have head := asked.2.1
    have taking : writeKRequest s = serveLink .kfactor r (kFactorOperation .workshop
        (256 * (param r.payload 1).toNat + (param r.payload 2).toNat) (beginService r s)) :=
      linkTake_requested (code := 18) asked _
    have run : exec .writeKFactor s =
        .next (settle (sourceValid s.pulse != sourceValid (writeKRequest s).pulse) s (writeKRequest s)) := rfl
    rw [taking] at run
    refine ⟨_, run, ?_⟩
    clear taking run
    generalize 256 * (param r.payload 1).toNat + (param r.payload 2).toNat = k
    have base := requestAlone_service r s
    refine ⟨fun e refuse => ?_, fun pass valid => ?_, fun pass invalid => ?_⟩
    · obtain ⟨x, check, rfl⟩ := kFactorCheck_refused (s := beginService r s) (side := .workshop) refuse
      rw [kFactorOperation_done check, serveLink,
        show (answer r x [] (beginService r s)).pulse = s.pulse by simp, bne_self_eq_false, settle,
        if_neg (by simp), (answer_quiet x []).publish]
      exact linkAnswers_begin x [] head
    · obtain ⟨check, -⟩ := kFactorCheck_passed (s := beginService r s) (side := .workshop) pass
      have stays := takeKFactor_stays (side := .workshop) (k := k) (s := beginService r s) (.inl valid)
      have rest := requestAlone_reply (.waiting r.tag (some .kfactor)) (kInFlight .workshop (kTaken k (beginService r s)))
      have source : sourceValid (setReply (.waiting r.tag (some .kfactor))
          (kInFlight .workshop (kTaken k (beginService r s)))).pulse = sourceValid s.pulse := by
        rw [rest.pulse]
        exact stays.2
      rw [kFactorOperation_passed check, serveLink, stays.1, source, bne_self_eq_false, settle, if_neg (by simp),
        (kFactor_quiet base rest).publish, ← stays.1, kInFlight_valid base valid]
      simp only [taken, acc, if_pos valid]
      exact linkServes_of _ rfl rfl (linkBegun_reply s) (fun _ _ => rfl) (noticesKept_of rfl)
    · obtain ⟨check, standing⟩ := kFactorCheck_passed (s := beginService r s) (side := .workshop) pass
      have rest := requestAlone_reply (.waiting r.tag (some .kfactor)) (takeKFactor .workshop k (beginService r s))
      rw [kFactorOperation_passed check, serveLink]
      have facts := kFactor_fresh base (now := linkTakeInstant r.acceptedAt s.time.now) rfl rest (by simp) invalid
        standing
      refine ⟨?_, ?_⟩
      · exact facts
      · exact kFactor_reply rest standing

end Requests

end Sys2Proof.Proofs

/-! A doorway that moves: what it makes of the Doorway Monitor, what the stop cycle makes of that, and what the
images show. The expiry of a doorway's timers. -/

namespace Sys2Proof.Proofs

open Sys2Proof Sys2Proof.Machine Sys2Proof.Safety

section Doorways

variable {s t u b : State}

/-! ## The door image (R86) -/

theorem doorFields_doorway (n : Fin 4) (s : State) : (doorFields s)[n.val]? =
    some (byte (s.door.doorways[n].state.code + bit s.door.doorways[n].obstructed 3 +
      bit s.door.doorways[n].emergency 4 + bit (doorwayPresent s.image n) 7)) := by
  have below := n.isLt
  simp only [doorFields, List.append_assoc, List.getElem?_append, List.length_map, List.length_finRange, below,
    if_true, List.getElem?_map]
  rw [List.getElem?_eq_getElem (by simp)]
  simp

/-- Each doorway's state has bits of its own in the door image. -/
theorem doorFields_state (h : doorFields s = doorFields t) (n : Fin 4) :
    t.door.doorways[n].state = s.door.doorways[n].state := by
  have own := doorFields_doorway n s
  rw [h, doorFields_doorway n t] at own
  have low : ∀ (x : DoorState) (a b c : Bool), (byte (x.code + bit a 3 + bit b 4 + bit c 7)).toNat % 8 = x.code := by
    intro x
    cases x <;> decide
  have codes := congrArg (fun b : Byte => b.toNat % 8) (Option.some.inj own)
  simp only [low] at codes
  revert codes
  cases t.door.doorways[n].state <;> cases s.door.doorways[n].state <;> decide

theorem doorFields_length (s : State) : (doorFields s).length = 10 := by
  simp [doorFields, le32]

theorem doorBytes_fields (h : doorBytes s = doorBytes t) : doorFields s = doorFields t := by
  rw [← doorContent_eq, ← doorContent_eq] at h
  exact (List.append_inj h ((doorFields_length s).trans (doorFields_length t).symm)).1

/-- A change of a field of the door image has it rewritten (R86). -/
theorem finish_doorWritten (kept : areaSame doorArea b u) (h : doorFields b ≠ doorFields (finish b u)) :
    imageWritten doorArea (doorBytes (finish b u)) b (finish b u) := by
  have fields : doorFields b ≠ doorFields (judgeAll u) := by
    rw [finish_doorFields] at h
    rwa [doorFields_congr (b := judgeAll u) (s := u) (by simp) (by simp)]
  have bytes : doorBytes (finish b u) = doorBytes (judgeAll u) := doorBytes_congr (by simp [finish]) (by simp [finish])
  rw [bytes]
  refine imageWritten_congr (by simp [doorArea]) (fun a low high => ?_)
    (publishAll_door (b := b) (s := judgeAll u) false (.inr fun e => fields (doorBytes_fields e))) fun _ _ _ => rfl
  rw [images_kept (judgeAll_reach u) (by simp [doorArea]) a low high, kept a low high]

/-! ## A doorway moves (R72 to R74, R79) -/

/-- The bit of a doorway in the mask of an open record (R79). -/
def stopMarked (n : Fin 4) (stop : Option OpenStop) : Option OpenStop :=
  stop.map fun o => { o with record := { o.record with mask := o.record.mask ||| BitVec.twoPow 4 n.val } }

/-- The Doorway Monitor with a doorway moved, the stop cycle not yet judged. -/
def doorwayPut (n : Fin 4) (x : Doorway) (d : DoorMonitor) : DoorMonitor :=
  { d with
    doorways := d.doorways.set n.val x n.isLt
    stop := if x.state ≠ d.doorways[n].state ∧ x.state.notClosed then stopMarked n d.stop else d.stop }

theorem onRecord_door (f : StopRecord → StopRecord) (s : State) :
    (onRecord f s).door = { s.door with stop := s.door.stop.map fun o => { o with record := f o.record } } := by
  unfold onRecord
  cases stop : s.door.stop with
  | none =>
    have unit : ∀ d : DoorMonitor, d.stop = none → d = { d with stop := none } := fun d is => by rw [← is]
    exact unit s.door stop
  | some o => rfl

theorem moveDoorway_door (n : Fin 4) (x : Doorway) (s : State) :
    (moveDoorway n x s).door = doorwayPut n x s.door := by
  unfold moveDoorway doorwayPut
  split
  · exact onRecord_door _ _
  · rfl

theorem moveDoorway_win (n : Fin 4) (x : Doorway) (s : State) : (moveDoorway n x s).win = s.win := by simp

/-! ## An event that moves a doorway -/

/-- What a moved doorway gives at its event's end, for any state `b` before the event. -/
structure DoorwayMoves (n : Fin 4) (x : Doorway) (b t : State) : Prop where
  doorways : t.door.doorways = b.door.doorways.set n.val x n.isLt
  cycle : cycleFollows b t (doorwayPut n x b.door)
  shown : x.state ≠ b.door.doorways[n].state →
    noticeSet t .doorsChanged = true ∧ imageWritten doorArea (doorBytes t) b t
  kneel : t.door.kneel = b.door.kneel
  ramp : t.door.ramp = b.door.ramp
  age : t.door.age = b.door.age
  mature : t.door.matureDue = b.door.matureDue
  permit : t.door.dpermit = b.door.dpermit

theorem moved_area {area : Area} (high : 0x0300 ≤ area.1) (n : Fin 4) (x : Doorway) (b : State) :
    areaSame area b (judgeCycle (moveDoorway n x b)) :=
  images_kept ((moveDoorway_reach n x b).trans (judgeCycle_reach _)) high

theorem finish_moves (n : Fin 4) (x : Doorway) (b : State) :
    DoorwayMoves n x b (finish b (judgeCycle (moveDoorway n x b))) := by
  have put := moveDoorway_door n x b
  have ways : (finish b (judgeCycle (moveDoorway n x b))).door.doorways = b.door.doorways.set n.val x n.isLt := by
    simp [finish, put, doorwayPut]
  have differs : x.state ≠ b.door.doorways[n].state →
      doorFields b ≠ doorFields (finish b (judgeCycle (moveDoorway n x b))) := fun moves same => moves (by
    rw [← doorFields_state same n, ways]
    exact (congrArg Doorway.state (Vector.getElem_set_self n.isLt)).symm)
  refine ⟨ways, ?_, fun moves => ⟨finish_doors (differs moves),
    finish_doorWritten (moved_area (by simp [doorArea]) n x b) (differs moves)⟩, ?_, ?_, ?_, ?_, ?_⟩
  · rw [← put]
    refine cycleFollows_of (u := moveDoorway n x b) ⟨?_, ?_, ?_, ?_⟩ ?_ ?_ (fun stop => ?_) ?_ finish_doors
      (fun recorded => finish_notice b recorded) (finish_journal (moved_area (by simp [journalArea]) n x b))
    · simp [finish]
    · simp [finish]
    · simp [finish]
    · simp [finish]
    · simp [finish]
    · simp [finish]
    · rw [put, doorwayPut]
      dsimp only
      split
      · rwa [stopMarked, ne_eq, Option.map_eq_none_iff]
      · exact stop
    · have door : (finish b (judgeCycle (moveDoorway n x b))).door = (judgeCycle (moveDoorway n x b)).door := by
        simp [finish]
      have permit : b.door.dpermit = (judgeCycle (moveDoorway n x b)).door.dpermit := by simp
      rw [door, permit]
  · simp [finish]
  · simp [finish]
  · simp [finish]
  · simp [finish]
  · simp [finish]

end Doorways

/-! ## The expiry of a doorway's timers (R73, R74) -/

/-- A doorway event without a change of another source. -/
theorem finish_doorEvent (n : Fin 4) (x : Doorway) (s : State) :
    warningsJudged (finish s (judgeCycle (moveDoorway n x s)))
      (finish s (judgeCycle (moveDoorway n x s))).time.now s.warn (finish s (judgeCycle (moveDoorway n x s))).warn ∧
    besideWarnings { finish s (judgeCycle (moveDoorway n x s)) with door := s.door } = besideWarnings s ∧
    eventReach s (finish s (judgeCycle (moveDoorway n x s))) := by
  have judged := finish_judged s (judgeCycle (moveDoorway n x s))
  have warn : (judgeCycle (moveDoorway n x s)).warn = s.warn := by simp
  rw [warn] at judged
  refine ⟨judged, ?_, ?_⟩
  · have beside := finish_beside s (judgeCycle (moveDoorway n x s))
    have door := congrArg (fun y : State => { y with door := s.door }) beside
    refine Eq.trans door ?_
    have ops : (judgeCycle (moveDoorway n x s)).win.ops = s.win.ops := by simp
    refine besideWarnings_eq (t := { judgeCycle (moveDoorway n x s) with door := s.door })
      ?_ ?_ ?_ ?_ ?_ rfl ?_ ?_ ?_ ?_ ?_ ?_ ?_ ?_ ?_ <;> simp [besideReply]
  · have reach := (((moveDoorway_reach (areas := []) (may := eventNotices) n x s).trans
      (judgeCycle_reach _)).delivery).trans (finish_reach s _)
    exact ⟨reach.ram, reach.notices, reach.quiet⟩

theorem settle_moves (n : Fin 4) (x : Doorway) (s : State) (moves : x ≠ s.door.doorways[n]) :
    settle (decide (s.door.doorways ≠ (judgeCycle (moveDoorway n x s)).door.doorways)) s
      (judgeCycle (moveDoorway n x s)) = finish s (judgeCycle (moveDoorway n x s)) := by
  have ways : (judgeCycle (moveDoorway n x s)).door.doorways = s.door.doorways.set n.val x n.isLt := by
    simp [moveDoorway_door, doorwayPut]
  have differ : s.door.doorways ≠ (judgeCycle (moveDoorway n x s)).door.doorways := fun same => moves (by
    have own := congrArg (fun v : Vector Doorway 4 => v[n]) (same.trans ways)
    exact (own.trans (Vector.getElem_set_self n.isLt)).symm)
  rw [settle, if_pos (decide_eq_true differ)]

/-- Settles O21: the doorway moves, and the event ends with the stop cycle and the warnings judged. -/
theorem doorTimerExpiries : Obligations.DoorTimerExpiries := by
  intro s n
  have travel : exec (.travelTimerExpiry n) s = .next (settle
      (decide (s.door.doorways ≠ (travelExpiry n s).door.doorways)) s (travelExpiry n s)) := rfl
  have conflict : exec (.conflictTimerExpiry n) s = .next (settle
      (decide (s.door.doorways ≠ (conflictExpiry n s).door.doorways)) s (conflictExpiry n s)) := rfl
  have idle : settle (decide (s.door.doorways ≠ s.door.doorways)) s s = s := by simp [settle, publish_self]
  refine ⟨fun due moving => ?_, fun calm => ?_, fun due => ?_, fun calm => ?_⟩
  · have moves : ({ s.door.doorways[n] with state := .stalled, travel := none } : Doorway) ≠ s.door.doorways[n] :=
      fun same => by
        have state := congrArg Doorway.state same
        rw [moving] at state
        cases state
    rw [travelExpiry, if_pos ⟨due, moving⟩, settle_moves n _ s moves] at travel
    refine ⟨_, travel, ?_⟩
    have event := finish_moves n { s.door.doorways[n] with state := .stalled, travel := none } s
    obtain ⟨judged, beside, reach⟩ :=
      finish_doorEvent n { s.door.doorways[n] with state := .stalled, travel := none } s
    have marked : doorwayPut n { s.door.doorways[n] with state := .stalled, travel := none } s.door =
        { s.door with
          doorways := s.door.doorways.set n.val { s.door.doorways[n] with state := .stalled, travel := none } n.isLt
          stop := stopMarked n s.door.stop } := by
      rw [doorwayPut, if_pos ⟨fun same => DoorState.noConfusion (same.trans moving), rfl⟩]
    exact ⟨event.doorways, marked ▸ event.cycle, event.shown, event.kneel, event.ramp, event.age, event.mature,
      event.permit, judged, beside, reach⟩
  · rw [travel, travelExpiry, if_neg (by rintro ⟨due, moving⟩; exact calm.elim (fun c => Bool.noConfusion (c.symm.trans due)) (· moving)),
      idle]
  · have moves : ({ s.door.doorways[n] with state := .conflict, conflict := none, travel := none } : Doorway) ≠
        s.door.doorways[n] := fun same => by
      have timer := congrArg Doorway.conflict same
      rw [← timer] at due
      cases due
    rw [conflictExpiry, if_pos due, settle_moves n _ s moves] at conflict
    refine ⟨_, conflict, ?_⟩
    have event := finish_moves n { s.door.doorways[n] with state := .conflict, conflict := none, travel := none } s
    obtain ⟨judged, beside, reach⟩ :=
      finish_doorEvent n { s.door.doorways[n] with state := .conflict, conflict := none, travel := none } s
    have plain : doorwayPut n { s.door.doorways[n] with state := .conflict, conflict := none, travel := none } s.door =
        { s.door with
          doorways := s.door.doorways.set n.val
            { s.door.doorways[n] with state := .conflict, conflict := none, travel := none } n.isLt } := by
      rw [doorwayPut, if_neg (fun h => by cases h.2)]
    exact ⟨event.doorways, plain ▸ event.cycle, event.shown, event.kneel, event.ramp, event.age, event.mature,
      event.permit, judged, beside, reach⟩
  · rw [conflict, conflictExpiry, if_neg (fun due => Bool.noConfusion (calm.symm.trans due)), idle]

end Sys2Proof.Proofs

/-! A sense sample taken apart: the lines as sampled, the event of a line that changed alone, the wire, and what the
analog inputs add. The doorways at a change of one of their lines. -/

namespace Sys2Proof.Proofs

open Sys2Proof Sys2Proof.Machine Sys2Proof.Safety

section Sense

variable {s t u x : State}

/-! ## The lines as sampled -/

/-- The state after the 32 lines' samples, their changes not yet delivered. -/
def linesSampled (ratios : Vector Sample 32) (s : State) : State :=
  publishSense (atSense s) (sampleLines ratios (atSense s))

/-- The state with the lines' samples taken, but for the window and the instant. -/
structure LinesTaken (s x : State) : Prop where
  pulse : x.pulse = s.pulse
  dist : x.dist = s.dist
  analog : x.analog = s.analog
  door : x.door = s.door
  warn : x.warn = s.warn
  out : x.out = s.out
  faults : x.faults = s.faults
  store : x.store = s.store
  link : x.link = s.link
  slots : x.win.slots = s.win.slots
  ops : x.win.ops = s.win.ops
  notice : x.win.notice = s.win.notice
  image : x.image = s.image

theorem linesSampled_taken (ratios : Vector Sample 32) (s : State) : LinesTaken s (linesSampled ratios s) := by
  constructor <;> simp [linesSampled, atSense, sampleLines]

theorem linesSampled_time (ratios : Vector Sample 32) (s : State) :
    (linesSampled ratios s).time = (atSense s).time := by
  simp [linesSampled, sampleLines]

theorem linesSampled_sense (ratios : Vector Sample 32) (wire : Bool) (inputs : Vector Sample 6) (s : State) :
    (linesSampled ratios s).sense = (sensed ratios wire inputs (atSense s)).sense := by
  rw [sensed_sense]
  simp [linesSampled]

theorem linesSampled_outside (ratios : Vector Sample 32) (s : State) {a : Nat}
    (h : a < 0x1040 ∨ 0x1080 ≤ a) : ramRead (linesSampled ratios s) a = ramRead s a :=
  publishSense_outside _ _ h

theorem linesSampled_notice (ratios : Vector Sample 32) (s : State) (n : Notice) :
    noticeSet (linesSampled ratios s) n = noticeSet s n := by
  rw [noticeSet, noticeSet, (linesSampled_taken ratios s).notice]

/-! ## The events of the changed lines -/

theorem lineEvent_sense (before : Vector Line 32) (x : State) (n : Fin 32) : (lineEvent before x n).sense = x.sense := by
  simp

theorem lineEvents_same {before : Vector Line 32} : ∀ (l : List (Fin 32)),
    (∀ m ∈ l, x.sense.lines[m].debounced = before[m].debounced) → l.foldl (lineEvent before) x = x
  | [], _ => rfl
  | m :: l, same => by
    have head : lineEvent before x m = x := if_pos (same m List.mem_cons_self).symm
    rw [List.foldl_cons, head]
    exact lineEvents_same l fun k mem => same k (List.mem_cons_of_mem m mem)

/-- One changed line among the others: its event alone. -/
theorem lineEvents_one {before : Vector Line 32} {n : Fin 32} : ∀ (l : List (Fin 32)), l.Nodup → n ∈ l →
    (∀ m ∈ l, m ≠ n → x.sense.lines[m].debounced = before[m].debounced) →
    l.foldl (lineEvent before) x = lineEvent before x n
  | [], _, mem, _ => by cases mem
  | m :: l, distinct, mem, same => by
    obtain ⟨apart, rest⟩ := List.nodup_cons.mp distinct
    rw [List.foldl_cons]
    by_cases own : m = n
    · rw [own]
      refine lineEvents_same l fun k there => ?_
      rw [lineEvent_sense]
      exact same k (List.mem_cons_of_mem m there) fun e => apart (own ▸ e ▸ there)
    · have head : lineEvent before x m = x := if_pos (same m List.mem_cons_self own).symm
      rw [head]
      have there : n ∈ l := (List.mem_cons.mp mem).resolve_left (Ne.symm own)
      exact lineEvents_one l rest there fun k at_ => same k (List.mem_cons_of_mem m at_)

theorem takeLines_same (ratios : Vector Sample 32)
    (same : ∀ m : Fin 32, (linesSampled ratios s).sense.lines[m].debounced = s.sense.lines[m].debounced) :
    takeLines ratios (atSense s) = linesSampled ratios s :=
  lineEvents_same _ fun m _ => same m

/-- The event of the one line that changed. -/
def oneLine (ratios : Vector Sample 32) (n : Fin 32) (s : State) : State :=
  deliverChange (lineEntry s.image n).role s.sense.lines[n].debounced (linesSampled ratios s).sense.lines[n].debounced
    (linesSampled ratios s)

theorem takeLines_one (ratios : Vector Sample 32) {n : Fin 32}
    (one : ∀ m : Fin 32, (linesSampled ratios s).sense.lines[m].debounced = s.sense.lines[m].debounced ↔ m ≠ n) :
    takeLines ratios (atSense s) = finish (linesSampled ratios s) (oneLine ratios n s) := by
  have changed : ¬ s.sense.lines[n].debounced = lineState (linesSampled ratios s) n := fun e => (one n).mp e.symm rfl
  have alone : takeLines ratios (atSense s) = lineEvent s.sense.lines (linesSampled ratios s) n :=
    lineEvents_one _ (List.nodup_finRange 32) (List.mem_finRange n) fun m _ other => (one m).mpr other
  rw [alone, lineEvent, if_neg changed, deliverLine, if_neg changed, oneLine, (linesSampled_taken ratios s).image]
  rfl

/-! ## The wire of PULSE_V (R28) -/

theorem sampleWire_valid (b : Bool) (x : State) :
    sourceValid (sampleWire b x).pulse = sourceValid (wireSampled b x).pulse := by
  rw [sampleWire_eq]
  split
  · rw [sourceLost]
    simp [sourceValid, setPulse, PulseUnit.noSpeed]
  · split
    · rw [sourceReturn_pulse]
      rfl
    · rfl

theorem wireEvent_valid (b : Bool) (x : State) :
    sourceValid (wireEvent b x).pulse = sourceValid (wireSampled b x).pulse := by
  rw [← sampleWire_valid, wireEvent, settle]
  split <;> simp [finish]

/-- A publication where only the Pulse Channel Unit has changed. -/
theorem publish_unshown (x : State) (p : PulseUnit) : publish x (setPulse p x) = setPulse p x := by
  rw [publish_onlyOutput (b := x) (s := setPulse p x) rfl rfl rfl rfl rfl,
    publishOutput_same x (setPulse p x) (outputBytes_congr rfl)]

/-- A sample of the wire that leaves the source counts alone. -/
theorem wireEvent_quiet {b : Bool} (same : sourceValid (wireEvent b x).pulse = sourceValid x.pulse) :
    wireEvent b x = wireSampled b x := by
  rw [wireEvent_valid] at same
  have quiet : sampleWire b x = wireSampled b x := by
    rw [sampleWire_eq, same, if_neg (by simp), if_neg (by simp)]
  rw [wireEvent, quiet, same, bne_self_eq_false, settle, if_neg (by simp)]
  exact publish_unshown x _

theorem wireEvent_source {b : Bool} (differs : sourceValid (wireEvent b x).pulse ≠ sourceValid x.pulse) :
    wireEvent b x = finish x (sampleWire b x) := by
  rw [wireEvent_valid, ← sampleWire_valid] at differs
  rw [wireEvent, settle, if_pos (by simpa using Ne.symm differs)]

/-! ## The end of the sample -/

/-- What the wire's count and the analog groups leave of a state. -/
structure SampleApart (x t : State) : Prop where
  time : t.time = x.time
  sense : t.sense = x.sense
  motion : t.pulse.motion = x.pulse.motion
  standstillAt : t.pulse.standstillAt = x.pulse.standstillAt
  dist : t.dist = x.dist
  quick : ∀ c : Fin 6, t.analog.channels[c].quick = x.analog.channels[c].quick
  door : t.door = x.door
  warn : t.warn = x.warn
  out : t.out = x.out
  faults : t.faults = x.faults
  store : t.store = x.store
  link : t.link = x.link
  win : t.win = x.win
  image : t.image = x.image
  running : t.pulse.running = x.pulse.running
  fault : ∀ c : Fin 6, t.analog.channels[c].fault = x.analog.channels[c].fault
  supplyLow : t.analog.supplyLow = x.analog.supplyLow

theorem absorb_fault (c : Channel) (b : Bool) : (c.absorb b).fault = c.fault := by
  unfold Channel.absorb
  (repeat' split) <;> rfl

theorem sample_fault (c : Channel) (r : Sample) (b : Bool) : (c.sample r b).fault = c.fault := by
  unfold Channel.sample
  (repeat' split) <;> rfl

theorem sampleInputs_fault (inputs : Vector Sample 6) (x : State) (c : Fin 6) :
    (sampleInputs inputs x).analog.channels[c].fault = x.analog.channels[c].fault := by
  simp [sampleInputs, setAnalog, absorb_fault, sample_fault]

theorem absorb_quick (c : Channel) (b : Bool) : (c.absorb b).quick = c.quick := by
  unfold Channel.absorb
  (repeat' split) <;> rfl

theorem sample_quick (c : Channel) (r : Sample) (b : Bool) : (c.sample r b).quick = c.quick := by
  unfold Channel.sample
  (repeat' split) <;> rfl

theorem sampleInputs_quick (inputs : Vector Sample 6) (x : State) (c : Fin 6) :
    (sampleInputs inputs x).analog.channels[c].quick = x.analog.channels[c].quick := by
  simp [sampleInputs, setAnalog, absorb_quick, sample_quick]

theorem sampleInputs_apart (inputs : Vector Sample 6) (x : State) : SampleApart x (sampleInputs inputs x) :=
  ⟨rfl, rfl, rfl, rfl, rfl, sampleInputs_quick inputs x, rfl, rfl, rfl, rfl, rfl, rfl, rfl, rfl, rfl,
    sampleInputs_fault inputs x, rfl⟩

theorem SampleApart.trans (h : SampleApart s t) (g : SampleApart t u) : SampleApart s u :=
  ⟨g.time.trans h.time, g.sense.trans h.sense, g.motion.trans h.motion, g.standstillAt.trans h.standstillAt,
    g.dist.trans h.dist, fun c => (g.quick c).trans (h.quick c), g.door.trans h.door, g.warn.trans h.warn,
    g.out.trans h.out, g.faults.trans h.faults, g.store.trans h.store, g.link.trans h.link, g.win.trans h.win,
    g.image.trans h.image, g.running.trans h.running, fun c => (g.fault c).trans (h.fault c),
    g.supplyLow.trans h.supplyLow⟩

theorem wireSampled_apart (b : Bool) (x : State) : SampleApart x (wireSampled b x) :=
  ⟨rfl, rfl, rfl, rfl, rfl, fun _ => rfl, rfl, rfl, rfl, rfl, rfl, rfl, rfl, rfl, rfl, fun _ => rfl, rfl⟩

theorem SampleApart.noticeSet_eq (h : SampleApart x t) (n : Notice) : noticeSet t n = noticeSet x n := by
  rw [noticeSet, noticeSet, h.win]

theorem SampleApart.ram (h : SampleApart x t) (a : Nat) : ramRead t a = ramRead x a := by
  rw [ramRead, ramRead, h.win]

theorem takeLines_valid (ratios : Vector Sample 32) (s : State) :
    sourceValid (takeLines ratios (atSense s)).pulse = sourceValid s.pulse := by
  simp [sourceValid, atSense]

theorem sensed_valid (ratios : Vector Sample 32) (wire : Bool) (inputs : Vector Sample 6) (s : State) :
    sourceValid (sensed ratios wire inputs (atSense s)).pulse =
      sourceValid (wireEvent wire (takeLines ratios (atSense s))).pulse := by
  simp [sensed]

/-- A sample that leaves the source: the events of the lines, the wire's count and the analog groups. -/
theorem sensed_quiet {ratios : Vector Sample 32} {wire : Bool} {inputs : Vector Sample 6}
    (source : sourceValid (sensed ratios wire inputs (atSense s)).pulse = sourceValid s.pulse) :
    SampleApart (takeLines ratios (atSense s)) (sensed ratios wire inputs (atSense s)) := by
  rw [sensed_valid, ← takeLines_valid ratios s] at source
  rw [sensed, wireEvent_quiet source]
  exact (wireSampled_apart wire _).trans (sampleInputs_apart inputs _)

theorem lines_sensed {ratios : Vector Sample 32} {wire : Bool} {inputs : Vector Sample 6} {p : Fin 32 → Prop}
    (lines : ∀ m : Fin 32,
      (sensed ratios wire inputs (atSense s)).sense.lines[m].debounced = s.sense.lines[m].debounced ↔ p m) :
    ∀ m : Fin 32, (linesSampled ratios s).sense.lines[m].debounced = s.sense.lines[m].debounced ↔ p m := by
  rw [linesSampled_sense ratios wire inputs]
  exact lines

/-- A sample that changes one line alone and leaves the source. -/
theorem sensed_one {ratios : Vector Sample 32} {wire : Bool} {inputs : Vector Sample 6} {n : Fin 32}
    (one : ∀ m : Fin 32,
      (sensed ratios wire inputs (atSense s)).sense.lines[m].debounced = s.sense.lines[m].debounced ↔ m ≠ n)
    (source : sourceValid (sensed ratios wire inputs (atSense s)).pulse = sourceValid s.pulse) :
    SampleApart (finish (linesSampled ratios s) (oneLine ratios n s)) (sensed ratios wire inputs (atSense s)) := by
  rw [← takeLines_one ratios (lines_sensed one)]
  exact sensed_quiet source

/-- A sample that changes no line, at which the source is lost or returns. -/
theorem sensed_source {ratios : Vector Sample 32} {wire : Bool} {inputs : Vector Sample 6}
    (same : ∀ m : Fin 32,
      (sensed ratios wire inputs (atSense s)).sense.lines[m].debounced = s.sense.lines[m].debounced)
    (source : sourceValid (sensed ratios wire inputs (atSense s)).pulse ≠ sourceValid s.pulse) :
    SampleApart (finish (linesSampled ratios s) (sampleWire wire (linesSampled ratios s)))
      (sensed ratios wire inputs (atSense s)) := by
  rw [sensed_valid, ← takeLines_valid ratios s] at source
  rw [sensed, wireEvent_source source, takeLines_same ratios fun m =>
    (congrArg (fun y : SenseUnit => y.lines[m].debounced) (linesSampled_sense ratios wire inputs s)).trans (same m)]
  exact sampleInputs_apart inputs _

end Sense

/-! ## A doorway's lines (R72 to R75) -/

theorem comboJudged_eq (t : State) (k : Fin 4) : comboJudged t k = comboNow t k := by
  have table : ∀ c o : Option LineState, (match c, o with
      | some .active, none => Combo.shut
      | some .active, some .inactive => .shut
      | some .inactive, none => .full
      | some .inactive, some .active => .full
      | some .inactive, some .inactive => .travel
      | some .active, some .active => .both
      | _, _ => .fault) = comboOf c o := by
    intro c o
    cases c with
    | none => rfl
    | some c =>
      cases o with
      | none => cases c <;> rfl
      | some o => cases c <;> cases o <;> rfl
  exact table _ _

theorem doorwayMoved_eq (now limit : Nat) (c : Combo) (d : Doorway) : doorwayMoved now limit c d = d.take now limit c := by
  have steps : stepsOf (100 * limit) = 10 * limit := by
    unfold stepsOf
    omega
  cases c with
  | travel =>
    dsimp only [doorwayMoved, Doorway.take, newTimer]
    rw [steps]
  | fault => rfl
  | shut => rfl
  | full => rfl
  | both => rfl

theorem takeEdge_door (n : Fin 4) (new : LineState) (s : State) : (takeEdge n new s).door =
    if doorwayPresent s.image n = true then
      { s.door with
        doorways := s.door.doorways.set n.val { s.door.doorways[n] with obstructed := roleActive s (.edge n) } n.isLt
        stop := if new = .active then
            s.door.stop.map (fun o => { o with record :=
              { o.record with obstructions := min (o.record.obstructions + 1) 255 } })
          else s.door.stop }
    else s.door := by
  unfold takeEdge judgeObstructed
  dsimp only
  by_cases present : doorwayPresent s.image n = true
  · rw [if_pos present, if_pos present]
    by_cases pressed : new = .active
    · rw [if_pos ⟨present, pressed⟩, recordObstruction, onRecord_door, if_pos pressed]
      rfl
    · rw [if_neg fun h => pressed h.2, if_neg pressed]
      rfl
  · rw [if_neg present, if_neg present, if_neg fun h => present h.1]

theorem judgeEmergency_door (n : Fin 4) (s : State) : (judgeEmergency n s).door =
    if doorwayPresent s.image n = true then
      { s.door with
        doorways := s.door.doorways.set n.val
          { s.door.doorways[n] with emergency := roleActive s (.emergency n) } n.isLt
        stop := if roleActive s (.emergency n) = true ∧ s.door.doorways[n].emergency = false then
            s.door.stop.map (fun o => { o with record := { o.record with flags := o.record.flags ||| 4 } })
          else s.door.stop }
    else s.door := by
  unfold judgeEmergency
  by_cases present : doorwayPresent s.image n = true
  · rw [if_pos present, if_pos present]
    by_cases sets : roleActive s (.emergency n) = true ∧ s.door.doorways[n].emergency = false
    · rw [if_pos sets]
      dsimp only
      rw [if_pos (by simpa using sets), recordFlag, onRecord_door]
      rfl
    · rw [if_neg sets]
      dsimp only
      rw [if_neg (by simpa using sets)]
      rfl
  · rw [if_neg present, if_neg present]

theorem judgeKneel_door (s : State) : (judgeKneel s).door = { s.door with
    kneel := roleActive s .kneel
    stop := if roleActive s .kneel = true ∧ s.door.kneel = false then
        s.door.stop.map (fun o => { o with record := { o.record with flags := o.record.flags ||| 2 } })
      else s.door.stop } := by
  unfold judgeKneel
  by_cases sets : roleActive s .kneel = true ∧ s.door.kneel = false
  · rw [if_pos sets]
    dsimp only
    rw [if_pos (by simpa using sets), recordFlag, onRecord_door]
    rfl
  · rw [if_neg sets]
    dsimp only
    rw [if_neg (by simpa using sets)]
    rfl

theorem judgeRamp_door (s : State) : (judgeRamp s).door = { s.door with
    ramp := roleActive s .ramp
    stop := if roleActive s .ramp = true ∧ s.door.ramp = false then
        s.door.stop.map (fun o => { o with record := { o.record with flags := o.record.flags ||| 1 } })
      else s.door.stop } := by
  unfold judgeRamp
  by_cases sets : roleActive s .ramp = true ∧ s.door.ramp = false
  · rw [if_pos sets]
    dsimp only
    rw [if_pos (by simpa using sets), recordFlag, onRecord_door]
    rfl
  · rw [if_neg sets]
    dsimp only
    rw [if_neg (by simpa using sets)]
    rfl

end Sys2Proof.Proofs

/-! A change of one line at a sense sample: the doorways, the stop cycle and the permit. -/

namespace Sys2Proof.Proofs

open Sys2Proof Sys2Proof.Machine Sys2Proof.Safety

section Line

variable {s t u x : State}

/-! ## What a line's consumers read -/

theorem roleState_congr (sense : t.sense = u.sense) (image : t.image = u.image) (r : Role) :
    roleState t r = roleState u r := by
  have line : lineState t = lineState u := funext fun n => by rw [lineState, lineState, sense]
  rw [roleState, roleState, image, line]

theorem finish_door (b u : State) : (finish b u).door = u.door := by simp [finish]

theorem finish_sense (b u : State) : (finish b u).sense = u.sense := by simp [finish]

theorem finish_image (b u : State) : (finish b u).image = u.image := by simp [finish]

theorem finish_time (b u : State) : (finish b u).time = u.time := by simp [finish]

/-- The state at the end of one line's event, as its deliveries and the sample leave it. -/
structure OneLine (ratios : Vector Sample 32) (n : Fin 32) (s t : State) : Prop where
  apart : SampleApart (finish (linesSampled ratios s) (oneLine ratios n s)) t
  base : LinesTaken s (linesSampled ratios s)
  sense : t.sense = (linesSampled ratios s).sense
  image : t.image = s.image
  time : t.time = (linesSampled ratios s).time
  door : t.door = (oneLine ratios n s).door

theorem sensed_oneLine {ratios : Vector Sample 32} {wire : Bool} {inputs : Vector Sample 6} {n : Fin 32}
    (one : ∀ m : Fin 32,
      (sensed ratios wire inputs (atSense s)).sense.lines[m].debounced = s.sense.lines[m].debounced ↔ m ≠ n)
    (source : sourceValid (sensed ratios wire inputs (atSense s)).pulse = sourceValid s.pulse) :
    OneLine ratios n s (sensed ratios wire inputs (atSense s)) := by
  have apart := sensed_one one source
  have base := linesSampled_taken ratios s
  have sense := (linesSampled_sense ratios wire inputs s).symm
  refine ⟨apart, base, sense, ?_, ?_, ?_⟩
  · rw [apart.image, finish_image, oneLine]
    simp [base.image]
  · rw [apart.time, finish_time, oneLine]
    simp
  · rw [apart.door, finish_door]

variable {ratios : Vector Sample 32} {n : Fin 32}

theorem OneLine.role (h : OneLine ratios n s t) (r : Role) : roleState t r = roleState (linesSampled ratios s) r :=
  roleState_congr h.sense (h.image.trans h.base.image.symm) r

theorem OneLine.active (h : OneLine ratios n s t) (r : Role) :
    decide (roleState t r = some .active) = roleActive (linesSampled ratios s) r := by
  rw [h.role, roleActive]

theorem OneLine.combo (h : OneLine ratios n s t) (k : Fin 4) : comboJudged t k = comboNow (linesSampled ratios s) k := by
  rw [comboJudged_eq, comboNow, comboNow, h.role, h.role]

theorem OneLine.doors (h : OneLine ratios n s t) (k : Fin 4)
    (moves : t.door.doorways[k].state ≠ s.door.doorways[k].state) : noticeSet t .doorsChanged = true := by
  rw [h.apart.noticeSet_eq]
  refine finish_doors fun same => moves ?_
  rw [h.apart.door, doorFields_state same k, h.base.door]

/-- A change of a doorway's switch reaches its combination (R72). -/
theorem oneLine_switch {k : Fin 4}
    (role : (lineEntry s.image n).role = .switchClosed k ∨ (lineEntry s.image n).role = .openEnd k) :
    oneLine ratios n s = judgeDoorway k (linesSampled ratios s) := by
  rw [oneLine]
  obtain own | own := role <;> rw [own] <;> rfl

theorem judgeDoorway_same {k : Fin 4} (h : ¬ doorwayPresent s.image k = true ∨ comboNow s k = s.door.doorways[k].combo) :
    judgeDoorway k s = s :=
  if_neg fun c => h.elim (· c.1) c.2

theorem judgeDoorway_moves {k : Fin 4} (present : doorwayPresent s.image k = true)
    (changed : comboNow s k ≠ s.door.doorways[k].combo) : judgeDoorway k s = judgeCycle (moveDoorway k
      (doorwayMoved s.time.now (travelLimit s.image k) (comboNow s k) s.door.doorways[k]) s) := by
  rw [doorwayMoved_eq]
  exact if_pos ⟨present, changed⟩

end Line

/-- Settles O26: the role of the line decides which of the doorways' rules its event runs. -/
theorem senseSampleMovesDoorways : Obligations.SenseSampleMovesDoorways := by
  intro s ratios wire inputs
  refine ⟨_, exec_senseSample ratios wire inputs s, fun n k one source => ?_⟩
  have event := sensed_oneLine one source
  have own : (sensed ratios wire inputs (atSense s)).door = (deliverChange (lineEntry s.image n).role
      s.sense.lines[n].debounced (sensed ratios wire inputs (atSense s)).sense.lines[n].debounced
      (linesSampled ratios s)).door := by
    rw [event.door, oneLine, event.sense]
  revert event own
  generalize sensed ratios wire inputs (atSense s) = t
  intro event own
  refine ⟨fun role => ⟨fun stays => ?_, fun present changed => ?_⟩, fun role => ?_, fun role => ?_, fun role => ?_,
    fun role => ?_, event.doors k⟩
  · rw [event.combo] at stays
    rw [event.door, oneLine_switch role, judgeDoorway_same, event.base.door]
    rw [event.base.image, event.base.door]
    exact stays
  · rw [event.combo] at changed ⊢
    have moved : t.door = (judgeCycle (moveDoorway k (doorwayMoved t.time.now (travelLimit s.image k)
        (comboNow (linesSampled ratios s) k) s.door.doorways[k]) (linesSampled ratios s))).door := by
      rw [event.door, oneLine_switch role, judgeDoorway_moves (by rwa [event.base.image]) (by rwa [event.base.door]),
        event.base.image, event.base.door, event.time]
    rw [moved]
    simp [moveDoorway_door, doorwayPut, event.base.door]
  · rw [role] at own
    have door := takeEdge_door k t.sense.lines[n].debounced (linesSampled ratios s)
    rw [← event.active, event.base.door, event.base.image] at door
    exact own.trans door
  · rw [role] at own
    have door := judgeEmergency_door k (linesSampled ratios s)
    rw [← event.active, event.base.door, event.base.image] at door
    exact own.trans door
  · rw [role] at own
    have door := judgeKneel_door (linesSampled ratios s)
    rw [← event.active, event.base.door] at door
    exact own.trans door
  · rw [role] at own
    have door := judgeRamp_door (linesSampled ratios s)
    rw [← event.active, event.base.door] at door
    exact own.trans door

end Sys2Proof.Proofs

/-! A judgement of the stop cycle at a sense sample: at an ignition change, at a change of the motion state and at
that of a doorway (R76 to R82, R84, R85). -/

namespace Sys2Proof.Proofs

open Sys2Proof Sys2Proof.Machine Sys2Proof.Safety

section Judgement

variable {b s t u v y z : State} {m : Motion}

/-! ## An event that judges the stop cycle and the permit -/

/-- An event that began at `b`, judged the stop cycle at `y` and then the permit, and has come to `u`. -/
structure CycleEvent (b y u : State) : Prop where
  inputs : CycleInputs y u
  now : u.time.now = y.time.now
  live : u.dist.live = y.dist.live
  source : sourceValid u.pulse = sourceValid y.pulse
  door : u.door = (judgePermit (judgeCycle y)).door
  stop : y.door.stop = b.door.stop
  permit : y.door.dpermit = b.door.dpermit
  recorded : noticeSet (judgeCycle y) .stopRecorded = true → noticeSet u .stopRecorded = true
  journal : areaSame journalArea b u

theorem CycleEvent.follows (h : CycleEvent b y u) : cycleFollows b (finish b u) y.door := by
  refine cycleFollows_of ⟨?_, ?_, ?_, ?_⟩ ?_ ?_ (fun stop => ?_) ?_ finish_doors
    (fun recorded => finish_notice b (h.recorded recorded)) (finish_journal h.journal)
  · rw [finish_sense, h.inputs.sense]
  · rw [show (finish b u).pulse = u.pulse by simp [finish], h.inputs.motion]
  · rw [finish_door, h.inputs.doorways]
  · rw [finish_image, h.inputs.image]
  · rw [finish_time, h.now]
  · rw [show (finish b u).dist = u.dist by simp [finish], h.live]
  · rwa [h.stop]
  · have permit : b.door.dpermit = (judgeCycle y).door.dpermit := by simp [h.permit]
    rw [finish_door, h.door, permit]
    rfl

theorem CycleEvent.judged (h : CycleEvent b y u) : u.door.dpermit = permitJudged u := by
  have same : PermitSame (judgePermit (judgeCycle y)) u :=
    ⟨by rw [h.door], by rw [h.door], by rw [h.inputs.motion]; simp, by rw [h.source]; simp,
      by rw [h.inputs.sense]; simp, by rw [h.inputs.image]; simp⟩
  rw [same.judged, h.door]
  exact judgePermit_permit _

theorem judgePermit_again (same : PermitSame (judgePermit z) v) (door : v.door = (judgePermit z).door) :
    (judgePermit v).door = (judgePermit z).door := by
  have judged : permitJudged v = (judgePermit z).door.dpermit := same.judged.trans (judgePermit_permit z).symm
  have own : (judgePermit v).door = { v.door with dpermit := permitJudged v } := rfl
  rw [own, judged, door]

/-! ## An ignition change (R13) -/

theorem ignitionChange_door (on : Bool) (s : State) : ∃ y, (ignitionChange on s).door = (doorIgnition y).door ∧
    CycleInputs s y ∧ y.time = s.time ∧ y.dist.live = s.dist.live ∧ y.pulse = s.pulse ∧ y.door = s.door ∧
    (noticeSet (judgeCycle y) .stopRecorded = true → noticeSet (ignitionChange on s) .stopRecorded = true) := by
  have kept : ∀ y, noticeSet (judgeCycle y) .stopRecorded = true → noticeSet (doorIgnition y) .stopRecorded = true :=
    fun _ recorded => recorded
  unfold ignitionChange
  cases on with
  | true =>
    refine ⟨ageRecords (setNotice .ignition s), rfl, ⟨?_, ?_, ?_, ?_⟩, ?_, ?_, ?_, ?_, kept _⟩ <;> simp
  | false =>
    refine ⟨saveTrigger (setNotice .ignition s), ?_, ⟨?_, ?_, ?_, ?_⟩, ?_, ?_, ?_, ?_, fun recorded => ?_⟩
    case refine_10 =>
      exact ((abortTest_reach .ignitionOff _).notices .stopRecorded).1 (kept _ recorded)
    all_goals simp

theorem ignition_cycleEvent (on : Bool) (b : State) : ∃ y, CycleEvent b y (ignitionChange on b) ∧ y.door = b.door := by
  obtain ⟨y, door, inputs, time, live, pulse, same, recorded⟩ := ignitionChange_door on b
  refine ⟨y, ⟨⟨?_, ?_, ?_, ?_⟩, ?_, ?_, ?_, door, by rw [same], by rw [same], recorded,
    images_kept (ignitionChange_reach on b) (by simp [journalArea])⟩, same⟩
  · rw [inputs.sense]
    simp
  · rw [inputs.motion]
    simp
  · rw [inputs.doorways]
    simp
  · rw [inputs.image]
    simp
  · rw [time]
    simp
  · rw [live]
    simp
  · rw [pulse]
    simp

/-! ## A motion change (R27, R84, R85) -/

/-- What an event leaves once the motion state and the permit are judged. -/
structure LaterSame (v u : State) : Prop where
  time : u.time = v.time
  sense : u.sense = v.sense
  motion : u.pulse.motion = v.pulse.motion
  source : sourceValid u.pulse = sourceValid v.pulse
  live : u.dist.live = v.dist.live
  door : u.door = v.door
  image : u.image = v.image
  recorded : noticeSet v .stopRecorded = true → noticeSet u .stopRecorded = true

theorem LaterSame.refl : LaterSame s s := ⟨rfl, rfl, rfl, rfl, rfl, rfl, rfl, id⟩

theorem LaterSame.permit (h : LaterSame v u) : PermitSame v u :=
  ⟨by rw [h.door], by rw [h.door], h.motion, h.source, h.sense, h.image⟩

theorem setMotion_now (h : z.pulse.motion ≠ m) : (setMotion m z).pulse.motion = m := by
  rw [setMotion_pulse, moved, if_neg h]

theorem motionMarked_permit (h : z.pulse.motion ≠ m) :
    PermitSame (judgePermit (judgeCycle (motionMarked m z))) (setMotion m z) := by
  refine ⟨by rw [setMotion_door h], by rw [setMotion_door h], ?_, ?_, ?_, ?_⟩
  · rw [setMotion_now h]
    simp [motionMarked, motionSet, setPulse]
  · simp [motionMarked, motionSet, setPulse, sourceValid]
  · simp [motionMarked, motionSet, setPulse]
  · simp [motionMarked, motionSet, setPulse]

theorem motionMarked_door (m : Motion) (z : State) : (motionMarked m z).door =
    { z.door with age := if m = .standstill then some 0 else none, matureDue := false } := by
  cases m <;> rfl

theorem motion_cycleEvent (h : z.pulse.motion ≠ m) (door : z.door = b.door)
    (later : LaterSame (judgePermit (setMotion m z)) u) (journal : areaSame journalArea b u) :
    CycleEvent b (motionMarked m z) u := by
  refine ⟨⟨?_, ?_, ?_, ?_⟩, ?_, ?_, ?_, ?_, ?_, ?_, fun recorded => ?_, journal⟩
  · rw [later.sense]
    simp [motionMarked, motionSet, setPulse]
  · rw [later.motion, show (judgePermit (setMotion m z)).pulse = (setMotion m z).pulse from rfl, setMotion_now h]
    rfl
  · rw [later.door]
    simp [motionMarked, motionSet, setPulse]
  · rw [later.image]
    simp [motionMarked, motionSet, setPulse]
  · rw [later.time]
    simp [motionMarked, motionSet, setPulse]
  · rw [later.live]
    simp [motionMarked, motionSet, setPulse]
  · rw [later.source]
    simp [motionMarked, motionSet, setPulse, sourceValid]
  · rw [later.door]
    exact judgePermit_again (motionMarked_permit h) (setMotion_door h)
  · rw [motionMarked_door, door]
  · rw [motionMarked_door, door]
  · exact later.recorded (setMotion_recorded h recorded)

/-- With the motion state kept, the permit alone is judged. -/
theorem motion_same (h : z.pulse.motion = m) (door : z.door = b.door)
    (later : LaterSame (judgePermit (setMotion m z)) u) : u.door = { b.door with dpermit := permitJudged u } := by
  have judged : permitJudged u = permitJudged z := by
    rw [later.permit.judged, setMotion_same h]
    rfl
  rw [judged, later.door, setMotion_same h, ← door]
  rfl

/-! ## The parking brake (R31) and the speed source (R30, R32) -/

theorem brakeChange_later (old : LineState) (s : State) :
    LaterSame (judgePermit (brakeProxy s)) (brakeChange old s) := by
  unfold brakeChange brakeConsumers
  dsimp only
  split
  · refine ⟨?_, ?_, ?_, ?_, ?_, ?_, ?_, fun recorded =>
      ((abortTest_reach .parkingBrake _).notices .stopRecorded).1 recorded⟩ <;> simp
  · exact .refl

theorem brakeProxy_motion (s : State) : ∃ m, brakeProxy s = setMotion m s := by
  unfold brakeProxy
  split
  · exact ⟨s.pulse.motion, (setMotion_same rfl).symm⟩
  · exact ⟨_, rfl⟩

/-- A loss or a return of the source is a change of the motion state, the source's own fields aside. -/
theorem sampleWire_motion {w : Bool} (differs : sourceValid (sampleWire w s).pulse ≠ sourceValid s.pulse) :
    ∃ m p, sampleWire w s = judgePermit (setMotion m (setPulse p s)) ∧ p.motion = s.pulse.motion := by
  rw [sampleWire_valid] at differs
  rw [sampleWire_eq]
  cases before : sourceValid s.pulse with
  | true =>
    have after : sourceValid (wireSampled w s).pulse = false := by simpa [before] using differs
    rw [if_pos (by simp [after])]
    exact ⟨_, (wireSampled w s).pulse.noSpeed, rfl, rfl⟩
  | false =>
    have after : sourceValid (wireSampled w s).pulse = true := by simpa [before] using differs
    rw [if_neg (by simp), if_pos (by simp [after])]
    exact ⟨.unknown, _, rfl, rfl⟩

/-! ## Followed to the end of the sample -/

theorem journalBytes_congr (door : t.door = u.door) : journalBytes t = journalBytes u := by
  simp only [journalBytes, door]

/-- What the stop cycle did at an event stays to the end of the sample. -/
theorem cycleFollows_sampled {x : State} {d : DoorMonitor} (apart : SampleApart x t) (door : b.door = s.door)
    (journal : areaSame journalArea s b) (follows : cycleFollows b x d) : cycleFollows s t d := by
  obtain ⟨judged, doors, recorded, image⟩ := follows
  refine ⟨?_, ?_, ?_, fun changed => ?_⟩
  · rw [apart.door, ← door]
    exact cycleJudged_congr ⟨apart.sense, apart.motion, by rw [apart.door], apart.image⟩ (by rw [apart.time])
      (by rw [apart.dist]) judged
  · rw [apart.door, apart.noticeSet_eq, ← door]
    exact doors
  · rw [apart.door, apart.noticeSet_eq, ← door]
    exact recorded
  · rw [apart.door, ← door] at changed
    rw [journalBytes_congr apart.door]
    exact imageWritten_congr (by simp [journalArea]) journal (image changed) fun a _ _ => apart.ram a

theorem linesSampled_journal (ratios : Vector Sample 32) (s : State) :
    areaSame journalArea s (linesSampled ratios s) := fun _ low _ =>
  linesSampled_outside ratios s (.inr (le_trans (by simp [journalArea]) low))

theorem permit_sampled {x : State} (apart : SampleApart x t) (source : sourceValid t.pulse = sourceValid x.pulse) :
    PermitSame x t :=
  ⟨by rw [apart.door], by rw [apart.door], apart.motion, source, apart.sense, apart.image⟩

end Judgement

section Sample

variable {s t : State} {ratios : Vector Sample 32} {n : Fin 32}

theorem oneLine_valid (ratios : Vector Sample 32) (n : Fin 32) (s : State) :
    sourceValid (oneLine ratios n s).pulse = sourceValid s.pulse := by
  simp [oneLine, sourceValid, (linesSampled_taken ratios s).pulse]

theorem OneLine.permit (h : OneLine ratios n s t) (source : sourceValid t.pulse = sourceValid s.pulse) :
    PermitSame (oneLine ratios n s) t := by
  refine (finish_permit (linesSampled ratios s) (oneLine ratios n s)).trans (permit_sampled h.apart ?_)
  rw [source, (finish_permit (linesSampled ratios s) (oneLine ratios n s)).source, oneLine_valid]

/-- An event of one line that judged the stop cycle, followed to the end of the sample. -/
theorem OneLine.cycle {y : State} (h : OneLine ratios n s t) (source : sourceValid t.pulse = sourceValid s.pulse)
    (event : CycleEvent (linesSampled ratios s) y (oneLine ratios n s)) :
    cycleFollows s t y.door ∧ t.door.dpermit = permitJudged t := by
  refine ⟨cycleFollows_sampled h.apart h.base.door (linesSampled_journal ratios s) event.follows, ?_⟩
  rw [(h.permit source).judged, (h.permit source).dpermit]
  exact event.judged

theorem oneLine_ignition (role : (lineEntry s.image n).role = .ignition)
    (changed : ¬ ((s.sense.lines[n].debounced = .active) = ((linesSampled ratios s).sense.lines[n].debounced = .active))) :
    oneLine ratios n s = ignitionChange (decide ((linesSampled ratios s).sense.lines[n].debounced = .active))
      (linesSampled ratios s) := by
  rw [oneLine, role]
  exact if_neg changed

theorem oneLine_brake (role : (lineEntry s.image n).role = .parkingBrake) :
    oneLine ratios n s = brakeChange s.sense.lines[n].debounced (linesSampled ratios s) := by
  rw [oneLine, role]
  rfl

theorem motionMarks_of {m : Motion} {z : State} (motion : t.pulse.motion = m) (changed : m ≠ s.pulse.motion)
    (door : z.door = s.door) : motionMarks s t s.door = (motionMarked m z).door := by
  rw [motionMarks, motion, if_neg changed, motionMarked_door, door]

/-- What a judgement of the motion state from `z` and of the permit leaves at the end of the sample. -/
theorem motion_sampled {m : Motion} {b u z : State} (base : b.door = s.door) (motion : b.pulse.motion = s.pulse.motion)
    (was : z.pulse.motion = b.pulse.motion) (door : z.door = b.door)
    (later : LaterSame (judgePermit (setMotion m z)) u) (kept : areaSame journalArea b u)
    (journal : areaSame journalArea s b) (apart : SampleApart (finish b u) t)
    (source : sourceValid t.pulse = sourceValid u.pulse) :
    (t.pulse.motion = s.pulse.motion → t.door = { s.door with dpermit := permitJudged t }) ∧
    (t.pulse.motion ≠ s.pulse.motion →
      cycleFollows s t (motionMarks s t s.door) ∧ t.door.dpermit = permitJudged t) := by
  have ended : PermitSame u t := (finish_permit b u).trans (permit_sampled apart
    (source.trans (finish_permit b u).source.symm))
  have now : t.pulse.motion = (setMotion m z).pulse.motion := ended.motion.trans later.motion
  have tdoor : t.door = u.door := apart.door.trans (finish_door b u)
  by_cases same : z.pulse.motion = m
  · refine ⟨fun _ => ?_, fun changed => absurd ?_ changed⟩
    · rw [ended.judged, tdoor, ← base]
      exact motion_same same door later
    · rw [now, setMotion_same same, was, motion]
  · have event := motion_cycleEvent same door later kept
    rw [setMotion_now same] at now
    have changed : m ≠ s.pulse.motion := fun e => same (by rw [was, motion, e])
    refine ⟨fun stays => absurd (now.symm.trans stays) changed, fun _ => ⟨?_, ?_⟩⟩
    · rw [motionMarks_of now changed (door.trans base)]
      exact cycleFollows_sampled apart base journal event.follows
    · rw [ended.judged, tdoor]
      exact event.judged

theorem brake_sampled (h : OneLine ratios n s t) (source : sourceValid t.pulse = sourceValid s.pulse)
    (role : (lineEntry s.image n).role = .parkingBrake) :
    (t.pulse.motion = s.pulse.motion → t.door = { s.door with dpermit := permitJudged t }) ∧
    (t.pulse.motion ≠ s.pulse.motion →
      cycleFollows s t (motionMarks s t s.door) ∧ t.door.dpermit = permitJudged t) := by
  obtain ⟨m, proxy⟩ := brakeProxy_motion (linesSampled ratios s)
  have later := brakeChange_later s.sense.lines[n].debounced (linesSampled ratios s)
  rw [proxy] at later
  have apart := h.apart
  rw [oneLine_brake role] at apart
  refine motion_sampled h.base.door (by rw [h.base.pulse]) rfl rfl later
    (images_kept (brakeChange_reach _ _) (by simp [journalArea])) (linesSampled_journal ratios s) apart ?_
  rw [source, ← oneLine_brake role, oneLine_valid]

theorem source_sampled {wire : Bool} {inputs : Vector Sample 6}
    (same : ∀ m : Fin 32,
      (sensed ratios wire inputs (atSense s)).sense.lines[m].debounced = s.sense.lines[m].debounced)
    (source : sourceValid (sensed ratios wire inputs (atSense s)).pulse ≠ sourceValid s.pulse)
    (t : State) (is : t = sensed ratios wire inputs (atSense s)) :
    (t.pulse.motion = s.pulse.motion → t.door = { s.door with dpermit := permitJudged t }) ∧
    (t.pulse.motion ≠ s.pulse.motion →
      cycleFollows s t (motionMarks s t s.door) ∧ t.door.dpermit = permitJudged t) := by
  have base := linesSampled_taken ratios s
  have apart := sensed_source same source
  have lines : ∀ m : Fin 32, (linesSampled ratios s).sense.lines[m].debounced = s.sense.lines[m].debounced := by
    rw [linesSampled_sense ratios wire inputs]
    exact same
  have valid : sourceValid t.pulse = sourceValid (sampleWire wire (linesSampled ratios s)).pulse := by
    rw [is, sensed_valid, takeLines_same ratios lines, wireEvent_valid, sampleWire_valid]
  have differs : sourceValid (sampleWire wire (linesSampled ratios s)).pulse ≠ sourceValid (linesSampled ratios s).pulse := by
    rw [← valid, is, base.pulse]
    exact source
  obtain ⟨m, p, judged, motion⟩ := sampleWire_motion differs
  rw [← is] at apart
  refine motion_sampled (m := m) (z := setPulse p (linesSampled ratios s)) base.door (by rw [base.pulse]) motion rfl ?_
    (images_kept (sampleWire_reach wire _) (by simp [journalArea])) (linesSampled_journal ratios s) apart valid
  rw [judged]
  exact .refl

end Sample

/-- Settles O49: whatever changed an input of the stop cycle, its event judges the cycle once from the state that the
change left. -/
theorem stopCycleIsJudged : Obligations.StopCycleIsJudged := by
  intro s ratios wire inputs
  refine ⟨_, exec_senseSample ratios wire inputs s, fun n one source => ⟨fun role zero changed => ?_,
    fun k role moves => ?_, ?_⟩, fun same source => source_sampled same source _ rfl⟩
  · have event := sensed_oneLine one source
    revert changed event
    generalize sensed ratios wire inputs (atSense s) = t at source
    intro changed event
    have flips : ¬ ((s.sense.lines[n].debounced = .active) =
        ((linesSampled ratios s).sense.lines[n].debounced = .active)) := fun e => changed (by
      rw [← event.sense] at e
      subst zero
      rw [ignitionOn, ignitionOn, lineState, lineState, decide_eq_decide]
      exact e.to_iff.symm)
    obtain ⟨y, cycle, door⟩ := ignition_cycleEvent
      (decide ((linesSampled ratios s).sense.lines[n].debounced = .active)) (linesSampled ratios s)
    rw [← oneLine_ignition role flips] at cycle
    have follows := event.cycle source cycle
    rwa [door, event.base.door] at follows
  · have event := sensed_oneLine one source
    revert moves event
    generalize sensed ratios wire inputs (atSense s) = t
    intro moves event
    have switch := oneLine_switch (ratios := ratios) role
    have tdoor := event.door
    by_cases stays : ¬ doorwayPresent (linesSampled ratios s).image k = true ∨
        comboNow (linesSampled ratios s) k = (linesSampled ratios s).door.doorways[k].combo
    · rw [switch, judgeDoorway_same stays, event.base.door] at tdoor
      exact absurd (by rw [tdoor]) moves
    · push Not at stays
      have apart := event.apart
      rw [switch, judgeDoorway_moves stays.1 stays.2] at apart
      have ends := finish_moves k (doorwayMoved (linesSampled ratios s).time.now (travelLimit (linesSampled ratios s).image k)
          (comboNow (linesSampled ratios s) k) (linesSampled ratios s).door.doorways[k])
        (linesSampled ratios s)
      revert apart ends
      generalize doorwayMoved (linesSampled ratios s).time.now (travelLimit (linesSampled ratios s).image k)
          (comboNow (linesSampled ratios s) k) (linesSampled ratios s).door.doorways[k] = x
      intro apart ends
      have ways : t.door.doorways = s.door.doorways.set k.val x k.isLt := by
        rw [apart.door, ends.doorways, event.base.door]
      have own : t.door.doorways[k] = x := by
        rw [ways]
        exact Vector.getElem_set_self k.isLt
      refine ⟨?_, by rw [apart.door, ends.permit, event.base.door]⟩
      have follows := cycleFollows_sampled apart event.base.door (linesSampled_journal ratios s) ends.cycle
      rw [event.base.door, doorwayPut, ← ways] at follows
      have marks : (x.state ≠ s.door.doorways[k].state ∧ x.state.notClosed = true) ↔
          (t.door.doorways[k].state ≠ s.door.doorways[k].state ∧ notClosed t k = true) := by
        rw [notClosed_eq, doorwayOpen, own, event.image, ← event.base.image, stays.1, Bool.true_and]
      simp only [marks] at follows
      exact follows
  · exact brake_sampled (sensed_oneLine one source) source

end Sys2Proof.Proofs

/-! A sense sample through all its events: the pulse unit, the analog groups, the sense image and what no event of a
line reaches. -/

namespace Sys2Proof.Proofs

open Sys2Proof Sys2Proof.Machine Sys2Proof.Safety

section Events

variable {s t u x : State}

/-! ## What no event of a line or of the wire reaches -/

/-- The state with the units that a line's or a motion's change reaches set aside. -/
def withoutUnits (s : State) : State := { s with
  sense := State.reset.sense, door := State.reset.door, pulse := State.reset.pulse, analog := State.reset.analog
  dist := { s.dist with ticks := 0, watch := .armed } }

theorem besideEvents_withoutUnits (s : State) : besideEvents s = besideWarnings (withoutUnits s) := rfl

theorem besideEvents_of (h : besideWarnings t = besideWarnings s) : besideEvents t = besideEvents s :=
  congrArg (fun y : State => { y with
    sense := State.reset.sense, door := State.reset.door, pulse := State.reset.pulse, analog := State.reset.analog
    dist := { y.dist with ticks := 0, watch := .armed } }) h

theorem finish_besideEvents (b u : State) : besideEvents (finish b u) = besideEvents u :=
  besideEvents_of (finish_beside b u)

/-- A test that may have ended is all that the operations of the window may have lost. -/
theorem ops_idle {areas : List Area} {may : List Notice} (reach : Reach areas may s t) :
    { t.win.ops with test := .idle } = { s.win.ops with test := .idle } := by
  obtain e | e := reach.op <;> rw [e]

theorem deliverChange_beside (role : Role) (old new : LineState) (x : State) :
    besideEvents (deliverChange role old new x) = besideEvents x := by
  have ops := ops_idle (deliverChange_reach role old new x)
  rw [besideEvents_withoutUnits, besideEvents_withoutUnits]
  refine besideWarnings_eq ?_ rfl rfl ?_ rfl rfl ?_ ?_ ?_ ?_ ?_ ops ?_ ?_ ?_ <;>
    simp [withoutUnits, besideReply]

theorem sampleWire_beside (b : Bool) (x : State) : besideEvents (sampleWire b x) = besideEvents x := by
  have ops := ops_idle (sampleWire_reach b x)
  rw [besideEvents_withoutUnits, besideEvents_withoutUnits]
  refine besideWarnings_eq ?_ rfl rfl ?_ rfl rfl ?_ ?_ ?_ ?_ ?_ ops ?_ ?_ ?_ <;>
    simp [withoutUnits, besideReply]

theorem lineEvent_beside (before : Vector Line 32) (x : State) (n : Fin 32) :
    besideEvents (lineEvent before x n) = besideEvents x := by
  unfold lineEvent
  split
  · rfl
  · rw [finish_besideEvents, deliverLine]
    split
    · rfl
    · exact deliverChange_beside _ _ _ x

theorem takeLines_beside (ratios : Vector Sample 32) (s : State) :
    besideEvents (takeLines ratios (atSense s)) = besideEvents (linesSampled ratios s) :=
  foldl_keeps besideEvents _ (lineEvent_beside s.sense.lines) _ _

theorem wireEvent_beside (b : Bool) (x : State) : besideEvents (wireEvent b x) = besideEvents x := by
  rw [wireEvent, settle]
  split
  · rw [finish_besideEvents, sampleWire_beside]
  · rw [besideEvents_of (publish_beside x (sampleWire b x)), sampleWire_beside]

theorem linesSampled_beside (ratios : Vector Sample 32) (s : State) :
    besideEvents (linesSampled ratios s) = besideEvents (atSense s) := by
  rw [besideEvents_withoutUnits, besideEvents_withoutUnits]
  refine besideWarnings_eq ?_ rfl rfl ?_ rfl rfl ?_ ?_ ?_ ?_ ?_ ?_ ?_ ?_ ?_ <;>
    simp [withoutUnits, besideReply, linesSampled, sampleLines]

theorem sensed_beside (ratios : Vector Sample 32) (wire : Bool) (inputs : Vector Sample 6) (s : State) :
    besideEvents (sensed ratios wire inputs (atSense s)) = besideEvents (atSense s) := by
  have groups : besideEvents (sensed ratios wire inputs (atSense s)) =
      besideEvents (wireEvent wire (takeLines ratios (atSense s))) := rfl
  rw [groups, wireEvent_beside, takeLines_beside, linesSampled_beside]

/-! ## The motion state (R31) -/

theorem deliverChange_pulse (role : Role) (old new : LineState) (x : State) : (deliverChange role old new x).pulse =
    if role = .parkingBrake ∧ sourceValid x.pulse = false then moved x.time.now x.pulse (some (proxyMotion x))
    else x.pulse := by
  by_cases brake : role = .parkingBrake
  · have proxy : (deliverChange role old new x).pulse = (brakeProxy x).pulse := by
      rw [brake, deliverChange, brakeChange, brakeConsumers]
      split <;> simp
    rw [proxy, brakeProxy]
    cases valid : sourceValid x.pulse with
    | true => simp
    | false => simp [brake, setMotion_pulse]
  · rw [if_neg fun h => brake h.1]
    cases role
    case parkingBrake => exact absurd rfl brake
    case unused => rfl
    case general => rfl
    all_goals
      simp only [deliverChange]
      (try split) <;> simp

theorem moved_twice (now : Nat) (p : PulseUnit) (m : Motion) :
    moved now (moved now p (some m)) (some m) = moved now p (some m) := by
  have keep : ∀ q : PulseUnit, q.motion = m → moved now q (some m) = q := fun _ h => if_pos h
  by_cases same : p.motion = m
  · rw [keep p same, keep p same]
  · exact keep _ (by rw [moved, if_neg same])

theorem moved_valid (now : Nat) (p : PulseUnit) (m : Option Motion) : sourceValid (moved now p m) = sourceValid p := by
  unfold moved
  cases m with
  | none => rfl
  | some m =>
    dsimp only
    split <;> rfl

theorem proxyMotion_congr (sense : t.sense = u.sense) (image : t.image = u.image) : proxyMotion t = proxyMotion u := by
  rw [proxyMotion, proxyMotion, roleState_congr sense image]

/-- A line of PARKING_BRAKE that changed. -/
def brakeMoved (before : Vector Line 32) (x : State) (n : Fin 32) : Bool :=
  decide ((lineEntry x.image n).role = .parkingBrake ∧ x.sense.lines[n].debounced ≠ before[n].debounced)

theorem brakeMoved_iff (before : Vector Line 32) (x : State) (n : Fin 32) : brakeMoved before x n = true ↔
    (lineEntry x.image n).role = .parkingBrake ∧ x.sense.lines[n].debounced ≠ before[n].debounced :=
  decide_eq_true_iff

theorem lineEvent_pulse (before : Vector Line 32) (x : State) (n : Fin 32) : (lineEvent before x n).pulse =
    if brakeMoved before x n = true ∧ sourceValid x.pulse = false then moved x.time.now x.pulse (some (proxyMotion x))
    else x.pulse := by
  unfold lineEvent
  split
  next same => exact (if_neg fun h => ((brakeMoved_iff before x n).mp h.1).2 same.symm).symm
  next changed =>
    have pulse : (finish x (deliverLine before x n)).pulse =
        (deliverChange (lineEntry x.image n).role before[n].debounced (lineState x n) x).pulse := by
      rw [deliverLine, if_neg changed]
      simp [finish]
    rw [pulse, deliverChange_pulse]
    exact if_congr ⟨fun h => ⟨(brakeMoved_iff before x n).mpr ⟨h.1, fun e => changed e.symm⟩, h.2⟩,
      fun h => ⟨((brakeMoved_iff before x n).mp h.1).1, h.2⟩⟩ rfl rfl

theorem lineEvents_pulse (before : Vector Line 32) : ∀ (l : List (Fin 32)) (x : State),
    ((∃ n ∈ l, brakeMoved before x n = true) ∧ sourceValid x.pulse = false →
      (l.foldl (lineEvent before) x).pulse = moved x.time.now x.pulse (some (proxyMotion x))) ∧
    (¬ ((∃ n ∈ l, brakeMoved before x n = true) ∧ sourceValid x.pulse = false) →
      (l.foldl (lineEvent before) x).pulse = x.pulse)
  | [], _ => ⟨fun h => (by obtain ⟨⟨_, mem, _⟩, _⟩ := h; cases mem), fun _ => rfl⟩
  | n :: l, x => by
    have sense := lineEvent_sense before x n
    have image : (lineEvent before x n).image = x.image := by simp
    have time : (lineEvent before x n).time = x.time := by simp
    have head := lineEvent_pulse before x n
    have valid : sourceValid (lineEvent before x n).pulse = sourceValid x.pulse := by
      rw [head]
      split
      · exact moved_valid _ _ _
      · rfl
    have proxy := proxyMotion_congr sense image
    have same : ∀ m, brakeMoved before (lineEvent before x n) m = brakeMoved before x m := fun m => by
      rw [brakeMoved, brakeMoved, sense, image]
    obtain ⟨moves, stays⟩ := lineEvents_pulse before l (lineEvent before x n)
    simp only [same, valid, time, proxy] at moves stays
    rw [List.foldl_cons]
    refine ⟨fun ⟨⟨m, mem, brake⟩, invalid⟩ => ?_, fun none => ?_⟩
    · by_cases later : ∃ k ∈ l, brakeMoved before x k = true
      · rw [moves ⟨later, invalid⟩, head]
        split
        · exact moved_twice _ _ _
        · rfl
      · obtain rfl | there := List.mem_cons.mp mem
        · rw [stays fun h => later h.1, head, if_pos ⟨brake, invalid⟩]
        · exact absurd ⟨m, there, brake⟩ later
    · rw [stays fun ⟨⟨m, mem, brake⟩, invalid⟩ => none ⟨⟨m, List.mem_cons_of_mem n mem, brake⟩, invalid⟩, head,
        if_neg fun ⟨brake, invalid⟩ => none ⟨⟨n, List.mem_cons_self, brake⟩, invalid⟩]

/-- What the wire makes of the unit (R28, R30, R32). -/
theorem sampleWire_pulse (b : Bool) (x : State) : (sampleWire b x).pulse =
    match sourceValid x.pulse, sourceValid (wireSampled b x).pulse with
    | true, false => moved x.time.now (wireSampled b x).pulse.noSpeed (some (proxyMotion x))
    | false, true => { (wireSampled b x).pulse with
        reference := none, count := 0, lastEdge := BitVec.ofNat 32 x.time.now, motion := .unknown
        standstillAt := none }
    | _, _ => (wireSampled b x).pulse := by
  rw [sampleWire_eq]
  cases before : sourceValid x.pulse <;> cases after : sourceValid (wireSampled b x).pulse
  · rw [if_neg (by simp), if_neg (by simp)]
  · rw [if_neg (by simp), if_pos (by simp), sourceReturn_pulse]
    rfl
  · rw [if_pos (by simp)]
    have lost : (sourceLost (wireSampled b x)).pulse = (setMotion (proxyMotion (wireSampled b x))
        (setPulse (wireSampled b x).pulse.noSpeed (wireSampled b x))).pulse := rfl
    rw [lost, setMotion_pulse]
    rfl
  · rw [if_neg (by simp), if_neg (by simp)]

theorem sensed_pulse (ratios : Vector Sample 32) (wire : Bool) (inputs : Vector Sample 6) (s : State) :
    (sensed ratios wire inputs (atSense s)).pulse = (sampleWire wire (takeLines ratios (atSense s))).pulse := by
  have groups : (sensed ratios wire inputs (atSense s)).pulse =
      (wireEvent wire (takeLines ratios (atSense s))).pulse := rfl
  rw [groups, wireEvent, settle]
  split <;> simp [finish]

/-! ## The analog groups (R56) -/

theorem quickless_twice (a : AnalogUnit) : quickless (quickless a) = quickless a := by
  simp [quickless]

theorem setMotion_quickless (m : Motion) (x : State) : quickless (setMotion m x).analog = quickless x.analog := by
  rw [setMotion_analog]
  split
  · exact quickless_twice _
  · rfl

theorem deliverChange_quickless (role : Role) (old new : LineState) (x : State) :
    quickless (deliverChange role old new x).analog = quickless x.analog := by
  cases role
  case ignition =>
    simp only [deliverChange]
    split
    · rfl
    · unfold ignitionChange
      dsimp only
      split
      · simp
      · have reset : ∀ y : State, (resetQuick y).analog = quickless y.analog := fun _ => rfl
        rw [reset, quickless_twice]
        simp
  case parkingBrake =>
    have analog : (deliverChange .parkingBrake old new x).analog = (brakeProxy x).analog := by
      rw [deliverChange, brakeChange, brakeConsumers]
      split <;> simp
    obtain ⟨m, proxy⟩ := brakeProxy_motion x
    rw [analog, proxy, setMotion_quickless]
  case unused => rfl
  case general => rfl
  all_goals
    simp only [deliverChange]
    (try split) <;> simp

theorem lineEvent_quickless (before : Vector Line 32) (x : State) (n : Fin 32) :
    quickless (lineEvent before x n).analog = quickless x.analog := by
  unfold lineEvent
  split
  · rfl
  · have analog : (finish x (deliverLine before x n)).analog = (deliverLine before x n).analog := by simp [finish]
    rw [analog, deliverLine]
    split
    · rfl
    · exact deliverChange_quickless _ _ _ x

theorem sampleWire_quickless (b : Bool) (x : State) : quickless (sampleWire b x).analog = quickless x.analog := by
  by_cases same : sourceValid (sampleWire b x).pulse = sourceValid x.pulse
  · have quiet : sampleWire b x = wireSampled b x := by
      rw [sampleWire_valid] at same
      rw [sampleWire_eq, same, if_neg (by simp), if_neg (by simp)]
    rw [quiet]
    rfl
  · obtain ⟨m, p, judged, -⟩ := sampleWire_motion same
    have analog : (judgePermit (setMotion m (setPulse p x))).analog = (setMotion m (setPulse p x)).analog := rfl
    rw [judged, analog, setMotion_quickless]
    rfl

theorem wired_quickless (ratios : Vector Sample 32) (wire : Bool) (s : State) :
    quickless (wireEvent wire (takeLines ratios (atSense s))).analog = quickless s.analog := by
  have analog : (wireEvent wire (takeLines ratios (atSense s))).analog =
      (sampleWire wire (takeLines ratios (atSense s))).analog := by
    rw [wireEvent, settle]
    split <;> simp [finish]
  have lines : quickless (takeLines ratios (atSense s)).analog = quickless (linesSampled ratios s).analog :=
    foldl_keeps (fun y : State => quickless y.analog) _ (lineEvent_quickless s.sense.lines) _ _
  rw [analog, sampleWire_quickless, lines, (linesSampled_taken ratios s).analog]

/-- What a channel holds beside its quick adopt. -/
theorem quickless_channel {a b : AnalogUnit} (h : quickless a = quickless b) (c : Fin 6) :
    { a.channels[c] with quick := 0 } = { b.channels[c] with quick := 0 } := by
  have own := congrArg (fun u : AnalogUnit => u.channels[c]) h
  simpa [quickless] using own

theorem quickless_late {a b : AnalogUnit} (h : quickless a = quickless b) : a.lateAt = b.lateAt :=
  (congrArg (fun u : AnalogUnit => u.lateAt) h : (quickless a).lateAt = (quickless b).lateAt)

/-! ## The sense image (R16) -/

theorem areaSame.trans {area : Area} (h : areaSame area s t) (g : areaSame area t u) : areaSame area s u :=
  fun a low high => (g a low high).trans (h a low high)

theorem finish_senseSame (b : State) (kept : Reach [] eventNotices b u) (sense : u.sense = b.sense)
    (image : u.image = b.image) : areaSame senseArea b (finish b u) := by
  have high : 0x0300 ≤ senseArea.1 := by simp [senseArea]
  have same : senseBytes b = senseBytes (judgeAll u) := senseBytes_congr (by simp [sense]) (by simp [image])
  exact ((images_kept kept high).trans (images_kept (judgeAll_reach u) high)).trans
    (publishAll_sense_same false false same)

theorem lineEvent_senseSame (before : Vector Line 32) (x : State) (n : Fin 32) :
    areaSame senseArea x (lineEvent before x n) := by
  unfold lineEvent
  split
  · exact fun _ _ _ => rfl
  · exact finish_senseSame x (deliverLine_reach before x n) (by simp) (by simp)

theorem lineEvents_senseSame (before : Vector Line 32) : ∀ (l : List (Fin 32)) (x : State),
    areaSame senseArea x (l.foldl (lineEvent before) x)
  | [], _ => fun _ _ _ => rfl
  | n :: l, x => (lineEvent_senseSame before x n).trans (lineEvents_senseSame before l _)

theorem wireEvent_senseSame (b : Bool) (x : State) : areaSame senseArea x (wireEvent b x) := by
  by_cases same : sourceValid (wireEvent b x).pulse = sourceValid x.pulse
  · rw [wireEvent_quiet same]
    exact fun _ _ _ => rfl
  · rw [wireEvent_source same]
    exact finish_senseSame x (sampleWire_reach b x) (by simp) (by simp)

theorem sensed_senseSame (ratios : Vector Sample 32) (wire : Bool) (inputs : Vector Sample 6) (s : State) :
    areaSame senseArea (linesSampled ratios s) (sensed ratios wire inputs (atSense s)) := by
  have lines : areaSame senseArea (linesSampled ratios s) (takeLines ratios (atSense s)) :=
    lineEvents_senseSame _ _ _
  exact lines.trans (wireEvent_senseSame wire _)

end Events

end Sys2Proof.Proofs

/-! A sense sample: the debouncing of the lines and of the wire, the source and its motion proxy, the analog groups. -/

namespace Sys2Proof.Proofs

open Sys2Proof Sys2Proof.Machine Sys2Proof.Safety

section Sample

variable {s : State} {ratios : Vector Sample 32} {wire : Bool} {inputs : Vector Sample 6}

/-! ## One line (R8 to R10) -/

theorem fault_iff (st : LineState) : st.isFault = true ↔ st = .short ∨ st = .broken := by
  cases st <;> simp [LineState.isFault]

theorem requiredCount_eq (n : Nat) (st : LineState) :
    requiredCount n st = if st = .short ∨ st = .broken then max n 20 else n := by
  rw [requiredCount, if_congr (fault_iff st) rfl rfl]

theorem sample_aside {l : Line} {e : LineEntry} {crank : Bool} {r : Sample}
    (h : e.role = .unused ∨ (crank = true ∧ (sampleState e.openedActive (rawClass e.diagnosis r) = .short ∨
      sampleState e.openedActive (rawClass e.diagnosis r) = .broken))) :
    l.sample e crank r = { l with lastClass := some (rawClass e.diagnosis r) } := by
  rw [← fault_iff] at h
  exact if_pos h

theorem sample_taken {l : Line} {e : LineEntry} {crank : Bool} {r : Sample}
    (h : ¬ (e.role = .unused ∨ (crank = true ∧ (sampleState e.openedActive (rawClass e.diagnosis r) = .short ∨
      sampleState e.openedActive (rawClass e.diagnosis r) = .broken)))) :
    l.sample e crank r = ({ l with lastClass := some (rawClass e.diagnosis r) } : Line).debounce e.n
      (sampleState e.openedActive (rawClass e.diagnosis r)) := by
  rw [← fault_iff] at h
  exact if_neg h

/-- The four steps of the debouncing, for a line and its sample. -/
theorem sample_steps (l : Line) (e : LineEntry) (crank : Bool) (r : Sample) :
    let l' := l.sample e crank r
    let st := sampleState e.openedActive (rawClass e.diagnosis r)
    let aside := e.role = .unused ∨ (crank = true ∧ (st = .short ∨ st = .broken))
    let run := if l.candidate = some st then l.run + 1 else 1
    let need := if st = .short ∨ st = .broken then max e.n 20 else e.n
    (aside → l'.debounced = l.debounced ∧ l'.candidate = l.candidate ∧ l'.run = l.run) ∧
    (¬ aside → st = l.debounced → l'.debounced = l.debounced ∧ l'.candidate = none ∧ l'.run = 0) ∧
    (¬ aside → st ≠ l.debounced → need ≤ run →
      l'.debounced = st ∧ l'.candidate = none ∧ l'.run = 0) ∧
    (¬ aside → st ≠ l.debounced → run < need →
      l'.debounced = l.debounced ∧ l'.candidate = some st ∧ l'.run = run) := by
  dsimp only
  refine ⟨fun aside => ?_, fun taken same => ?_, fun taken other full => ?_, fun taken other short => ?_⟩
  · rw [sample_aside aside]
    exact ⟨rfl, rfl, rfl⟩
  · rw [sample_taken taken, Line.debounce, if_pos same]
    exact ⟨rfl, rfl, rfl⟩
  · rw [← requiredCount_eq] at full
    rw [sample_taken taken, Line.debounce, if_neg other]
    dsimp only
    rw [if_pos full]
    exact ⟨rfl, rfl, rfl⟩
  · rw [← requiredCount_eq] at short
    rw [sample_taken taken, Line.debounce, if_neg other]
    dsimp only
    rw [if_neg (by omega)]
    exact ⟨rfl, rfl, rfl⟩

/-! ## The analog groups (R56) -/

/-- The instant of a sense sample. -/
theorem sensed_time (ratios : Vector Sample 32) (wire : Bool) (inputs : Vector Sample 6) (s : State) :
    (sensed ratios wire inputs (atSense s)).time = (atSense s).time := by
  simp [sensed]

/-- The sample is one of the gauge cycle's own instant, the cycle still to come. -/
def ownSample (s : State) : Bool :=
  decide (nextInstant Config.sensePeriod s.time.lastSense s.time.now % 100000 = 0 ∧
    s.time.lastGauge ≠ nextInstant Config.sensePeriod s.time.lastSense s.time.now)

theorem ownSample_eq (s : State) : (decide ((atSense s).time.now % Config.gaugePeriod = 0) &&
    decide ((atSense s).time.lastGauge ≠ (atSense s).time.now)) = ownSample s :=
  (Bool.decide_and _ _).symm

theorem sampleInputs_channel (inputs : Vector Sample 6) (x : State) (c : Fin 6) :
    (sampleInputs inputs x).analog.channels[c] =
      (x.analog.channels[c].absorb (decide (x.analog.lateAt < x.time.now))).sample inputs[c]
        (decide (x.time.now % Config.gaugePeriod = 0) && decide (x.time.lastGauge ≠ x.time.now)) := by
  simp only [sampleInputs, setAnalog, Fin.getElem_fin, Vector.getElem_ofFn]

/-- A channel's next group and sample. -/
def channelSampled (s : State) (v : Sample) (c : Channel) : Channel :=
  (c.absorb (decide (s.analog.lateAt < nextInstant Config.sensePeriod s.time.lastSense s.time.now))).sample v
    (ownSample s)

theorem channelSampled_quick (s : State) (v : Sample) (c d : Channel)
    (h : { c with quick := 0 } = { d with quick := 0 }) :
    { channelSampled s v c with quick := 0 } = { channelSampled s v d with quick := 0 } := by
  have through : ∀ e : Channel, { channelSampled s v e with quick := 0 } = channelSampled s v { e with quick := 0 } := by
    rintro ⟨sum, count, late, mean, x, y, status, fault, hold, quick⟩
    unfold channelSampled Channel.absorb Channel.sample
    cases late with
    | none =>
      dsimp only
      split <;> rfl
    | some w =>
      cases decide (s.analog.lateAt < nextInstant Config.sensePeriod s.time.lastSense s.time.now) <;>
        cases ownSample s <;> rfl
  rw [through, through, h]

theorem sensed_channel (ratios : Vector Sample 32) (wire : Bool) (inputs : Vector Sample 6) (s : State) (c : Fin 6) :
    { (sensed ratios wire inputs (atSense s)).analog.channels[c] with quick := 0 } =
      { channelSampled s inputs[c] s.analog.channels[c] with quick := 0 } := by
  have time : (wireEvent wire (takeLines ratios (atSense s))).time = (atSense s).time := by simp
  have late := quickless_late (wired_quickless ratios wire s)
  have own : (sensed ratios wire inputs (atSense s)).analog.channels[c] = channelSampled s inputs[c]
      (wireEvent wire (takeLines ratios (atSense s))).analog.channels[c] := by
    rw [sensed, sampleInputs_channel, time, late, ownSample_eq]
    rfl
  rw [own]
  exact channelSampled_quick s inputs[c] _ _ (quickless_channel (wired_quickless ratios wire s) c)

theorem sensed_late (ratios : Vector Sample 32) (wire : Bool) (inputs : Vector Sample 6) (s : State) :
    (sensed ratios wire inputs (atSense s)).analog.lateAt =
      if ownSample s = true then nextInstant Config.sensePeriod s.time.lastSense s.time.now else s.analog.lateAt := by
  have time : (wireEvent wire (takeLines ratios (atSense s))).time = (atSense s).time := by simp
  have late := quickless_late (wired_quickless ratios wire s)
  have own : (sensed ratios wire inputs (atSense s)).analog.lateAt =
      if (decide ((wireEvent wire (takeLines ratios (atSense s))).time.now % Config.gaugePeriod = 0) &&
        decide ((wireEvent wire (takeLines ratios (atSense s))).time.lastGauge ≠
          (wireEvent wire (takeLines ratios (atSense s))).time.now)) = true then
        (wireEvent wire (takeLines ratios (atSense s))).time.now
      else (wireEvent wire (takeLines ratios (atSense s))).analog.lateAt := rfl
  rw [own, time, late, ownSample_eq]
  rfl

/-! ## The source and its motion proxy (R28, R30 to R32) -/

/-- The unit after the lines and the wire, the source judged by the wire's state `w`. -/
def sourceSampled (i : Nat) (proxy : Motion) (w : Bool × Nat) (q : PulseUnit) : PulseUnit :=
  match sourceValid q, sourceValid { q with wireBroken := w.1, wireRun := w.2 } with
  | true, false => moved i ({ q with wireBroken := w.1, wireRun := w.2 } : PulseUnit).noSpeed (some proxy)
  | false, true => { q with
      wireBroken := w.1, wireRun := w.2, reference := none, count := 0, lastEdge := BitVec.ofNat 32 i
      motion := .unknown, standstillAt := none }
  | _, _ => { q with wireBroken := w.1, wireRun := w.2 }

/-- The unit after the lines: the proxy's value where PARKING_BRAKE changed and the source is INVALID (R31). -/
def brakeSampled (i : Nat) (proxy : Motion) (braked : Bool) (p : PulseUnit) : PulseUnit :=
  if braked = true ∧ sourceValid p = false then moved i p (some proxy) else p

theorem brakeSampled_valid (i : Nat) (proxy : Motion) (braked : Bool) (p : PulseUnit) :
    sourceValid (brakeSampled i proxy braked p) = sourceValid p := by
  unfold brakeSampled
  split
  · exact moved_valid _ _ _
  · rfl

theorem brakeSampled_wired (i : Nat) (proxy : Motion) (braked : Bool) (p : PulseUnit) (w : Bool × Nat) :
    sourceValid { brakeSampled i proxy braked p with wireBroken := w.1, wireRun := w.2 } = (!w.1 && p.calValid) := by
  have cal : (brakeSampled i proxy braked p).calValid = p.calValid := by
    unfold brakeSampled moved
    (repeat' split) <;> rfl
  rw [← cal]
  rfl

/-- The unit after a sense sample, in one expression. -/
theorem sourceSampled_eq (i : Nat) (proxy : Motion) (braked : Bool) (w : Bool × Nat) (p : PulseUnit) :
    let before := !p.wireBroken && p.calValid
    let after := !w.1 && p.calValid
    let motion : Motion :=
      if before = true then (if after = true then p.motion else proxy)
      else if after = true then .unknown
      else if braked = true then proxy
      else p.motion
    let source : PulseUnit := match before, after with
      | true, false =>
        { p with raw := 0, displayed := 0, status := .invalid, count := 0, reference := none }
      | false, true => { p with count := 0, reference := none, lastEdge := BitVec.ofNat 32 i }
      | _, _ => p
    sourceSampled i proxy w (brakeSampled i proxy braked p) =
      { source with
        wireBroken := w.1, wireRun := w.2, motion := motion
        standstillAt :=
          if before = false ∧ after = true then none
          else if motion = p.motion then p.standstillAt
          else if motion = .standstill then some i else none } := by
  dsimp only
  have was : sourceValid p = (!p.wireBroken && p.calValid) := rfl
  unfold sourceSampled
  rw [brakeSampled_valid, brakeSampled_wired, was]
  cases before : (!p.wireBroken && p.calValid) with
  | true =>
    have own : brakeSampled i proxy braked p = p := if_neg fun h => by rw [was, before] at h; cases h.2
    rw [own]
    cases after : (!w.1 && p.calValid) with
    | true => simp
    | false =>
      have lost : ∀ q : PulseUnit, q.motion = p.motion → moved i q (some proxy) =
          if proxy = p.motion then q
          else { q with motion := proxy, standstillAt := if proxy = .standstill then some i else none } :=
        fun q own => by rw [moved, own, if_congr eq_comm rfl rfl]
      dsimp only
      rw [lost (PulseUnit.noSpeed { p with wireBroken := w.1, wireRun := w.2 }) rfl]
      by_cases same : proxy = p.motion
      · rw [if_pos same, same]
        simp [PulseUnit.noSpeed]
      · rw [if_neg same]
        simp [PulseUnit.noSpeed, same]
  | false =>
    cases after : (!w.1 && p.calValid) with
    | true =>
      simp only [brakeSampled, moved, Bool.false_eq_true, true_and, if_true, if_false]
      (repeat' split) <;> rfl
    | false =>
      simp only [brakeSampled, moved, was, before, Bool.false_eq_true, and_true, and_false, if_false]
      cases braked with
      | false => simp
      | true =>
        by_cases same : p.motion = proxy
        · simp [same]
        · simp [same, Ne.symm same]

theorem wireStep_eq (broken : Bool) (run : Nat) (wire crank : Bool) : wireStep broken run wire crank =
    if wire = true ∧ crank = true then (broken, run)
    else if wire = broken then (broken, 0)
    else if run + 1 < 40 then (broken, run + 1)
    else (!broken, 0) := by
  unfold wireStep
  refine if_congr Iff.rfl rfl (if_congr Iff.rfl rfl ?_)
  by_cases h : run + 1 < 40
  · rw [if_pos h, if_neg (by omega)]
  · rw [if_neg h, if_pos (by omega)]

/-- A line of PARKING_BRAKE changed at the sample. -/
def braked (before : Vector Line 32) (x : State) : Bool := (List.finRange 32).any (brakeMoved before x)

theorem takeLines_pulse (ratios : Vector Sample 32) (s : State) : (takeLines ratios (atSense s)).pulse =
    brakeSampled (linesSampled ratios s).time.now (proxyMotion (linesSampled ratios s))
      (braked s.sense.lines (linesSampled ratios s)) s.pulse := by
  have fold := lineEvents_pulse s.sense.lines (List.finRange 32) (linesSampled ratios s)
  rw [(linesSampled_taken ratios s).pulse] at fold
  have any : braked s.sense.lines (linesSampled ratios s) = true ↔
      ∃ n ∈ List.finRange 32, brakeMoved s.sense.lines (linesSampled ratios s) n = true := List.any_eq_true
  unfold brakeSampled
  by_cases moves : braked s.sense.lines (linesSampled ratios s) = true ∧ sourceValid s.pulse = false
  · rw [if_pos moves]
    exact fold.1 ⟨any.mp moves.1, moves.2⟩
  · rw [if_neg moves]
    exact fold.2 fun h => moves ⟨any.mpr h.1, h.2⟩

theorem sensed_sampled (ratios : Vector Sample 32) (wire : Bool) (inputs : Vector Sample 6) (s : State) :
    (sensed ratios wire inputs (atSense s)).pulse = sourceSampled (linesSampled ratios s).time.now
      (proxyMotion (linesSampled ratios s))
      (wireStep s.pulse.wireBroken s.pulse.wireRun wire s.analog.crankHold)
      (brakeSampled (linesSampled ratios s).time.now (proxyMotion (linesSampled ratios s))
        (braked s.sense.lines (linesSampled ratios s)) s.pulse) := by
  have sense : (takeLines ratios (atSense s)).sense = (linesSampled ratios s).sense := by
    rw [takeLines_sense]
    simp [linesSampled]
  have image : (takeLines ratios (atSense s)).image = (linesSampled ratios s).image := by
    rw [(linesSampled_taken ratios s).image]
    simp
  have time : (takeLines ratios (atSense s)).time = (linesSampled ratios s).time := by
    rw [linesSampled_time]
    simp
  have broken : (takeLines ratios (atSense s)).pulse.wireBroken = s.pulse.wireBroken := by simp
  have run : (takeLines ratios (atSense s)).pulse.wireRun = s.pulse.wireRun := by simp
  have crank : (takeLines ratios (atSense s)).analog.crankHold = s.analog.crankHold := by simp
  have pulse : (wireSampled wire (takeLines ratios (atSense s))).pulse =
      { (takeLines ratios (atSense s)).pulse with
        wireBroken := (wireStep s.pulse.wireBroken s.pulse.wireRun wire s.analog.crankHold).1
        wireRun := (wireStep s.pulse.wireBroken s.pulse.wireRun wire s.analog.crankHold).2 } := by
    rw [← broken, ← run, ← crank]
    rfl
  rw [sensed_pulse, sampleWire_pulse, pulse, proxyMotion_congr sense image, time, takeLines_pulse]
  rfl

end Sample

end Sys2Proof.Proofs

/-! What a sense sample does in every case: the lines, the wire, the source, the groups, the image and the warnings. -/

namespace Sys2Proof.Proofs

open Sys2Proof Sys2Proof.Machine Sys2Proof.Safety

section Warnings

variable {s t u x : State}

/-! ## The warnings judged, and the end of the sample -/

/-- What sources and qualifiers read stands alike (R90, R94). -/
structure JudgesSame (r s : State) : Prop where
  sense : r.sense = s.sense
  motion : r.pulse.motion = s.pulse.motion
  running : r.pulse.running = s.pulse.running
  valid : sourceValid r.pulse = sourceValid s.pulse
  door : r.door = s.door
  fault : ∀ c : Fin 6, r.analog.channels[c].fault = s.analog.channels[c].fault
  supplyLow : r.analog.supplyLow = s.analog.supplyLow
  notRetained : r.store.notRetained = s.store.notRetained
  source : r.win.source = s.win.source
  supervision : r.out.supervision = s.out.supervision
  image : r.image = s.image

theorem JudgesSame.truth (h : JudgesSame t u) : sourceTruth t = sourceTruth u := by
  have lines : lineState t = lineState u := funext fun n => by rw [lineState, lineState, h.sense]
  have doors : doorwayOpen t = doorwayOpen u := funext fun n => by rw [doorwayOpen, doorwayOpen, h.door, h.image]
  funext source kept
  cases source with
  | none => rfl
  | some source =>
    cases source <;> simp only [sourceTruth, lines, doorOpenMoving, anyOpen, doors, doorwayIn, doorEmergency,
      senderFault, wireFault, storeFault, configDefaults, supervisionFallback, h.motion, h.valid, h.door,
      h.fault, h.supplyLow, h.notRetained, h.source, h.supervision, h.image]

theorem JudgesSame.qualifier (h : JudgesSame t u) : qualifierHolds t = qualifierHolds u := by
  have lines : lineState t = lineState u := funext fun n => by rw [lineState, lineState, h.sense]
  funext q
  cases q <;> simp only [qualifierHolds, ignitionOn, lines, h.motion, h.running]

theorem JudgesSame.condition (h : JudgesSame t u) : conditionIn t = conditionIn u := by
  funext w kept
  rw [conditionIn, conditionIn, h.truth, h.qualifier, h.image]

theorem warningsJudged_congr (h : JudgesSame t u) {now : Nat} {a b : WarningUnit} (judged : warningsJudged u now a b) :
    warningsJudged t now a b := by
  have onset : onsetIn t = onsetIn u := by
    funext a w
    simp only [onsetIn, h.image, h.condition]
  have leaves : leavesIn t = leavesIn u := by
    funext a w
    simp only [leavesIn, h.image, h.condition]
  have onsets : onsetsIn t = onsetsIn u := by
    funext a
    rw [onsetsIn, onsetsIn, onset]
  unfold warningsJudged at judged ⊢
  rw [onsets, onset, leaves, h.condition, h.image, h.truth]
  exact judged

theorem apart_judges (apart : SampleApart x t) (valid : sourceValid t.pulse = sourceValid x.pulse) : JudgesSame t x :=
  ⟨apart.sense, apart.motion, apart.running, valid, apart.door, apart.fault, apart.supplyLow, by rw [apart.store],
    by rw [apart.win], by rw [apart.out], apart.image⟩

/-- The warnings judged at the end of an event that the sample's end follows. -/
theorem judged_sampled {b : State} (apart : SampleApart (finish b u) t)
    (valid : sourceValid t.pulse = sourceValid u.pulse) : warningsJudged t t.time.now u.warn t.warn := by
  have judged := finish_judged b u
  rw [← apart.time, ← apart.warn] at judged
  exact warningsJudged_congr (apart_judges apart (valid.trans (finish_permit b u).source.symm)) judged

end Warnings

section Sample

variable {s : State} {ratios : Vector Sample 32} {wire : Bool} {inputs : Vector Sample 6}

/-! ## The parts of a sense sample -/

theorem channelSampled_groups (s : State) (v : Sample) (c : Fin 6) :
    let i := nextInstant Config.sensePeriod s.time.lastSense s.time.now
    let g := openGroup s i c
    let x := channelSampled s v s.analog.channels[c]
    (ownSample s = true → x.sum = g.1 ∧ x.count = g.2 ∧ x.late = some v) ∧
    (ownSample s = false → x.sum = g.1 + v.toNat ∧ x.count = g.2 + 1 ∧
      x.late = if s.analog.lateAt < i then none else s.analog.channels[c].late) := by
  dsimp only
  unfold openGroup channelSampled Channel.sample
  dsimp only
  generalize s.analog.channels[c] = ch
  generalize ownSample s = own
  obtain ⟨sum, count, late, mean, x, y, status, fault, hold, quick⟩ := ch
  refine ⟨fun is => ?_, fun is => ?_⟩
  · rw [is]
    cases late with
    | none => exact ⟨rfl, rfl, rfl⟩
    | some w => by_cases past : s.analog.lateAt < nextInstant Config.sensePeriod s.time.lastSense s.time.now <;>
        simp [Channel.absorb, past]
  · rw [is]
    cases late with
    | none => simp [Channel.absorb]
    | some w => by_cases past : s.analog.lateAt < nextInstant Config.sensePeriod s.time.lastSense s.time.now <;>
        simp [Channel.absorb, past]

theorem quick_fields {c d : Channel} (h : { c with quick := 0 } = { d with quick := 0 }) : c.sum = d.sum ∧
    c.count = d.count ∧ c.late = d.late ∧ c.y = d.y ∧ c.status = d.status ∧ c.hold = d.hold := by
  injection h with sum count late mean x y status fault hold
  exact ⟨sum, count, late, y, status, hold⟩

theorem sensed_groups (ratios : Vector Sample 32) (wire : Bool) (inputs : Vector Sample 6) (s : State) (c : Fin 6) :
    let i := nextInstant Config.sensePeriod s.time.lastSense s.time.now
    let g := openGroup s i c
    let x := (sensed ratios wire inputs (atSense s)).analog.channels[c]
    (ownSample s = true → x.sum = g.1 ∧ x.count = g.2 ∧ x.late = some inputs[c]) ∧
    (ownSample s = false → x.sum = g.1 + inputs[c].toNat ∧ x.count = g.2 + 1 ∧
      x.late = if s.analog.lateAt < i then none else s.analog.channels[c].late) := by
  obtain ⟨sum, count, late, -⟩ := quick_fields (sensed_channel ratios wire inputs s c)
  dsimp only
  rw [sum, count, late]
  exact channelSampled_groups s inputs[c] c

theorem channelSampled_kept (s : State) (v : Sample) (c : Channel) : (channelSampled s v c).y = c.y ∧
    (channelSampled s v c).status = c.status ∧ (channelSampled s v c).hold = c.hold := by
  unfold channelSampled Channel.sample Channel.absorb
  (repeat' split) <;> exact ⟨rfl, rfl, rfl⟩

theorem sourceSampled_valid (i : Nat) (proxy : Motion) (w : Bool × Nat) (q : PulseUnit) :
    sourceValid (sourceSampled i proxy w q) = sourceValid { q with wireBroken := w.1, wireRun := w.2 } := by
  unfold sourceSampled
  split
  · rw [moved_valid]
    rfl
  · rfl
  · rfl

/-- The parking brake's proxy, as the state after the sample gives it. -/
theorem sensed_proxy (ratios : Vector Sample 32) (wire : Bool) (inputs : Vector Sample 6) (s : State) :
    proxyMotion (linesSampled ratios s) = proxyMotion (sensed ratios wire inputs (atSense s)) := by
  refine proxyMotion_congr (linesSampled_sense ratios wire inputs s) ?_
  rw [(linesSampled_taken ratios s).image]
  simp [sensed]

theorem braked_iff (ratios : Vector Sample 32) (wire : Bool) (inputs : Vector Sample 6) (s : State) :
    braked s.sense.lines (linesSampled ratios s) = true ↔ ∃ n : Fin 32, (lineEntry s.image n).role = .parkingBrake ∧
      (sensed ratios wire inputs (atSense s)).sense.lines[n].debounced ≠ s.sense.lines[n].debounced := by
  rw [← linesSampled_sense ratios wire inputs s]
  simp only [braked, List.any_eq_true, List.mem_finRange, true_and, brakeMoved_iff, (linesSampled_taken ratios s).image]

/-- The loss and the return of the source judge the permit (R85). -/
theorem sensed_permitJudged (source : sourceValid (sensed ratios wire inputs (atSense s)).pulse ≠ sourceValid s.pulse) :
    (sensed ratios wire inputs (atSense s)).door.dpermit = permitJudged (sensed ratios wire inputs (atSense s)) := by
  have valid := sensed_valid ratios wire inputs s
  rw [valid, ← takeLines_valid ratios s] at source
  have event := wireEvent_source source
  have differs : sourceValid (sampleWire wire (takeLines ratios (atSense s))).pulse ≠
      sourceValid (takeLines ratios (atSense s)).pulse := by
    rwa [sampleWire_valid, ← wireEvent_valid]
  obtain ⟨m, p, judged, -⟩ := sampleWire_motion differs
  have apart : SampleApart (wireEvent wire (takeLines ratios (atSense s))) (sensed ratios wire inputs (atSense s)) :=
    sampleInputs_apart inputs _
  have same := permit_sampled apart valid
  have ends := finish_permit (takeLines ratios (atSense s)) (sampleWire wire (takeLines ratios (atSense s)))
  rw [same.judged, same.dpermit, event, ends.judged, ends.dpermit, judged]
  exact judgePermit_permit _

/-- The sense image follows the lines, and nothing but a change of it rewrites it. -/
theorem sensed_image (ratios : Vector Sample 32) (wire : Bool) (inputs : Vector Sample 6) (s : State) :
    let t := sensed ratios wire inputs (atSense s)
    (senseBytes t ≠ senseBytes s → imageWritten senseArea (senseBytes t) s t) ∧
    (senseBytes t = senseBytes s → ∀ a : Nat, 0x1040 ≤ a → a < 0x1080 → ramRead t a = ramRead s a) := by
  dsimp only
  have bytes : senseBytes (sensed ratios wire inputs (atSense s)) = senseBytes (sampleLines ratios (atSense s)) :=
    senseBytes_congr (sensed_sense ratios wire inputs (atSense s)) (by simp [sensed, sampleLines])
  have was : senseBytes s = senseBytes (atSense s) := senseBytes_congr rfl rfl
  have kept := sensed_senseSame ratios wire inputs s
  rw [bytes, was]
  refine ⟨fun changed => ?_, fun same a low high => ?_⟩
  · exact imageWritten_congr (by simp [senseArea]) (fun _ _ _ => rfl)
      (publishSense_written (atSense s) (sampleLines ratios (atSense s)) (Ne.symm changed)) kept
  · have ram := kept a (by simpa [senseArea] using low) (by simpa [senseArea] using high)
    rw [ram, linesSampled, publishSense_same _ _ same.symm]
    rfl

theorem sensed_warnings (same : ∀ n : Fin 32,
    (sensed ratios wire inputs (atSense s)).sense.lines[n].debounced = s.sense.lines[n].debounced) :
    (sourceValid (sensed ratios wire inputs (atSense s)).pulse = sourceValid s.pulse →
      (sensed ratios wire inputs (atSense s)).warn = s.warn) ∧
    (sourceValid (sensed ratios wire inputs (atSense s)).pulse ≠ sourceValid s.pulse →
      warningsJudged (sensed ratios wire inputs (atSense s)) (sensed ratios wire inputs (atSense s)).time.now s.warn
        (sensed ratios wire inputs (atSense s)).warn) := by
  have lines : ∀ m : Fin 32, (linesSampled ratios s).sense.lines[m].debounced = s.sense.lines[m].debounced := by
    rw [linesSampled_sense ratios wire inputs]
    exact same
  have base := linesSampled_taken ratios s
  refine ⟨fun source => ?_, fun source => ?_⟩
  · rw [(sensed_quiet source).warn, takeLines_same ratios lines, base.warn]
  · have warn : (sampleWire wire (linesSampled ratios s)).warn = s.warn := by simp [base.warn]
    rw [← warn]
    refine judged_sampled (sensed_source same source) ?_
    rw [sensed_valid, takeLines_same ratios lines, wireEvent_valid, sampleWire_valid]

end Sample

/-- Settles O6: each part of the sample by the lemma that says what the events of the lines and of the wire make of
it. -/
theorem senseSampleDebounces : Obligations.SenseSampleDebounces := by
  intro s ratios wire inputs
  refine ⟨_, exec_senseSample ratios wire inputs s, fun n => ?_, ⟨fun c => ?_, fun own => ?_, fun foreign => ?_, ?_⟩,
    ⟨?_, fun source => ?_⟩, ?_, fun c => ?_, sensed_warnings, (sensed_image ratios wire inputs s).1,
    (sensed_image ratios wire inputs s).2, ?_⟩
  · have steps := sample_steps s.sense.lines[n] (lineEntry s.image n) s.analog.crankHold ratios[n]
    rw [← senseSample_line ratios wire inputs s n] at steps
    exact steps
  · obtain ⟨own, foreign⟩ := sensed_groups ratios wire inputs s c
    exact ⟨fun h => own (decide_eq_true h), fun h => foreign (decide_eq_false h)⟩
  · rw [sensed_late, if_pos (show ownSample s = true from decide_eq_true own)]
  · rw [sensed_late, if_neg fun h : ownSample s = true => foreign (of_decide_eq_true h)]
  · exact sensed_beside ratios wire inputs s
  · have pulse := sourceSampled_eq (linesSampled ratios s).time.now (proxyMotion (linesSampled ratios s))
      (braked s.sense.lines (linesSampled ratios s))
      (wireStep s.pulse.wireBroken s.pulse.wireRun wire s.analog.crankHold) s.pulse
    rw [← sensed_sampled ratios wire inputs s] at pulse
    have time : (linesSampled ratios s).time = (sensed ratios wire inputs (atSense s)).time := by
      rw [linesSampled_time, sensed_time]
    rw [sensed_proxy ratios wire inputs s, time, wireStep_eq] at pulse
    simp only [braked_iff ratios wire inputs s] at pulse
    exact pulse
  · refine sensed_permitJudged fun same => source ?_
    rw [sensed_sampled, sourceSampled_valid, brakeSampled_wired, wireStep_eq] at same
    exact same.symm
  · refine ⟨?_, ?_, ?_⟩ <;> simp [sensed]
  · obtain ⟨-, -, -, value, status, hold⟩ := quick_fields (sensed_channel ratios wire inputs s c)
    obtain ⟨valueKept, statusKept, holdKept⟩ := channelSampled_kept s inputs[c] s.analog.channels[c]
    exact ⟨value.trans valueKept, status.trans statusKept, hold.trans holdKept⟩
  · have reach := sensed_reach ratios wire inputs (atSense s)
    exact ⟨reach.ram, reach.notices, reach.quiet⟩

end Sys2Proof.Proofs

/-! A judgement of the warnings without an onset, one warning after the other. -/

namespace Sys2Proof.Proofs

open Sys2Proof Sys2Proof.Machine Sys2Proof.Safety

section Judge

variable {s t u x y z : State} {w v : Fin 48}

/-! ## One warning among the others -/

theorem judgeWarning_own (y : State) (w : Fin 48) : (judgeWarning y w).warn.warnings[w] =
    movedTo y y.time.now y.warn.nextNumber w y.warn.warnings[w] := by
  rw [judgeWarning_warn]
  simp [putWarning]

theorem judgeWarning_other (y : State) (apart : w ≠ v) :
    (judgeWarning y w).warn.warnings[v] = y.warn.warnings[v] := by
  have values : w.val ≠ v.val := fun e => apart (Fin.ext e)
  rw [judgeWarning_warn]
  simp [putWarning, values]

/-- The onset's number shows in no state. -/
theorem movedTo_state (y : State) (now n m : Nat) (w : Fin 48) (a : Warning) :
    (movedTo y now n w a).state = (movedTo y now m w a).state := by
  unfold movedTo
  dsimp only
  cases (warningDef y.image w).enabled with
  | false => rfl
  | true =>
    cases a.state <;> cases conditionIn y w a.truth <;> dsimp only <;> (repeat' split) <;> rfl

/-- A judgement of all the warnings is one of each alone, wherever it stands in their order. -/
theorem judgeAll_state (same : SameSources y x) (time : y.time = x.time)
    (own : y.warn.warnings[w] = x.warn.warnings[w]) :
    (judgeAll x).warn.warnings[w].state = (judgeWarning y w).warn.warnings[w].state := by
  have all : (judgeAll x).warn = (List.finRange 48).foldl (judgedUnit x) x.warn :=
    (judge_fold (List.finRange 48) x).1
  have each := (judgedUnit_fold x (List.finRange 48) x.warn (List.pairwise_lt_finRange 48)).2.1 w (List.mem_finRange w)
  rw [all, each, judgeWarning_own, movedTo_same same, own, time]
  exact movedTo_state x _ _ _ w _

/-- What holds step by step of a judgement holds of the whole. -/
theorem judges_fold {R : List (Fin 48) → State → State → Prop} (nil : ∀ y, R [] y y)
    (cons : ∀ {w l y z u}, R [w] y z → R l z u → R (w :: l) y u)
    (step : ∀ w y, SameSources y x → y.time = x.time → y.warn.warnings[w] = x.warn.warnings[w] →
      R [w] y (judgeWarning y w)) :
    ∀ (l : List (Fin 48)) (y : State), l.Nodup → SameSources y x → y.time = x.time →
      (∀ w ∈ l, y.warn.warnings[w] = x.warn.warnings[w]) → R l y (l.foldl judgeWarning y)
  | [], y, _, _, _, _ => nil y
  | w :: l, y, distinct, same, time, own => by
    obtain ⟨apart, rest⟩ := List.nodup_cons.mp distinct
    have sources := judgeWarning_sources y w
    refine cons (step w y same time (own w List.mem_cons_self)) ?_
    refine judges_fold nil cons step l (judgeWarning y w) rest ⟨?_, ?_, ?_, ?_, ?_, ?_, ?_, ?_⟩ ?_ fun v mem => ?_
    · rw [sources.sense, same.sense]
    · rw [sources.pulse, same.pulse]
    · rw [sources.door, same.door]
    · rw [sources.analog, same.analog]
    · rw [sources.notRetained, same.notRetained]
    · rw [sources.source, same.source]
    · rw [sources.supervision, same.supervision]
    · rw [sources.image, same.image]
    · rw [← time]
      simp
    · rw [judgeWarning_other y fun e : w = v => apart (e ▸ mem)]
      exact own v (List.mem_cons_of_mem w mem)

theorem judgeAll_fold {R : List (Fin 48) → State → State → Prop} (nil : ∀ y, R [] y y)
    (cons : ∀ {w l y z u}, R [w] y z → R l z u → R (w :: l) y u)
    (step : ∀ w y, SameSources y x → y.time = x.time → y.warn.warnings[w] = x.warn.warnings[w] →
      R [w] y (judgeWarning y w)) : R (List.finRange 48) x (judgeAll x) :=
  judges_fold nil cons step _ x (List.nodup_finRange 48) ⟨rfl, rfl, rfl, rfl, rfl, rfl, rfl, rfl⟩ rfl fun _ _ => rfl

/-! ## A step without an onset -/

/-- What a judgement of one warning can do where it has no onset (R95). -/
inductive CalmStep (w : Fin 48) (y : State) : State → Prop
  | same : CalmStep w y y
  | set (a : Warning) (quiet : a.state = y.warn.warnings[w].state ∨
      (y.warn.warnings[w].state = .inactive ∧ a.state = .pending) ∨
      (y.warn.warnings[w].state = .pending ∧ a.state = .inactive)) : CalmStep w y (setWarning w a y)
  | latch (a : Warning) (was : y.warn.warnings[w].state = .activeUnack) (own : a.state = y.warn.warnings[w].state) :
      CalmStep w y (restate w .latched (setWarning w a y))
  | leave (a : Warning) (was : y.warn.warnings[w].state = .activeUnack ∨ y.warn.warnings[w].state = .activeAck)
      (own : a.state = y.warn.warnings[w].state) : CalmStep w y (leaveList w (setWarning w a y))

theorem onset_state (w : Fin 48) (s : State) : (onset w s).warn.warnings[w].state = .activeUnack := by
  rw [onset_warn, enterList_warn]
  simp [putWarning]

theorem leaveList_state (w : Fin 48) (s : State) : (leaveList w s).warn.warnings[w].state = .inactive := by
  rw [leaveList_warn]
  simp [returned]

theorem setWarning_own (w : Fin 48) (a : Warning) (s : State) : (setWarning w a s).warn.warnings[w] = a := by simp

theorem setWarning_again (w : Fin 48) (a b : Warning) (s : State) :
    setWarning w b (setWarning w a s) = setWarning w b s := by
  have vectors : ∀ v : Vector Warning 48, (v.set w.val a w.isLt).set w.val b w.isLt = v.set w.val b w.isLt :=
    fun v => Vector.set_set ..
  unfold setWarning
  dsimp only
  rw [vectors]

theorem judgeWarning_calm
    (calm : (judgeWarning y w).warn.warnings[w].state = .activeUnack → y.warn.warnings[w].state = .activeUnack) :
    CalmStep w y (judgeWarning y w) := by
  unfold judgeWarning at calm ⊢
  dsimp only at calm ⊢
  by_cases enabled : (warningDef y.image w).enabled = true
  case neg => rw [if_neg enabled]; exact .same
  rw [if_pos enabled] at calm ⊢
  revert calm
  generalize condition y (warningDef y.image w)
    (sourceTruth y (warningDef y.image w).source y.warn.warnings[w].truth) = c
  generalize sourceTruth y (warningDef y.image w).source y.warn.warnings[w].truth = truth
  generalize judged : ({ y.warn.warnings[w] with truth := truth } : Warning) = a
  have own : a.state = y.warn.warnings[w].state := by rw [← judged]
  unfold moveWarning
  dsimp only
  rw [setWarning_own, own]
  intro calm
  cases was : y.warn.warnings[w].state with
  | inactive =>
    rw [was] at calm own
    dsimp only at calm ⊢
    split
    next cond =>
      rw [if_pos cond] at calm
      split
      next now =>
        rw [if_pos now, onset_state] at calm
        exact absurd (calm rfl) (by simp)
      next later =>
        rw [setWarning_again]
        exact .set _ (.inr (.inl ⟨was, rfl⟩))
    next => exact .set a (.inl (own.trans was.symm))
  | pending =>
    rw [was] at own
    dsimp only
    split
    · exact .set a (.inl (own.trans was.symm))
    · rw [setWarning_again]
      exact .set _ (.inr (.inr ⟨was, rfl⟩))
  | activeUnack =>
    rw [was] at own
    dsimp only
    split
    · exact .set a (.inl (own.trans was.symm))
    · split
      · exact .latch a was (own.trans was.symm)
      · exact .leave a (.inl was) (own.trans was.symm)
  | activeAck =>
    rw [was] at own
    dsimp only
    split
    · exact .set a (.inl (own.trans was.symm))
    · exact .leave a (.inr was) (own.trans was.symm)
  | latched =>
    rw [was] at calm own
    dsimp only at calm ⊢
    split
    next cond =>
      rw [if_pos cond, onset_state] at calm
      exact absurd (calm rfl) (by simp)
    next => exact .set a (.inl (own.trans was.symm))

/-- A step that leaves a warning's state leaves all but its truth. -/
theorem CalmStep.stays (h : CalmStep w y z) (stays : z.warn.warnings[w].state = y.warn.warnings[w].state) :
    z.out = y.out ∧ z.faults = y.faults ∧ z.store = y.store := by
  cases h with
  | same => exact ⟨rfl, rfl, rfl⟩
  | set a _ => exact ⟨rfl, rfl, rfl⟩
  | latch a was own =>
    rw [restate_warn, was] at stays
    simp at stays
  | leave a was own =>
    rw [leaveList_state] at stays
    rw [← stays] at was
    exact absurd was (by simp)

/-- A judgement that leaves every state leaves the outputs, the records and the jobs. -/
theorem judgeAll_stays (stays : ∀ w : Fin 48, (judgeAll x).warn.warnings[w].state = x.warn.warnings[w].state) :
    (judgeAll x).out = x.out ∧ (judgeAll x).faults = x.faults ∧ (judgeAll x).store = x.store := by
  refine judgeAll_fold (x := x) (R := fun _ y z => z.out = y.out ∧ z.faults = y.faults ∧ z.store = y.store)
    (fun _ => ⟨rfl, rfl, rfl⟩) (fun first rest => ⟨rest.1.trans first.1, rest.2.1.trans first.2.1,
      rest.2.2.trans first.2.2⟩) fun w y same time own => ?_
  have kept : (judgeWarning y w).warn.warnings[w].state = y.warn.warnings[w].state := by
    rw [← judgeAll_state same time own, stays, own]
  exact (judgeWarning_calm fun active => kept ▸ active).stays kept

/-! ## The repeat and the records at a judgement without an onset (R106, R130) -/

/-- The warning leaves its listed state. -/
def leavesListed (a b : WarnState) : Prop := a.listed = true ∧ b ≠ a

/-- The warning leaves the list. -/
def endsListed (a b : WarnState) : Prop := a.listed = true ∧ b = .inactive

theorem setWarning_calls {a : Warning}
    (same : a.state = .activeUnack ↔ y.warn.warnings[w].state = .activeUnack) :
    stopCalls (setWarning w a y) ↔ stopCalls y := by
  have each : ∀ v : Fin 48, (setWarning w a y).warn.warnings[v].state = .activeUnack ↔
      y.warn.warnings[v].state = .activeUnack := fun v => by
    by_cases own : w = v
    · subst own
      rw [setWarning_own, same]
    · have apart : w.val ≠ v.val := fun e => own (Fin.ext e)
      simp [apart]
  exact exists_congr fun v => and_congr (each v) Iff.rfl

theorem CalmStep.quiets (h : CalmStep w y z) :
    Quieted y.time.now (leavesListed y.warn.warnings[w].state z.warn.warnings[w].state) y z := by
  cases h with
  | same => exact Quieted.refl.iff (by simp [leavesListed])
  | set a quiet =>
    have calls : a.state = .activeUnack ↔ y.warn.warnings[w].state = .activeUnack := by
      obtain same | ⟨was, now⟩ | ⟨was, now⟩ := quiet
      · rw [same]
      · rw [was, now]
        simp
      · rw [was, now]
        simp
    refine (Quieted.beside (setWarning_calls calls) rfl).iff ?_
    rw [setWarning_own]
    obtain same | ⟨was, now⟩ | ⟨was, now⟩ := quiet
    · rw [same]
      simp [leavesListed]
    · rw [was, now]
      simp [leavesListed, WarnState.listed]
    · rw [was, now]
      simp [leavesListed, WarnState.listed]
  | latch a was own =>
    have set : Quieted y.time.now False y (setWarning w a y) := .beside (setWarning_calls (by rw [own])) rfl
    refine (set.trans (restate_quiets w (by simp) (setWarning w a y))).iff ?_
    rw [restate_warn, was]
    simp [leavesListed, WarnState.listed]
  | leave a was own =>
    have set : Quieted y.time.now False y (setWarning w a y) := .beside (setWarning_calls (by rw [own])) rfl
    refine (set.trans (leaveList_quiets w (setWarning w a y))).iff ?_
    rw [leaveList_state]
    obtain was | was := was <;> rw [was] <;> simp [leavesListed, WarnState.listed]

theorem CalmStep.returns (h : CalmStep w y z) : Deactivated (fun v => v = w ∧ (warningDef y.image w).record = true ∧
    endsListed y.warn.warnings[w].state z.warn.warnings[w].state) y z := by
  cases h with
  | same =>
    refine Deactivated.refl.iff fun v => ?_
    simp only [endsListed, false_iff]
    rintro ⟨-, -, listed, inactive⟩
    rw [inactive] at listed
    exact absurd listed (by simp [WarnState.listed])
  | set a quiet =>
    refine Deactivated.same rfl rfl fun v => ?_
    rintro ⟨-, -, listed, inactive⟩
    rw [setWarning_own] at inactive
    obtain same | ⟨was, now⟩ | ⟨was, now⟩ := quiet
    · rw [← same, inactive] at listed
      exact absurd listed (by simp [WarnState.listed])
    · rw [was] at listed
      exact absurd listed (by simp [WarnState.listed])
    · rw [was] at listed
      exact absurd listed (by simp [WarnState.listed])
  | latch a was own =>
    have set : Deactivated (fun _ => False) y (setWarning w a y) := .same rfl rfl fun _ => id
    refine (set.trans (restate_returns w .latched (setWarning w a y))).iff fun v => ?_
    rw [restate_warn]
    simp [endsListed]
  | leave a was own =>
    have set : Deactivated (fun _ => False) y (setWarning w a y) := .same rfl rfl fun _ => id
    refine (set.trans (leaveList_returns w (setWarning w a y))).iff fun v => ?_
    have image : (setWarning w a y).image = y.image := rfl
    rw [leaveList_state, image]
    obtain was | was := was <;> rw [was] <;> simp [endsListed, WarnState.listed]

/-- Without an onset a judgement follows the repeat and returns the records of the warnings that left the list. -/
theorem judgeAll_calm (calm : ∀ w : Fin 48, (judgeAll x).warn.warnings[w].state = .activeUnack →
    x.warn.warnings[w].state = .activeUnack) :
    Quieted x.time.now
      (∃ w : Fin 48, leavesListed x.warn.warnings[w].state (judgeAll x).warn.warnings[w].state) x (judgeAll x) ∧
    Deactivated (fun w => (warningDef x.image w).record = true ∧
      endsListed x.warn.warnings[w].state (judgeAll x).warn.warnings[w].state) x (judgeAll x) := by
  have fold := judgeAll_fold (x := x) (R := fun l y z => Quieted x.time.now
      (∃ w ∈ l, leavesListed x.warn.warnings[w].state (judgeAll x).warn.warnings[w].state) y z ∧
      Deactivated (fun w => w ∈ l ∧ (warningDef x.image w).record = true ∧
        endsListed x.warn.warnings[w].state (judgeAll x).warn.warnings[w].state) y z)
    (fun _ => ⟨Quieted.refl.iff (by simp), Deactivated.refl.iff (by simp)⟩)
    (fun first rest => ⟨(first.1.trans rest.1).iff (by simp), (first.2.trans rest.2).iff fun v => by
      simp only [List.mem_cons, List.not_mem_nil, or_false]
      tauto⟩) fun w y same time own => ?_
  · exact ⟨fold.1.iff (by simp), fold.2.iff (by simp)⟩
  · have state := judgeAll_state same time own
    have step : CalmStep w y (judgeWarning y w) := judgeWarning_calm fun active => by
      rw [own]
      exact calm w (state.trans active)
    have quiets := step.quiets
    have returns := step.returns
    rw [← state, own, time] at quiets
    rw [← state, own, same.image] at returns
    refine ⟨quiets.iff (by simp), returns.iff fun v => ?_⟩
    simp only [List.mem_singleton]
    refine and_congr_right fun e => ?_
    rw [e]

end Judge

end Sys2Proof.Proofs

/-! What a change of one line does to its role: the aging of the records at an ignition change, the beep of a stop
button, the acknowledge button, the end of a test. -/

namespace Sys2Proof.Proofs

open Sys2Proof Sys2Proof.Machine Sys2Proof.Safety

section Aging

variable {s t u : State}

/-! ## The aging of the records (R132) -/

/-- A place one ignition cycle later. -/
def placeAged (limit : Nat) (p : Place) : Place :=
  match p with
  | .stored r =>
    if r.active = true then .stored r
    else if limit ≤ r.aging + 1 then .free
    else .stored { r with aging := r.aging + 1 }
  | p => p

/-- A place that holds a PASSIVE record. -/
def Passive (p : Place) : Prop := ∃ r, p = .stored r ∧ r.active = false

theorem placeAged_passive {limit : Nat} {p : Place} (h : Passive p) : p ≠ placeAged limit p := by
  obtain ⟨r, rfl, passive⟩ := h
  unfold placeAged
  simp only [passive, Bool.false_eq_true, if_false]
  split
  · simp
  · intro same
    have aging := congrArg FaultRecord.aging (Place.stored.inj same)
    dsimp only at aging
    omega

theorem placeAged_kept {limit : Nat} {p : Place} (h : ¬ Passive p) : placeAged limit p = p := by
  cases p with
  | stored r =>
    have active : r.active = true := by
      by_contra no
      exact h ⟨r, rfl, by simpa using no⟩
    simp [placeAged, active]
  | free => rfl
  | erasing r => rfl

/-- The places in `l` have aged, each changed one with its job. -/
structure Ages (l : List (Fin 40)) (s t : State) : Prop where
  places : ∀ j : Fin 40, t.faults.places[j] =
    if j ∈ l then placeAged (agingLimit s.image) s.faults.places[j] else s.faults.places[j]
  jobs : ∀ o ∈ s.store.queue, o ∈ t.store.queue
  place : ∀ j ∈ l, Passive s.faults.places[j] → Object.place j ∈ t.store.queue
  views : s.faults.viewEvents ≤ t.faults.viewEvents
  seen : ∀ j ∈ l, Passive s.faults.places[j] → s.faults.viewEvents < t.faults.viewEvents
  overflow : t.faults.overflow = s.faults.overflow
  image : t.image = s.image

theorem agePlace_passive {i : Fin 40} (h : Passive s.faults.places[i]) : agePlace s i =
    noteView (setPlace i (placeAged (agingLimit s.image) s.faults.places[i]) s) := by
  obtain ⟨r, held, passive⟩ := h
  unfold agePlace placeAged
  rw [held]
  simp only [passive, Bool.false_eq_true, if_false]
  split <;> rfl

theorem agePlace_kept {i : Fin 40} (h : ¬ Passive s.faults.places[i]) : agePlace s i = s := by
  unfold agePlace
  cases held : s.faults.places[i] with
  | stored r =>
    have active : r.active = true := by
      by_contra no
      exact h ⟨r, held, by simpa using no⟩
    simp [active]
  | free => rfl
  | erasing r => rfl

theorem agePlace_ages (s : State) (i : Fin 40) : Ages [i] s (agePlace s i) := by
  by_cases passive : Passive s.faults.places[i]
  · rw [agePlace_passive passive]
    obtain ⟨places, queue⟩ := setPlace_changes (placeAged_passive (limit := agingLimit s.image) passive)
    have views : (setPlace i (placeAged (agingLimit s.image) s.faults.places[i]) s).faults.viewEvents =
        s.faults.viewEvents := by simp
    refine ⟨fun j => ?_, fun o mem => ?_, fun j mem _ => ?_, ?_, fun j _ _ => ?_, by simp, by simp⟩
    · rw [noteView_faults_places, places]
      by_cases own : i = j
      · subst own
        simp
      · have apart : i.val ≠ j.val := fun e => own (Fin.ext e)
        simp [apart, Ne.symm own]
    · rw [noteView_store, queue]
      exact mem_addJob.mpr (.inl mem)
    · rw [noteView_store, queue, List.mem_singleton.mp mem]
      exact mem_addJob.mpr (.inr rfl)
    · rw [noteView_viewEvents, views]
      exact Nat.le_succ _
    · rw [noteView_viewEvents, views]
      exact Nat.lt_succ_self _
  · rw [agePlace_kept passive]
    refine ⟨fun j => ?_, fun _ mem => mem, fun j mem own => ?_, le_rfl, fun j mem own => ?_, rfl, rfl⟩
    · split
      next mem => rw [List.mem_singleton.mp mem, placeAged_kept passive]
      · rfl
    · exact absurd (List.mem_singleton.mp mem ▸ own) passive
    · exact absurd (List.mem_singleton.mp mem ▸ own) passive

theorem Ages.cons {i : Fin 40} {l : List (Fin 40)} (fresh : i ∉ l) (h : Ages [i] s t) (g : Ages l t u) :
    Ages (i :: l) s u := by
  have before : ∀ j ∈ l, t.faults.places[j] = s.faults.places[j] := fun j mem => by
    rw [h.places, if_neg fun own => fresh (by rwa [← List.mem_singleton.mp own])]
  refine ⟨fun j => ?_, fun o mem => g.jobs o (h.jobs o mem), fun j mem passive => ?_, h.views.trans g.views,
    fun j mem passive => ?_, g.overflow.trans h.overflow, g.image.trans h.image⟩
  · rw [g.places, h.image]
    by_cases later : j ∈ l
    · rw [if_pos later, before j later, if_pos (List.mem_cons_of_mem i later)]
    · rw [if_neg later, h.places]
      simp only [List.mem_cons, List.not_mem_nil, or_false, later]
  · obtain rfl | later := List.mem_cons.mp mem
    · exact g.jobs _ (h.place j List.mem_cons_self passive)
    · exact g.place j later (before j later ▸ passive)
  · obtain rfl | later := List.mem_cons.mp mem
    · exact (h.seen j List.mem_cons_self passive).trans_le g.views
    · exact h.views.trans_lt (g.seen j later (before j later ▸ passive))

theorem agePlaces_ages : ∀ (l : List (Fin 40)) (s : State), l.Nodup → Ages l s (l.foldl agePlace s)
  | [], s, _ => ⟨fun _ => by simp, fun _ mem => mem, fun _ mem => by simp at mem, le_rfl, fun _ mem => by simp at mem,
      rfl, rfl⟩
  | i :: l, s, distinct => by
    obtain ⟨fresh, rest⟩ := List.nodup_cons.mp distinct
    exact (agePlace_ages s i).cons fresh (agePlaces_ages l _ rest)

/-- Every PASSIVE record ages by one cycle, with the jobs of the places and of the header. -/
theorem ageRecords_ages (s : State) : Ages (List.finRange 40) s (ageRecords s) ∧
    (recordCount (ageRecords s) ≠ recordCount s → Object.header ∈ (ageRecords s).store.queue) := by
  obtain ⟨places, jobs, place, views, seen, overflow, image⟩ :=
    agePlaces_ages (List.finRange 40) s (List.nodup_finRange 40)
  have faults : (ageRecords s).faults = ((List.finRange 40).foldl agePlace s).faults := by simp [ageRecords]
  have grows : ∀ o ∈ ((List.finRange 40).foldl agePlace s).store.queue, o ∈ (ageRecords s).store.queue := by
    intro o mem
    rw [ageRecords, headerJob_queue]
    split
    · exact mem
    · exact mem_addJob.mpr (.inl mem)
  refine ⟨⟨?_, fun o mem => grows o (jobs o mem), fun j mem passive => grows _ (place j mem passive), ?_, ?_, ?_, ?_⟩,
    fun changed => ?_⟩
  · rw [faults]
    exact places
  · rw [faults]
    exact views
  · rw [faults]
    exact seen
  · rw [faults]
    exact overflow
  · rw [← image]
    simp [ageRecords]
  · have count : recordCount (ageRecords s) = recordCount ((List.finRange 40).foldl agePlace s) := by
      rw [recordCount_eq, recordCount_eq, faults]
    rw [count] at changed
    rw [ageRecords, headerJob_queue, if_neg fun same => changed same.1.symm]
    exact mem_addJob.mpr (.inr rfl)

end Aging

/-! ## The stop button's beep (R82, R105) -/

theorem request_info (a : Arbiter) (now : Nat) : a.request now .info =
    if a.repeatTimer = none ∧ a.current = none then
      { a with level := true, current := some { cls := .info, position := 0, timer := { left := 20, since := now } } }
    else { a with pending := some (a.pending.getD .info) } := by
  unfold Arbiter.request
  by_cases free : a.repeatTimer = none ∧ a.current = none
  · rw [if_pos free, if_pos (by simp [free])]
    rfl
  · rw [if_neg free, if_neg (by simpa using free)]
    obtain ⟨level, timer, current, pending⟩ := a
    cases pending with
    | none => rfl
    | some c => cases c <;> rfl

section Stop

variable {s : State}

theorem pressStop_sets (h : (s.door.cycle = .driving ∨ s.door.cycle = .arrived) ∧ s.door.latch = false) :
    pressStop s = requestBurst .info (setDoor { s.door with latch := true } s) :=
  if_pos ⟨h.1, by simp [h.2]⟩

theorem pressStop_idle (h : ¬ ((s.door.cycle = .driving ∨ s.door.cycle = .arrived) ∧ s.door.latch = false)) :
    pressStop s = s :=
  if_neg fun g => h ⟨g.1, by simpa using g.2⟩

end Stop

/-! ## The acknowledge button (R103) -/

theorem pressAck_first {s : State} {w : Fin 48} {a b : List (Fin 48)} (list : s.warn.list = a ++ w :: b)
    (waits : ackWaits s w) (before : ∀ v ∈ a, ¬ ackWaits s v) : pressAck s = acknowledge s w := by
  have found : s.warn.list.find? (fun w => decide (s.warn.warnings[w].state = .activeUnack) ||
      decide (s.warn.warnings[w].state = .latched)) = some w := by
    rw [List.find?_eq_some_iff_append]
    refine ⟨by simpa [ackWaits] using waits, a, b, list, fun v mem => ?_⟩
    simpa [ackWaits] using before v mem
  unfold pressAck
  rw [found]

theorem pressAck_none {s : State} (none : ∀ v ∈ s.warn.list, ¬ ackWaits s v) : pressAck s = s := by
  have found : s.warn.list.find? (fun w => decide (s.warn.warnings[w].state = .activeUnack) ||
      decide (s.warn.warnings[w].state = .latched)) = Option.none := by
    rw [List.find?_eq_none]
    intro v mem
    simpa [ackWaits] using none v mem
  unfold pressAck
  rw [found]

end Sys2Proof.Proofs

/-! The end of a sense sample that changed one line: each role's consumers, the warnings judged, the repeat and the
records of the warnings that left the list. -/

namespace Sys2Proof.Proofs

open Sys2Proof Sys2Proof.Machine Sys2Proof.Safety

section Roles

variable {s t : State} {ratios : Vector Sample 32} {n : Fin 32}

/-! ## The end of the event -/

/-- What the judgement leaves stands at the end of the sample. -/
theorem OneLine.ended (h : OneLine ratios n s t) : t.warn = (judgeAll (oneLine ratios n s)).warn ∧
    t.out = (judgeAll (oneLine ratios n s)).out ∧ t.faults = (judgeAll (oneLine ratios n s)).faults ∧
    t.store = (judgeAll (oneLine ratios n s)).store := by
  rw [h.apart.warn, h.apart.out, h.apart.faults, h.apart.store]
  simp [finish]

theorem OneLine.notice (h : OneLine ratios n s t) {k : Notice} (set : noticeSet (oneLine ratios n s) k = true) :
    noticeSet t k = true := by
  rw [h.apart.noticeSet_eq]
  exact finish_notice _ set

theorem OneLine.recorded (h : OneLine ratios n s t)
    (views : s.faults.viewEvents ≠ (judgeAll (oneLine ratios n s)).faults.viewEvents) :
    noticeSet t .faultMemoryChanged = true := by
  rw [h.apart.noticeSet_eq]
  refine publish_faultNotice ?_
  rwa [h.base.faults]

theorem OneLine.judges (h : OneLine ratios n s t) (source : sourceValid t.pulse = sourceValid s.pulse) :
    JudgesSame t (oneLine ratios n s) := by
  have same := apart_judges h.apart
    (source.trans (oneLine_valid ratios n s ▸ (finish_permit (linesSampled ratios s) (oneLine ratios n s)).source).symm)
  obtain ⟨sense, motion, running, valid, door, fault, supplyLow, notRetained, src, supervision, image⟩ := same
  refine ⟨sense.trans (finish_sense _ _), motion.trans (by simp [finish]), running.trans (by simp [finish]),
    valid.trans (finish_permit _ _).source, door.trans (finish_door _ _), fun c => (fault c).trans (by simp [finish]),
    supplyLow.trans (by simp [finish]), notRetained.trans (by simp [finish]), src.trans (by simp [finish]),
    supervision.trans (by simp [finish]), image.trans (finish_image _ _)⟩

/-- The warnings are judged once at the end of the event. -/
theorem OneLine.judged (h : OneLine ratios n s t) (source : sourceValid t.pulse = sourceValid s.pulse) :
    warningsJudged t t.time.now (oneLine ratios n s).warn t.warn :=
  judged_sampled h.apart (source.trans (oneLine_valid ratios n s).symm)

/-- Where no warning's state changed, the outputs, the records and the jobs are the deliveries'. -/
theorem OneLine.settles (h : OneLine ratios n s t) (warn : (oneLine ratios n s).warn = s.warn)
    (settled : ∀ w : Fin 48, t.warn.warnings[w].state = s.warn.warnings[w].state) :
    t.out = (oneLine ratios n s).out ∧ t.faults = (oneLine ratios n s).faults ∧
      t.store = (oneLine ratios n s).store := by
  obtain ⟨twarn, out, faults, store⟩ := h.ended
  obtain ⟨outKept, faultsKept, storeKept⟩ := judgeAll_stays (x := oneLine ratios n s) fun w => by
    rw [← twarn, warn]
    exact settled w
  exact ⟨out.trans outKept, faults.trans faultsKept, store.trans storeKept⟩

theorem OneLine.dist (h : OneLine ratios n s t) : t.dist = (oneLine ratios n s).dist := by
  rw [h.apart.dist]
  simp [finish]

/-! ## The ignition (R13, R132) -/

theorem OneLine.new (h : OneLine ratios n s t) :
    (linesSampled ratios s).sense.lines[n].debounced = t.sense.lines[n].debounced := by
  rw [h.sense]

theorem ignition_state (s : State) : (s.sense.lines[(0 : Fin 32)].debounced = .active) ↔ ignitionOn s = true := by
  rw [ignitionOn, lineState, decide_eq_true_iff]

/-- Which way the ignition went. -/
theorem OneLine.turned (h : OneLine ratios n s t) (role : (lineEntry s.image n).role = .ignition) (zero : n = 0)
    (changed : ignitionOn s ≠ ignitionOn t) : oneLine ratios n s = ignitionChange (ignitionOn t) (linesSampled ratios s) := by
  have new := h.new
  subst zero
  have now : decide ((linesSampled ratios s).sense.lines[(0 : Fin 32)].debounced = .active) = ignitionOn t := by
    rw [new]
    rfl
  rw [oneLine_ignition role, now]
  intro same
  rw [new] at same
  exact changed (Bool.eq_iff_iff.mpr ((ignition_state s).symm.trans (same.to_iff.trans (ignition_state t))))

theorem OneLine.ignitionKept (h : OneLine ratios n s t) (role : (lineEntry s.image n).role = .ignition) (zero : n = 0)
    (same : ignitionOn t = ignitionOn s) :
    noticeSet t .ignition = noticeSet s .ignition ∧ t.door = s.door ∧ t.dist = s.dist := by
  have new := h.new
  have stays : oneLine ratios n s = linesSampled ratios s := by
    subst zero
    rw [oneLine, role, new]
    exact if_pos (propext ((ignition_state s).trans ((Bool.eq_iff_iff.mp same).symm.trans (ignition_state t).symm)))
  refine ⟨?_, ?_, ?_⟩
  · have judged := ((judgeAll_reach (linesSampled ratios s)).notices .ignition).2 (by simp)
    rw [h.apart.noticeSet_eq, stays, finish, publish, publishAll_notice, judged, linesSampled_notice]
    simp
  · rw [h.door, stays, h.base.door]
  · rw [h.dist, stays, h.base.dist]

theorem OneLine.permitJudged (h : OneLine ratios n s t) (source : sourceValid t.pulse = sourceValid s.pulse)
    (role : (lineEntry s.image n).role = .ignition) (zero : n = 0) (changed : ignitionOn s ≠ ignitionOn t) :
    t.door.dpermit = Machine.permitJudged t := by
  obtain ⟨y, cycle, -⟩ := ignition_cycleEvent (ignitionOn t) (linesSampled ratios s)
  rw [← h.turned role zero changed] at cycle
  exact (h.cycle source cycle).2

theorem ignitionChange_notice (on : Bool) (s : State) : noticeSet (ignitionChange on s) .ignition = true := by
  have set : noticeSet (setNotice .ignition s) .ignition = true := by
    rw [noticeSet_setNotice]
    simp
  have kept : ∀ y, y.win = (setNotice .ignition s).win → noticeSet (doorIgnition y) .ignition = true := fun y win => by
    refine ((doorIgnition_reach y).notices .ignition).1 ?_
    rw [noticeSet, win]
    exact set
  unfold ignitionChange
  cases on with
  | true => exact kept (ageRecords (setNotice .ignition s)) (by simp)
  | false =>
    have judged := kept (saveTrigger (setNotice .ignition s)) (by simp)
    exact ((abortTest_reach .ignitionOff _).notices .ignition).1 judged

theorem resetQuick_quick (s : State) (c : Fin 6) : (resetQuick s).analog.channels[c].quick = 0 := by
  simp [resetQuick]

/-- A running test ends with the reason of the abort. -/
theorem abortTest_result (r : AbortReason) {s : State} (run : s.out.test ≠ none) :
    (abortTest r s).out.lastResult = .aborted r := by
  obtain ⟨x, running⟩ := Option.ne_none_iff_exists'.mp run
  rw [abortTest, endTest_out _ running]
  simp [testDropped, endResult]

/-- The state before the ignition's fall ends a test. -/
def ignitionSaved (s : State) : State := doorIgnition (saveTrigger (setNotice .ignition s))

theorem ignitionSaved_out (s : State) : (ignitionSaved s).out = s.out := by simp [ignitionSaved]

theorem ignitionOff_eq (s : State) : ignitionChange false s = resetQuick (abortTest .ignitionOff (ignitionSaved s)) := rfl

theorem ignitionOff_kept (s : State) : (ignitionChange false s).dist = { s.dist with ticks := 0 } ∧
    (ignitionChange false s).store.queue = addJob (addJob (addJob s.store.queue .ring) .tripA) .tripB ∧
    (ignitionChange false s).out.test = none ∧ (∀ c : Fin 6, (ignitionChange false s).analog.channels[c].quick = 0) ∧
    (s.out.test ≠ none → (ignitionChange false s).out.lastResult = .aborted .ignitionOff) := by
  rw [ignitionOff_eq]
  have saved : (ignitionSaved s).dist = { s.dist with ticks := 0 } ∧
      (ignitionSaved s).store.queue = addJob (addJob (addJob s.store.queue .ring) .tripA) .tripB := by
    simp [ignitionSaved, saveTrigger_eq]
  refine ⟨?_, ?_, abortTest_test _ _, resetQuick_quick _, fun run => ?_⟩
  · rw [← saved.1]
    simp
  · rw [← saved.2]
    simp
  · exact abortTest_result .ignitionOff (by rwa [ignitionSaved_out])

theorem OneLine.turnedOn (h : OneLine ratios n s t) (source : sourceValid t.pulse = sourceValid s.pulse)
    (role : (lineEntry s.image n).role = .ignition) (zero : n = 0) (off : ignitionOn s = false)
    (on : ignitionOn t = true) :
    noticeSet t .ignition = true ∧ t.door.dpermit = Machine.permitJudged t ∧ t.dist = s.dist ∧
    ((∀ w : Fin 48, t.warn.warnings[w].state = s.warn.warnings[w].state) →
      t.faults.overflow = s.faults.overflow ∧
      (∀ j : Fin 40, t.faults.places[j] = placeAged (agingLimit s.image) s.faults.places[j]) ∧
      (∀ j : Fin 40, t.faults.places[j] ≠ s.faults.places[j] → Object.place j ∈ t.store.queue) ∧
      (recordCount t ≠ recordCount s → Object.header ∈ t.store.queue) ∧
      ((∃ (j : Fin 40) (r : FaultRecord), s.faults.places[j] = .stored r ∧ r.active = false) →
        noticeSet t .faultMemoryChanged = true)) := by
  have changed : ignitionOn s ≠ ignitionOn t := by rw [off, on]; simp
  have turned := h.turned role zero changed
  rw [on] at turned
  have own : oneLine ratios n s = doorIgnition (ageRecords (setNotice .ignition (linesSampled ratios s))) := turned
  refine ⟨h.notice (turned ▸ ignitionChange_notice true _), h.permitJudged source role zero changed, ?_,
    fun settled => ?_⟩
  · rw [h.dist, own]
    simp [h.base.dist]
  · have warn : (oneLine ratios n s).warn = s.warn := by
      rw [own]
      simp [h.base.warn]
    obtain ⟨-, faults, store⟩ := h.settles warn settled
    have faultsAged : t.faults = (ageRecords (setNotice .ignition (linesSampled ratios s))).faults := by
      rw [faults, own]
      simp
    have storeAged : t.store = (ageRecords (setNotice .ignition (linesSampled ratios s))).store := by
      rw [store, own]
      simp
    obtain ⟨ages, header⟩ := ageRecords_ages (setNotice .ignition (linesSampled ratios s))
    have base : (setNotice .ignition (linesSampled ratios s)).faults = s.faults := h.base.faults
    have image : (setNotice .ignition (linesSampled ratios s)).image = s.image := h.base.image
    have places : ∀ j : Fin 40, t.faults.places[j] = placeAged (agingLimit s.image) s.faults.places[j] := fun j => by
      rw [faultsAged, ages.places, if_pos (List.mem_finRange j), base, image]
    refine ⟨?_, places, fun j differs => ?_, fun differs => ?_, ?_⟩
    · rw [faultsAged, ages.overflow, base]
    · rw [storeAged]
      refine ages.place j (List.mem_finRange j) ?_
      rw [base]
      by_contra kept
      exact differs ((places j).trans (placeAged_kept kept))
    · rw [storeAged]
      refine header fun same => differs ?_
      rw [recordCount_eq, recordCount_eq, base] at same
      rw [recordCount_eq, recordCount_eq, faultsAged, same]
    · rintro ⟨j, r, held, passive⟩
      have seen := ages.seen j (List.mem_finRange j) ⟨r, base ▸ held, passive⟩
      rw [base, ← faultsAged] at seen
      refine h.recorded ?_
      rw [← h.ended.2.2.1]
      exact seen.ne

theorem OneLine.turnedOff (h : OneLine ratios n s t) (source : sourceValid t.pulse = sourceValid s.pulse)
    (role : (lineEntry s.image n).role = .ignition) (zero : n = 0) (on : ignitionOn s = true)
    (off : ignitionOn t = false) :
    noticeSet t .ignition = true ∧ t.door.dpermit = false ∧ t.dist = { s.dist with ticks := 0 } ∧
    Object.ring ∈ t.store.queue ∧ Object.tripA ∈ t.store.queue ∧ Object.tripB ∈ t.store.queue ∧
    (∀ c : Fin 6, t.analog.channels[c].quick = 0) ∧ t.out.test = none ∧
    (s.out.test ≠ none → t.out.lastResult = .aborted .ignitionOff) := by
  have changed : ignitionOn s ≠ ignitionOn t := by rw [off, on]; simp
  have turned := h.turned role zero changed
  rw [off] at turned
  obtain ⟨dist, queue, ends, quick, result⟩ := ignitionOff_kept (linesSampled ratios s)
  rw [← turned] at dist queue ends quick result
  have jobs : ∀ o ∈ (oneLine ratios n s).store.queue, o ∈ t.store.queue := by
    rw [h.apart.store]
    exact (finish_jobs _ _).1
  obtain ⟨test, -, kept⟩ := (finish_outputs (linesSampled ratios s) (oneLine ratios n s)).idle ends
  refine ⟨h.notice (turned ▸ ignitionChange_notice false _), ?_, ?_, jobs _ ?_, jobs _ ?_, jobs _ ?_, fun c => ?_, ?_,
    fun run => ?_⟩
  · rw [h.permitJudged source role zero changed]
    exact Bool.eq_false_iff.mpr fun permit => by
      have judged := ((permitJudged_iff t).mp permit).1
      rw [off] at judged
      cases judged
  · rw [h.dist, dist, h.base.dist]
  · rw [queue]
    exact mem_addJob.mpr (.inl (mem_addJob.mpr (.inl (mem_addJob.mpr (.inr rfl)))))
  · rw [queue]
    exact mem_addJob.mpr (.inl (mem_addJob.mpr (.inr rfl)))
  · rw [queue]
    exact mem_addJob.mpr (.inr rfl)
  · have analog : (finish (linesSampled ratios s) (oneLine ratios n s)).analog = (oneLine ratios n s).analog := by
      simp [finish]
    rw [h.apart.quick, analog, quick]
  · rw [h.apart.out, test]
  · rw [h.apart.out, kept]
    exact result (by rwa [h.base.out])

end Roles

end Sys2Proof.Proofs

/-! A change of one line at a sense sample, role by role. -/

namespace Sys2Proof.Proofs

open Sys2Proof Sys2Proof.Machine Sys2Proof.Safety

section Table

variable {r : State} {now : Nat} {a b : WarningUnit} {w : Fin 48}

/-- The condition of a warning is as its state has it already. -/
def conditionAgrees (r : State) (u : WarningUnit) (w : Fin 48) : Prop :=
  (warningDef r.image w).enabled = true → (conditionIn r w u.warnings[w].truth = true ↔
    u.warnings[w].state = .pending ∨ u.warnings[w].state = .activeUnack ∨ u.warnings[w].state = .activeAck)

/-- A warning whose condition agrees with its state keeps it (R95). -/
theorem judged_keeps (judged : warningsJudged r now a b) (so : conditionAgrees r a w) :
    b.warnings[w].state = a.warnings[w].state := by
  have own := judged.1 w
  dsimp only at own
  by_cases enabled : (warningDef r.image w).enabled = false
  · rw [if_pos enabled] at own
    rw [own]
  · have agrees := so (by simpa using enabled)
    rw [if_neg enabled] at own
    revert own agrees
    cases a.warnings[w].state <;> cases conditionIn r w a.warnings[w].truth <;> intro own agrees <;>
      simp at agrees <;> dsimp only at own <;> rw [own]

/-- A warning off the list without an onset stays off it. -/
theorem judged_unlisted (judged : warningsJudged r now a b) (distinct : a.list.Nodup) (out : w ∉ a.list)
    (so : (warningDef r.image w).enabled = true → conditionIn r w a.warnings[w].truth = false) : w ∉ b.list := by
  obtain ⟨-, -, -, list⟩ := judged
  rw [(list distinct).1 w]
  rintro (onset | ⟨mem, -⟩)
  · simp only [onsetIn, Bool.and_eq_true] at onset
    obtain ⟨⟨enabled, cond⟩, -⟩ := onset
    rw [so enabled] at cond
    cases cond
  · exact out mem

end Table

section Roles

variable {s t : State} {ratios : Vector Sample 32} {n : Fin 32}

/-! ## What the roles leave -/

theorem deliverChange_warn {role : Role} {old new : LineState} (x : State)
    (quiet : role ≠ .ackButton ∨ ¬ (old = .inactive ∧ new = .active)) :
    (deliverChange role old new x).warn = x.warn := by
  cases role
  case ackButton =>
    rw [deliverChange, if_neg (quiet.resolve_left fun h => h rfl)]
  case unused => rfl
  case general => rfl
  all_goals
    simp only [deliverChange]
    (try split) <;> simp

theorem deliverChange_quiet {role : Role} {old new : LineState} (x : State)
    (quiet : role ≠ .ackButton ∨ ¬ (old = .inactive ∧ new = .active)) (ignition : role ≠ .ignition)
    (stop : role ≠ .stopRequest) : (deliverChange role old new x).out.arbiter = x.out.arbiter ∧
    (deliverChange role old new x).faults = x.faults := by
  cases role
  case ackButton =>
    rw [deliverChange, if_neg (quiet.resolve_left fun h => h rfl)]
    exact ⟨rfl, rfl⟩
  case ignition => exact absurd rfl ignition
  case stopRequest => exact absurd rfl stop
  case unused => exact ⟨rfl, rfl⟩
  case general => exact ⟨rfl, rfl⟩
  all_goals
    simp only [deliverChange]
    simp

theorem OneLine.warnKept (h : OneLine ratios n s t) (quiet : (lineEntry s.image n).role ≠ .ackButton ∨
    ¬ (s.sense.lines[n].debounced = .inactive ∧ t.sense.lines[n].debounced = .active)) :
    (oneLine ratios n s).warn = s.warn := by
  rw [← h.new] at quiet
  rw [oneLine, deliverChange_warn _ quiet, h.base.warn]

/-! ## The stop button (R82) -/

theorem OneLine.stop (h : OneLine ratios n s t) (role : (lineEntry s.image n).role = .stopRequest) :
    let pressed := s.sense.lines[n].debounced = .inactive ∧ t.sense.lines[n].debounced = .active
    let settled := ∀ w : Fin 48, t.warn.warnings[w].state = s.warn.warnings[w].state
    let sets := pressed ∧ (s.door.cycle = .driving ∨ s.door.cycle = .arrived) ∧ s.door.latch = false
    (sets → t.door = { s.door with latch := true } ∧ noticeSet t .doorsChanged = true ∧
      (settled → t.out.arbiter =
        if s.out.arbiter.repeatTimer = none ∧ s.out.arbiter.current = none then
          { s.out.arbiter with
            level := true
            current := some { cls := .info, position := 0
                              timer := { left := 20, since := t.time.now } } }
        else { s.out.arbiter with pending := some (s.out.arbiter.pending.getD .info) })) ∧
    (¬ sets → t.door = s.door ∧ (settled → t.out.arbiter = s.out.arbiter)) := by
  dsimp only
  have warn := h.warnKept (.inl (by rw [role]; simp))
  have own : oneLine ratios n s = if s.sense.lines[n].debounced = .inactive ∧ t.sense.lines[n].debounced = .active then
      pressStop (linesSampled ratios s) else linesSampled ratios s := by
    rw [oneLine, role, h.new]
    rfl
  refine ⟨fun ⟨pressed, may⟩ => ?_, fun stays => ?_⟩
  · rw [if_pos pressed, pressStop_sets (by rwa [h.base.door])] at own
    have door : t.door = { s.door with latch := true } := by
      rw [h.door, own, ← h.base.door]
      rfl
    refine ⟨door, ?_, fun settled => ?_⟩
    · rw [h.apart.noticeSet_eq]
      refine finish_doors fun same => ?_
      have latch := doorFields_latch same
      rw [← h.apart.door, door, h.base.door, may.2] at latch
      cases latch
    · rw [(h.settles warn settled).1, own, h.time, ← h.base.out]
      exact request_info _ _
  · have idle : oneLine ratios n s = linesSampled ratios s := by
      rw [own]
      split
      next pressed => exact pressStop_idle (by rw [h.base.door]; exact fun may => stays ⟨pressed, may⟩)
      · rfl
    refine ⟨by rw [h.door, idle, h.base.door], fun settled => ?_⟩
    rw [(h.settles warn settled).1, idle, h.base.out]

/-! ## The acknowledge button (R103) -/

theorem OneLine.pressed (h : OneLine ratios n s t) (role : (lineEntry s.image n).role = .ackButton)
    (pressed : s.sense.lines[n].debounced = .inactive ∧ t.sense.lines[n].debounced = .active) :
    oneLine ratios n s = pressAck (linesSampled ratios s) := by
  rw [← h.new] at pressed
  rw [oneLine, role]
  exact if_pos pressed

theorem OneLine.ackDoor (h : OneLine ratios n s t) (role : (lineEntry s.image n).role = .ackButton) :
    t.door = s.door := by
  rw [h.door, ← h.base.door, oneLine, role, deliverChange]
  split <;> simp

theorem OneLine.ackWarn (h : OneLine ratios n s t) (role : (lineEntry s.image n).role = .ackButton)
    (pressed : s.sense.lines[n].debounced = .inactive ∧ t.sense.lines[n].debounced = .active) :
    (∀ (w : Fin 48) (a b : List (Fin 48)), s.warn.list = a ++ w :: b → ackWaits s w → (∀ v ∈ a, ¬ ackWaits s v) →
      (oneLine ratios n s).warn = acknowledged w s.warn) ∧
    ((∀ v ∈ s.warn.list, ¬ ackWaits s v) → (oneLine ratios n s).warn = s.warn) := by
  have waits : ∀ v, ackWaits (linesSampled ratios s) v ↔ ackWaits s v := fun v => by
    rw [ackWaits, ackWaits, h.base.warn]
  rw [h.pressed role pressed]
  refine ⟨fun w a b list first before => ?_, fun none => ?_⟩
  · rw [pressAck_first (w := w) (a := a) (b := b) (by rw [h.base.warn]; exact list) ((waits w).mpr first)
      fun v mem => (waits v).not.mpr (before v mem), acknowledge_warn, h.base.warn]
  · rw [pressAck_none fun v mem => (waits v).not.mpr (none v (by rwa [← h.base.warn])), h.base.warn]

theorem acknowledged_other {u : WarningUnit} {w v : Fin 48} (apart : v ≠ w) :
    (acknowledged w u).warnings[v] = u.warnings[v] := by
  have values : w.val ≠ v.val := fun e => apart (Fin.ext e.symm)
  unfold acknowledged
  dsimp only
  cases u.warnings[w].state <;> simp [values]

theorem acknowledged_unack {u : WarningUnit} {w : Fin 48} (was : u.warnings[w].state = .activeUnack) :
    (acknowledged w u).warnings[w] = { u.warnings[w] with state := .activeAck } := by
  unfold acknowledged
  dsimp only
  rw [was]
  simp

theorem acknowledged_latched {u : WarningUnit} {w : Fin 48} (was : u.warnings[w].state = .latched) :
    (acknowledged w u).warnings[w] = returned u.warnings[w] ∧ (acknowledged w u).list = u.list.erase w := by
  unfold acknowledged
  dsimp only
  rw [was]
  simp

/-- What a press gives each warning whose condition is as judged. -/
theorem acknowledged_judged {now : Nat} {w : Fin 48} {u v : WarningUnit} {r : State}
    (judged : warningsJudged r now (acknowledged w u) v) :
    (u.warnings[w].state = .activeUnack → conditionAgrees r u w → v.warnings[w].state = .activeAck) ∧
    (u.warnings[w].state = .latched → conditionAgrees r u w →
      v.warnings[w].state = .inactive ∧ (u.list.Nodup → w ∉ v.list)) ∧
    (∀ k, k ≠ w → conditionAgrees r u k → v.warnings[k].state = u.warnings[k].state) := by
  refine ⟨fun was agrees => ?_, fun was agrees => ?_, fun k apart agrees => ?_⟩
  · have own := acknowledged_unack was
    rw [conditionAgrees, was] at agrees
    have keeps := judged_keeps (w := w) judged
    rw [conditionAgrees, own] at keeps
    exact keeps fun enabled => by simpa using agrees enabled
  · obtain ⟨own, list⟩ := acknowledged_latched was
    rw [conditionAgrees, was] at agrees
    have no : (warningDef r.image w).enabled = true → conditionIn r w u.warnings[w].truth = false := fun enabled => by
      simpa using agrees enabled
    have keeps := judged_keeps (w := w) judged
    rw [conditionAgrees, own] at keeps
    refine ⟨keeps fun enabled => by simpa [returned] using no enabled, fun distinct => ?_⟩
    refine judged_unlisted judged (by rw [list]; exact distinct.erase w) (by rw [list]; exact distinct.not_mem_erase) ?_
    rw [own]
    exact no
  · have keeps := judged_keeps (w := k) judged
    rw [conditionAgrees, acknowledged_other apart] at keeps
    exact keeps agrees

/-! ## The parking brake (R85, R119) -/

theorem OneLine.brakePermit (h : OneLine ratios n s t) (source : sourceValid t.pulse = sourceValid s.pulse)
    (role : (lineEntry s.image n).role = .parkingBrake) : t.door.dpermit = Machine.permitJudged t := by
  obtain ⟨stays, moves⟩ := brake_sampled h source role
  by_cases same : t.pulse.motion = s.pulse.motion
  · exact congrArg DoorMonitor.dpermit (stays same)
  · exact (moves same).2

theorem setMotion_out {m : Motion} {x : State} (stays : ¬ (x.pulse.motion = .standstill ∧ m ≠ .standstill)) :
    (setMotion m x).out = x.out := by
  by_cases same : x.pulse.motion = m
  · rw [setMotion_same same]
  · have other : x.pulse.motion ≠ .standstill := fun still => stays ⟨still, fun e => same (still.trans e.symm)⟩
    rw [setMotion_change same, handMotion, if_neg other, doorMotion_marked]
    simp [motionMarked, motionSet, setPulse]

theorem brakeChange_eq (x : State) :
    brakeChange .active x = abortTest .parkingBrake (judgePermit (brakeProxy x)) := rfl

/-- A line of PARKING_BRAKE that leaves ACTIVE ends a test, a motion change before it (R27, R31, R119). -/
theorem brakeChange_result {x : State} (run : x.out.test ≠ none) :
    (brakeChange .active x).out.test = none ∧ (brakeChange .active x).out.lastResult =
      if sourceValid x.pulse = false ∧ x.pulse.motion = .standstill ∧
        (brakeChange .active x).pulse.motion ≠ .standstill then .aborted .motion else .aborted .parkingBrake := by
  have motion : (brakeChange .active x).pulse = (brakeProxy x).pulse := by
    rw [brakeChange_eq]
    simp
  refine ⟨abortTest_test _ _, ?_⟩
  rw [motion, brakeChange_eq]
  have keeps : (brakeProxy x).out = x.out → (abortTest .parkingBrake (judgePermit (brakeProxy x))).out.lastResult =
      .aborted .parkingBrake := fun out => abortTest_result _ (by
    rw [show (judgePermit (brakeProxy x)).out = (brakeProxy x).out from rfl, out]
    exact run)
  unfold brakeProxy at keeps ⊢
  by_cases valid : sourceValid x.pulse = true
  · rw [if_pos valid] at keeps ⊢
    rw [keeps rfl, if_neg (by simp [valid])]
  · rw [if_neg valid] at keeps ⊢
    have invalid : sourceValid x.pulse = false := by simpa using valid
    by_cases leaves : x.pulse.motion = .standstill ∧ proxyMotion x ≠ .standstill
    · have now := setMotion_now (z := x) (m := proxyMotion x) fun e => leaves.2 (e.symm.trans leaves.1)
      obtain ⟨test, result⟩ := setMotion_test leaves.1 leaves.2 run
      rw [if_pos ⟨invalid, leaves.1, by rw [now]; exact leaves.2⟩, abortTest,
        endTest_idle _ (s := judgePermit (setMotion (proxyMotion x) x)) test]
      exact result
    · rw [keeps (setMotion_out leaves), if_neg]
      rintro ⟨-, still, moves⟩
      refine leaves ⟨still, fun proxy => moves ?_⟩
      rw [setMotion_same (still.trans proxy.symm)]
      exact still

theorem OneLine.brakeTest (h : OneLine ratios n s t)
    (role : (lineEntry s.image n).role = .parkingBrake) (was : s.sense.lines[n].debounced = .active) :
    t.out.test = none ∧ (s.out.test ≠ none → t.out.lastResult =
      if sourceValid s.pulse = false ∧ s.pulse.motion = .standstill ∧ t.pulse.motion ≠ .standstill
      then .aborted .motion else .aborted .parkingBrake) := by
  have own : oneLine ratios n s = brakeChange .active (linesSampled ratios s) := by rw [oneLine_brake role, was]
  have ends : (oneLine ratios n s).out.test = none := by
    rw [own]
    exact abortTest_test _ _
  obtain ⟨test, -, kept⟩ := (finish_outputs (linesSampled ratios s) (oneLine ratios n s)).idle ends
  have motion : t.pulse.motion = (oneLine ratios n s).pulse.motion := by
    rw [h.apart.motion]
    simp [finish]
  refine ⟨by rw [h.apart.out, test], fun run => ?_⟩
  obtain ⟨-, result⟩ := brakeChange_result (x := linesSampled ratios s) (by rwa [h.base.out])
  rw [h.base.pulse, ← own] at result
  rw [h.apart.out, kept, motion]
  exact result

/-! ## The repeat and the records (R106, R130) -/

theorem OneLine.returns (h : OneLine ratios n s t) (quiet : (lineEntry s.image n).role ≠ .ackButton ∨
      ¬ (s.sense.lines[n].debounced = .inactive ∧ t.sense.lines[n].debounced = .active))
    (ignition : (lineEntry s.image n).role ≠ .ignition) (stop : (lineEntry s.image n).role ≠ .stopRequest)
    (calm : ∀ w : Fin 48, t.warn.warnings[w].state = .activeUnack → s.warn.warnings[w].state = .activeUnack) :
    returnsHanded s t t.time.now
      (∃ w : Fin 48, s.warn.warnings[w].state.listed = true ∧
        t.warn.warnings[w].state ≠ s.warn.warnings[w].state)
      (fun w => s.warn.warnings[w].state.listed = true ∧ t.warn.warnings[w].state = .inactive) := by
  have warn := h.warnKept quiet
  obtain ⟨twarn, out, faults, store⟩ := h.ended
  have kept := deliverChange_quiet (linesSampled ratios s) (h.new ▸ quiet) ignition stop
  obtain ⟨arbiter, records⟩ : (oneLine ratios n s).out.arbiter = s.out.arbiter ∧
      (oneLine ratios n s).faults = s.faults := ⟨kept.1.trans (by rw [h.base.out]), kept.2.trans h.base.faults⟩
  have image : (oneLine ratios n s).image = s.image := by simp [oneLine, h.base.image]
  have time : (oneLine ratios n s).time = t.time := by
    rw [h.time]
    simp [oneLine]
  obtain ⟨quiets, returns⟩ := judgeAll_calm (x := oneLine ratios n s) fun w => by
    rw [← twarn, warn]
    exact calm w
  rw [← twarn, warn] at quiets returns
  have ended : (judgeAll (oneLine ratios n s)).image = t.image := by
    rw [h.image, ← image]
    simp
  refine returnsHanded_of (b := oneLine ratios n s) (u := judgeAll (oneLine ratios n s)) arbiter ?_ records image
    (time ▸ quiets) (returns.iff fun w => and_comm) (by rw [out]) ?_ faults store h.recorded
  · rw [stopCalls, stopCalls, warn, image]
  · rw [stopCalls, stopCalls, ← twarn, ended]

end Roles

/-- Settles O11: the consumers of the line's role, then the judgement of the warnings. -/
theorem senseSampleReachesRoles : Obligations.SenseSampleReachesRoles := by
  intro s ratios wire inputs
  refine ⟨_, exec_senseSample ratios wire inputs s, fun n one source => ?_⟩
  have event := sensed_oneLine one source
  revert event
  generalize sensed ratios wire inputs (atSense s) = t at source
  intro event
  have condition : ∀ w : Fin 48, conditionAgrees t s.warn w = ((warningDef s.image w).enabled = true →
      ((sourceTruth t (warningDef s.image w).source s.warn.warnings[w].truth &&
        qualifierHolds t (warningDef s.image w).qualifier) = true ↔ s.warn.warnings[w].state = .pending ∨
          s.warn.warnings[w].state = .activeUnack ∨ s.warn.warnings[w].state = .activeAck)) := fun w => by
    rw [conditionAgrees, conditionIn, event.image]
  have judged := event.judged source
  refine ⟨fun role zero => ⟨event.ignitionKept role zero, fun off on => event.turnedOn source role zero off on,
      fun on off => event.turnedOff source role zero on off⟩, event.stop,
    fun role => ⟨event.ackDoor role, fun w a b pressed list waits before => ?_, fun quiet v agrees => ?_⟩,
    fun role => ⟨event.brakePermit source role, event.brakeTest role⟩, fun role => ⟨?_, ?_⟩, fun quiet => ?_,
    fun role pressed => ⟨fun w a b list waits before => ?_, fun none => ?_⟩, event.returns⟩
  · rw [(event.ackWarn role pressed).1 w a b list waits before] at judged
    have table := acknowledged_judged judged
    simp only [condition] at table
    exact table
  · rw [event.warnKept (.inr quiet)] at judged
    refine judged_keeps judged ?_
    rw [condition]
    exact agrees
  · rw [event.door, oneLine, role]
    exact event.base.door
  · rw [event.dist, oneLine, role]
    exact event.base.dist
  · rw [event.warnKept quiet] at judged
    exact judged
  · rw [(event.ackWarn role pressed).1 w a b list waits before] at judged
    exact judged
  · rw [(event.ackWarn role pressed).2 none] at judged
    exact judged

end Sys2Proof.Proofs

/-! The full restart: the odometer that it recovers. -/

namespace Sys2Proof.Proofs

open Sys2Proof Sys2Proof.Machine Sys2Proof.Safety

section Restart

variable {s : State}

/-- The machine as a full restart recovers it, the warnings not yet judged. -/
abbrev freshState (s : State) : State := recovered s.store.array s.pending

/-- What follows the recovery leaves all but the warnings' consequences and the window. -/
theorem restart_judged (s : State) : (restart s).dist = (freshState s).dist ∧
    (restart s).store = (judgeAll (freshState s)).store ∧ (restart s).warn = (judgeAll (freshState s)).warn ∧
    (restart s).out = (judgeAll (freshState s)).out ∧ (restart s).faults = (judgeAll (freshState s)).faults := by
  simp only [restart]
  split <;> simp

theorem restart_notRetained (s : State) : (restart s).store.notRetained = recoveryMarks s.store.array := by
  rw [(restart_judged s).2.1]
  simp [recovered]

/-- The jobs that a full restart asks for are those of records (R131). -/
theorem restart_jobs (s : State) : ∀ o ∈ (restart s).store.queue, o = .header ∨ ∃ i, o = .place i := by
  rw [(restart_judged s).2.1]
  intro o mem
  exact ((recordJobs_steps.judgeAll (freshState s)).2 o mem).resolve_left (by simp [recovered])

theorem ring_marked (a : NvArray) : Object.ring ∈ recoveryMarks a ↔ chosenSlot a.ring = none := by
  simp only [recoveryMarks, List.mem_append]
  cases chosenSlot a.ring <;> simp

theorem chosenSlot_none (ring : Vector (Page RingSlot) 8) :
    chosenSlot ring = none ↔ ∀ i : Fin 8, ringValue ring[i] = none := by
  have greatest := chosenSlot_greatest ring
  cases chosen : chosenSlot ring with
  | none =>
    rw [chosen] at greatest
    exact ⟨fun _ i => greatest i (List.mem_finRange i), fun _ => rfl⟩
  | some c =>
    rw [chosen] at greatest
    refine ⟨fun e => (by cases e), fun none => ?_⟩
    rw [Greatest, none c.1] at greatest
    cases greatest.1

/-- The slot of the greatest value, the highest index among equals, is the chosen one. -/
theorem chosenSlot_some {ring : Vector (Page RingSlot) 8} {i : Fin 8} {v : Nat} (held : ringValue ring[i] = some v)
    (greatest : ∀ (j : Fin 8) (w : Nat), ringValue ring[j] = some w → w < v ∨ (w = v ∧ j ≤ i)) :
    chosenSlot ring = some (i, v) := by
  have best := chosenSlot_greatest ring
  cases chosen : chosenSlot ring with
  | none =>
    rw [(chosenSlot_none ring).mp chosen i] at held
    cases held
  | some c =>
    obtain ⟨j, w⟩ := c
    rw [chosen] at best
    obtain ⟨other, below⟩ := best
    have first := greatest j w other
    have second := below i (List.mem_finRange i) v held
    have values : w = v := by omega
    have places : j = i := Fin.ext (by omega)
    rw [values, places]

/-- The Distance Counter with what a slot gives. -/
def distanceFrom (a : NvArray) (live : Nat) (lost : Bool) (next : Fin 8) : Distance :=
  { recoverDistance a with live := live, lost := lost, retained := live, nextSlot := next }

theorem recovered_dist_some {a : NvArray} (q : List Instr) {i : Fin 8} {v : Nat} (chosen : chosenSlot a.ring = some (i, v)) :
    (recovered a q).dist = { distanceFrom a v false (i + 1) with writeCounts := slotCounts a.ring } := by
  simp only [recovered, distanceFrom, recoverDistance, chosen, Option.isNone]

theorem recovered_dist_none {a : NvArray} (q : List Instr) (chosen : chosenSlot a.ring = none) :
    (recovered a q).dist = { distanceFrom a 0 true 0 with writeCounts := slotCounts a.ring } := by
  simp only [recovered, distanceFrom, recoverDistance, chosen, Option.isNone]

end Restart

/-- Settles O4: the ring's chosen slot is the odometer; no job of the ring is asked for at a full restart. -/
theorem fullRestartRecoversOdometer : Obligations.FullRestartRecoversOdometer := by
  intro s
  have run : exec .fullRestart s = .next (restart s) := rfl
  refine ⟨_, run, fun i v held greatest => ?_, fun none => ?_⟩
  · have chosen := chosenSlot_some held greatest
    have marked : Object.ring ∉ recoveryMarks s.store.array := fun mem => by
      rw [ring_marked, chosen] at mem
      cases mem
    have counts : slotCounts s.store.array.ring = Vector.ofFn fun j => slotCount s.store.array.ring[j] := by
      rw [slotCounts, chosen]
    rw [(restart_judged s).1, restart_notRetained, recovered_dist_some _ chosen, counts]
    exact ⟨rfl, rfl, rfl, rfl, rfl, marked, fun j => by simp [slotCount]⟩
  · have chosen := (chosenSlot_none s.store.array.ring).mpr none
    have unqueued : Object.ring ∉ (restart s).store.queue := fun mem => by
      obtain e | ⟨_, e⟩ := restart_jobs s _ mem <;> cases e
    have counts : slotCounts s.store.array.ring = Vector.replicate 8 0 := by
      rw [slotCounts, chosen]
    rw [(restart_judged s).1, restart_notRetained, recovered_dist_none _ chosen, counts]
    exact ⟨rfl, rfl, rfl, rfl, rfl, (ring_marked _).mpr chosen, unqueued, fun j => by simp⟩

end Sys2Proof.Proofs

/-! The full restart: the values of the blocks, the warnings judged from their first states, the buzzer. -/

namespace Sys2Proof.Proofs

open Sys2Proof Sys2Proof.Machine Sys2Proof.Safety

section Values

variable {s : State}

/-! ## The blocks that the warnings leave (R175) -/

theorem restart_blocks (s : State) : (restart s).time = State.reset.time ∧ (restart s).sense = State.reset.sense ∧
    (restart s).pulse = (freshState s).pulse ∧ (restart s).analog = State.reset.analog ∧
    (restart s).door = State.reset.door ∧ (restart s).image = (freshState s).image ∧
    (restart s).pending = s.pending ∧ (restart s).faults.clear = none ∧
    (restart s).store.array = s.store.array ∧ (restart s).store.job = none := by
  refine ⟨?_, ?_, ?_, ?_, ?_, ?_, ?_, ?_, ?_, ?_⟩ <;> (simp only [restart]; split) <;> simp [recovered, recoverFaults]

theorem restart_port (s : State) : (restart s).win.attention = State.reset.win.attention ∧
    (restart s).win.claims = State.reset.win.claims ∧ (restart s).win.enable = State.reset.win.enable ∧
    (restart s).win.capture = State.reset.win.capture ∧ (restart s).win.faultCount = State.reset.win.faultCount ∧
    (restart s).win.softCause = State.reset.win.softCause ∧ (restart s).win.adoption = State.reset.win.adoption ∧
    (restart s).win.source = (freshState s).win.source := by
  refine ⟨?_, ?_, ?_, ?_, ?_, ?_, ?_, ?_⟩ <;> (simp only [restart]; split) <;> simp [recovered]

theorem freshState_idle (s : State) : (freshState s).out.test = none := rfl

/-- The judgement of the restart delivers nothing. -/
theorem restart_quiet (s : State) : (restart s).win.slots = State.reset.win.slots ∧
    (restart s).win.ops = State.reset.win.ops ∧ (restart s).link = State.reset.link := by
  obtain ⟨-, slots, ops, link⟩ := (judgeAll_reach (freshState s)).quiet (freshState_idle s)
  have ends : (restart s).win.slots = (judgeAll (freshState s)).win.slots ∧
      (restart s).win.ops = (judgeAll (freshState s)).win.ops ∧ (restart s).link = (judgeAll (freshState s)).link := by
    refine ⟨?_, ?_, ?_⟩ <;> (simp only [restart]; split) <;> simp
  rw [ends.1, ends.2.1, ends.2.2, slots, ops, link]
  exact ⟨rfl, rfl, rfl⟩

theorem restart_out (s : State) : (restart s).out.test = none ∧ (restart s).out.lamps = State.reset.out.lamps ∧
    (restart s).out.lastResult = State.reset.out.lastResult ∧
    (restart s).out.supervision = State.reset.out.supervision := by
  obtain ⟨test, lamps, result⟩ := (outJudged_steps.judgeAll (freshState s)).idle (freshState_idle s)
  rw [(restart_judged s).2.2.2.1]
  refine ⟨test, lamps, result, ?_⟩
  simp [recovered]

/-! ## The window's bytes and notices -/

/-- The state before the restart's notices are complete. -/
def restartShown (s : State) : State :=
  publishFaults true (freshState s) (publishWarnings false (freshState s) (judgeAll (freshState s)))

theorem restart_shown (s : State) : restart s =
    if storeFault (restartShown s) = true then setNotice .store (restartShown s) else restartShown s := rfl

theorem restart_low (s : State) {a : Nat} (low : a < 0x1000) : ramRead (restart s) a = 0 := by
  have areas := (judgeAll_reach (freshState s)).ram a fun r mem => by
    simp [slotResultArea, recovered, State.reset] at mem
  have shown : ramRead (restartShown s) a = ramRead (freshState s) a := by
    rw [restartShown, publishFaults_outside _ _ _ (by omega), publishWarnings_outside _ _ _ (by omega), areas]
  have same : ramRead (restart s) a = ramRead (restartShown s) a := by
    rw [restart_shown]
    split <;> rfl
  rw [same, shown]
  rfl

theorem restart_faultNotice (s : State) : noticeSet (restart s) .faultMemoryChanged = true := by
  have shown : noticeSet (restartShown s) .faultMemoryChanged = true := by
    rw [restartShown, publishFaults_notice]
    simp
  rw [restart_shown]
  split
  · rw [noticeSet_setNotice, shown]
    simp
  · exact shown

theorem restart_storeNotice (s : State) :
    noticeSet (restart s) .store = true ↔ (restart s).store.notRetained ≠ [] := by
  have quiet : noticeSet (restartShown s) .store = false := by
    have judged := ((judgeAll_reach (freshState s)).notices .store).2 (by simp)
    have fresh : noticeSet (freshState s) .store = false := by simp [noticeSet, recovered]
    rw [restartShown, publishFaults_notice, publishWarnings_notice, judged, fresh]
    simp
  have marks : storeFault (restartShown s) = true ↔ (restart s).store.notRetained ≠ [] := by
    have store : (restart s).store = (restartShown s).store := by
      rw [restart_shown]
      split <;> rfl
    rw [store, storeFault]
    simp
  rw [← marks, restart_shown]
  split
  next fault =>
    rw [noticeSet_setNotice]
    simp [fault]
  next sound => simp [quiet, sound]

/-! ## The marks (R147) -/

theorem restart_marks (s : State) (o : Object) : o ∈ (restart s).store.notRetained ↔
    match o with
    | .ring => ∀ i : Fin 8, ringValue s.store.array.ring[i] = none
    | .tripA => s.store.array.tripA.good tripCheck = false
    | .tripB => s.store.array.tripB.good tripCheck = false
    | .calibration => s.store.array.calibration.good calibrationCheck = false
    | .configuration => storedImage s.store.array.configuration = none
    | .header => False
    | .place _ => False := by
  rw [restart_notRetained]
  have each : ∀ (b : Bool) (p : Object), o ∈ (if b = true then [] else [p]) ↔ o = p ∧ b = false := fun b p => by
    cases b <;> simp
  have lost : ∀ (b : Bool) (p : Object), o ∈ (if b = true then [p] else []) ↔ o = p ∧ b = true := fun b p => by
    cases b <;> simp
  simp only [recoveryMarks, List.mem_append, each, lost]
  cases o with
  | ring =>
    rw [← chosenSlot_none]
    simp
  | tripA => simp
  | tripB => simp
  | calibration => simp
  | configuration => simp
  | header => simp
  | place i => simp

end Values

end Sys2Proof.Proofs

/-! The full restart: the warnings, the buzzer and the records after the onsets at its end. -/

namespace Sys2Proof.Proofs

open Sys2Proof Sys2Proof.Machine Sys2Proof.Safety

section Warnings

variable {s t x y z : State} {w : Fin 48}

/-! ## The warnings judged from their first states (R94, R95, R97) -/

theorem restart_sources (s : State) : SameSources (restart s) (freshState s) := by
  constructor <;> (simp only [restart]; split) <;> simp

theorem restart_warningsJudged (s : State) : warningsJudged (restart s) 0 (freshState s).warn (restart s).warn := by
  have judged := judgeAll_judges (restart_sources s)
  rw [← (restart_judged s).2.2.1] at judged
  exact judged

theorem freshState_warning (s : State) (w : Fin 48) : (freshState s).warn.warnings[w] = Warning.reset := by
  simp [recovered]

theorem conditionAfter_eq (t : State) (w : Fin 48) : conditionAfter t w =
    ((warningDef t.image w).enabled && conditionIn t w false) := by
  rw [conditionAfter, conditionIn, Bool.and_assoc]

theorem restart_onset (s : State) (w : Fin 48) : onsetIn (restart s) (freshState s).warn w =
    (conditionAfter (restart s) w && decide ((warningDef (restart s).image w).delay = 0)) := by
  simp only [onsetIn, freshState_warning, conditionAfter_eq, Warning.reset]
  simp

theorem restart_onsets (s : State) : onsetsIn (restart s) (freshState s).warn = restartOnsets (restart s) :=
  List.filter_congr fun w _ => restart_onset s w

theorem counterAfter_one {k : Nat} (few : k ≤ 48) : counterAfter 1 k = 1 + k := by
  unfold counterAfter
  split <;> omega

theorem restartOnsets_length (t : State) : (restartOnsets t).length ≤ 48 :=
  (List.length_filter_le _ _).trans_eq (by simp)

theorem restart_warnings (s : State) : warningsRestarted (restart s) := by
  obtain ⟨each, number, handed, -⟩ := restart_warningsJudged s
  rw [restart_onsets] at each number
  refine ⟨fun w => ?_, ?_, restart_list s, fun c => ?_⟩
  · have own := each w
    have first : (freshState s).warn.nextNumber = 1 := rfl
    rw [freshState_warning, first] at own
    dsimp only [Warning.reset] at own
    rw [counterAfter_one
      ((List.length_filter_le _ _).trans (restartOnsets_length (restart s)))] at own
    have cond := conditionAfter_eq (restart s) w
    have truth : conditionIn (restart s) w false = (sourceTruth (restart s) (warningDef (restart s).image w).source false &&
      qualifierHolds (restart s) (warningDef (restart s).image w).qualifier) := rfl
    dsimp only
    cases enabled : (warningDef (restart s).image w).enabled with
    | false =>
      rw [if_pos enabled] at own
      rw [enabled, Bool.false_and] at cond
      rw [own, cond]
      simp
    | true =>
      rw [if_neg (by simp [enabled])] at own
      rw [enabled, Bool.true_and] at cond
      rw [← cond] at own
      cases holds : conditionAfter (restart s) w with
      | false =>
        rw [holds] at own
        rw [own]
        simp
      | true =>
        rw [holds] at own
        dsimp only at own
        by_cases delay : (warningDef (restart s).image w).delay = 0
        · rw [if_pos delay] at own
          rw [own]
          simp [delay]
        · rw [if_neg delay] at own
          rw [own]
          simp [delay]
  · rw [number]
    exact counterAfter_one (restartOnsets_length _)
  · rw [handed]
    simp [recovered]

/-! ## The judgement of a warning in its first state -/

/-- What the judgement of a warning in INACTIVE does: its onset, or nothing beside its own state. -/
theorem judgeWarning_fresh (fresh : y.warn.warnings[w].state = .inactive) :
    (onsetIn y y.warn w = true → ∃ a : Warning, a.state = .inactive ∧
      judgeWarning y w = onset w (setWarning w a y)) ∧
    (onsetIn y y.warn w = false → judgeWarning y w = y ∨ ∃ a : Warning, a.state ≠ .activeUnack ∧
      judgeWarning y w = setWarning w a y) := by
  have cond : onsetIn y y.warn w = ((warningDef y.image w).enabled &&
      condition y (warningDef y.image w) (sourceTruth y (warningDef y.image w).source y.warn.warnings[w].truth) &&
      decide ((warningDef y.image w).delay = 0)) := by
    simp only [onsetIn, conditionIn, condition, fresh]
    simp
  rw [cond]
  unfold judgeWarning moveWarning
  dsimp only
  by_cases enabled : (warningDef y.image w).enabled = true
  case neg =>
    rw [if_neg enabled]
    exact ⟨fun on => absurd on (by simp [enabled]), fun _ => .inl rfl⟩
  rw [if_pos enabled, setWarning_own]
  obtain ⟨a, was⟩ : ∃ a : Warning, a = { y.warn.warnings[w] with
      truth := sourceTruth y (warningDef y.image w).source y.warn.warnings[w].truth } := ⟨_, rfl⟩
  rw [← was]
  have first : a.state = .inactive := by rw [was]; exact fresh
  rw [first]
  dsimp only
  generalize condition y (warningDef y.image w)
    (sourceTruth y (warningDef y.image w).source y.warn.warnings[w].truth) = c
  cases c with
  | false => exact ⟨fun on => absurd on (by simp), fun _ => .inr ⟨a, by rw [first]; simp, by simp⟩⟩
  | true =>
    by_cases now : (warningDef y.image w).delay = 0
    · exact ⟨fun _ => ⟨a, first, by simp [now]⟩, fun off => absurd off (by simp [enabled, now])⟩
    · refine ⟨fun on => absurd on (by simp [now]), fun _ => .inr ⟨{ a with
        state := .pending, timer := some (newTimer y.time.now (100 * (warningDef y.image w).delay)) }, by simp, ?_⟩⟩
      rw [if_pos rfl, if_neg now, setWarning_again]
      rfl

end Warnings

end Sys2Proof.Proofs

/-! The full restart: the buzzer after the onsets at its end (R98, R105 to R107). -/

namespace Sys2Proof.Proofs

open Sys2Proof Sys2Proof.Machine Sys2Proof.Safety

section Buzzer

variable {s x y z : State} {w : Fin 48}

/-! ## What a list of onsets asks of the arbiter -/

/-- The class of burst that a warning asks for (R105). -/
def burstOf (image : Mem) (w : Fin 48) : BurstClass :=
  if (warningDef image w).cls = .caution then .caution else .info

/-- What the onset of a warning with chime makes of the arbiter (R98, R106, R107). -/
def chimed (image : Mem) (now : Nat) (a : Arbiter) (w : Fin 48) : Arbiter :=
  if (warningDef image w).cls = .stop then a.follow now true else a.request now (burstOf image w)

/-- The pending burst after a further request (R107). -/
def raised (p : Option BurstClass) (c : BurstClass) : Option BurstClass :=
  if c = .caution ∨ p = some .caution then some .caution else some .info

/-- The pending burst after some requests: the highest of them (R107). -/
theorem raised_all (l : List BurstClass) (c : BurstClass) :
    l.foldl raised (some c) = if .caution ∈ c :: l then some .caution else some .info := by
  induction l generalizing c with
  | nil => cases c <;> rfl
  | cons d l ih =>
    rw [List.foldl_cons]
    cases c with
    | caution =>
      rw [show raised (some .caution) d = some .caution by simp [raised], ih]
      simp
    | info =>
      rw [show raised (some .info) d = some d by cases d <;> rfl, ih]
      simp

theorem raised_none (l : List BurstClass) : l.foldl raised none =
    if .caution ∈ l then some .caution else l.head?.map fun _ => .info := by
  cases l with
  | nil => rfl
  | cons c l =>
    rw [List.foldl_cons, show raised none c = some c by cases c <;> rfl, raised_all]
    rfl

/-- The burst or the repeat sounds (R106, R107). -/
def sounds (a : Arbiter) : Prop := a.repeatTimer ≠ none ∨ a.current ≠ none

theorem request_sounding {a : Arbiter} (now : Nat) (c : BurstClass) (busy : sounds a) :
    a.request now c = { a with pending := raised a.pending c } := by
  have free : ¬ (a.repeatTimer.isNone = true ∧ a.current.isNone = true) := by
    simpa [sounds, or_iff_not_imp_left] using busy
  unfold Arbiter.request
  rw [if_neg free]
  obtain ⟨level, timer, current, pending⟩ := a
  match pending, c with
  | none, .info => rfl
  | none, .caution => rfl
  | some .info, .info => rfl
  | some .info, .caution => rfl
  | some .caution, .info => rfl
  | some .caution, .caution => rfl

/-- Onsets while the repeat sounds, or bursts while a burst does, reach the pending burst alone. -/
theorem chimed_sounding (image : Mem) (now : Nat) : ∀ (l : List (Fin 48)) (a : Arbiter),
    (a.repeatTimer ≠ none ∨ (a.current ≠ none ∧ ∀ w ∈ l, (warningDef image w).cls ≠ .stop)) →
    l.foldl (chimed image now) a = { a with
      pending := ((l.filter fun w => decide ((warningDef image w).cls ≠ .stop)).map (burstOf image)).foldl raised a.pending }
  | [], a, _ => by simp
  | w :: l, a, busy => by
    by_cases stop : (warningDef image w).cls = .stop
    · have repeats : a.repeatTimer ≠ none := busy.resolve_right fun h => h.2 w List.mem_cons_self stop
      have same : chimed image now a w = a := by
        rw [chimed, if_pos stop, Arbiter.follow, if_pos rfl, if_pos (Option.isSome_iff_ne_none.mpr repeats)]
      rw [List.foldl_cons, same, chimed_sounding image now l a (.inl repeats), List.filter_cons_of_neg (by simp [stop])]
    · have asked : chimed image now a w = { a with pending := raised a.pending (burstOf image w) } := by
        rw [chimed, if_neg stop]
        exact request_sounding now _ (busy.imp id And.left)
      rw [List.foldl_cons, asked, chimed_sounding image now l
        { a with pending := raised a.pending (burstOf image w) } (busy.imp id fun h => ⟨h.1, fun v mem => h.2 v (List.mem_cons_of_mem w mem)⟩), List.filter_cons_of_pos (by simp [stop]), List.map_cons, List.foldl_cons]

/-- The arbiter at a full restart, before the onsets (R108). -/
def silentArbiter : Arbiter := { level := false, repeatTimer := none, current := none, pending := none }

/-- The first of some bursts starts, the others wait (R107). -/
theorem chimed_bursts (image : Mem) (b : Fin 48) (rest : List (Fin 48))
    (bursts : ∀ w ∈ b :: rest, (warningDef image w).cls ≠ .stop) :
    (b :: rest).foldl (chimed image 0) silentArbiter =
      { level := true, repeatTimer := none, pending := (rest.map (burstOf image)).foldl raised none
        current := some { cls := burstOf image b, position := 0, timer := { left := 20, since := 0 } } } := by
  have first : chimed image 0 silentArbiter b = { silentArbiter with
      level := true
      current := some { cls := burstOf image b, position := 0, timer := { left := 20, since := 0 } } } := by
    rw [chimed, if_neg (bursts b List.mem_cons_self)]
    rfl
  have others : ∀ w ∈ rest, (warningDef image w).cls ≠ .stop := fun w mem => bursts w (List.mem_cons_of_mem b mem)
  rw [List.foldl_cons, first, chimed_sounding image 0 rest _ (.inr ⟨by simp, others⟩),
    List.filter_eq_self.mpr fun w mem => by simpa using others w mem]
  rfl

/-- A STOP onset starts the repeat and cuts a burst; the bursts but a cut one wait (R106, R107). -/
theorem chimed_stop (image : Mem) (f : Fin 48) (before after : List (Fin 48))
    (bursts : ∀ w ∈ before, (warningDef image w).cls ≠ .stop) (stop : (warningDef image f).cls = .stop) :
    (before ++ f :: after).foldl (chimed image 0) silentArbiter =
      { level := true, repeatTimer := some { left := 50, since := 0 }, current := none
        pending := ((before.tail ++ after.filter fun w => decide ((warningDef image w).cls ≠ .stop)).map
          (burstOf image)).foldl raised none } := by
  have cut : ∀ p : Option BurstClass, ∀ a : Arbiter, a.repeatTimer = none → a.pending = p →
      chimed image 0 a f = { level := true, repeatTimer := some { left := 50, since := 0 }, current := none, pending := p } :=
    fun p a silent waits => by
      rw [chimed, if_pos stop, Arbiter.follow, if_pos rfl, silent, waits]
      rfl
  rw [List.foldl_append, List.foldl_cons]
  match before, bursts with
  | [], _ =>
    rw [List.foldl_nil, cut none silentArbiter rfl rfl, chimed_sounding image 0 after _ (.inl (by simp))]
    rfl
  | b :: rest, bursts =>
    rw [chimed_bursts image b rest bursts, cut _ _ rfl rfl, chimed_sounding image 0 after _ (.inl (by simp))]
    simp [List.foldl_append]

/-! ## The judgement's onsets -/

/-- The repeat sounds exactly while a warning calls for it (R106). -/
def repeatAgrees (y : State) : Prop := stopCalls y ↔ y.out.arbiter.repeatTimer ≠ none

theorem onset_calls (w : Fin 48) (y : State) : stopCalls (onset w y) ↔
    ((warningDef y.image w).cls = .stop ∧ (warningDef y.image w).chime = true) ∨ stopCalls y := by
  have image : (onset w y).image = y.image := by simp
  have other : ∀ v, w ≠ v → (onset w y).warn.warnings[v] = y.warn.warnings[v] := fun v apart => by
    have values : w.val ≠ v.val := fun e => apart (Fin.ext e)
    rw [onset_warn, enterList_warn]
    simp [putWarning, values]
  simp only [stopCalls, image]
  constructor
  · rintro ⟨v, state, stop, chime⟩
    by_cases own : w = v
    · rw [own]
      exact .inl ⟨stop, chime⟩
    · exact .inr ⟨v, by rwa [← other v own], stop, chime⟩
  · rintro (⟨stop, chime⟩ | ⟨v, state, stop, chime⟩)
    · exact ⟨w, onset_state w y, stop, chime⟩
    · by_cases own : w = v
      · exact ⟨v, own ▸ onset_state w y, stop, chime⟩
      · exact ⟨v, by rwa [other v own], stop, chime⟩

theorem request_repeat (a : Arbiter) (now : Nat) (c : BurstClass) :
    (a.request now c).repeatTimer = a.repeatTimer := by
  unfold Arbiter.request Arbiter.start
  split
  · rfl
  · split
    · rfl
    · split <;> rfl

/-- What an onset makes of an arbiter whose repeat agrees with the warnings. -/
theorem onset_chimed (agrees : repeatAgrees y) (w : Fin 48) : repeatAgrees (onset w y) ∧ (onset w y).out.arbiter =
    if (warningDef y.image w).chime = true then chimed y.image y.time.now y.out.arbiter w else y.out.arbiter := by
  have calls := onset_calls w y
  have demand : stopDemand (enterList w y) = true ↔ stopCalls (onset w y) := by
    rw [stopDemand_iff, stopCalls, stopCalls, onset_warn]
    simp
  have out : (enterList w y).out = y.out := by simp
  have time : (enterList w y).time = y.time := by simp
  have buzz := onset_arbiter w y
  unfold onsetBuzz requestBurst syncRepeat setArbiter at buzz
  unfold repeatAgrees at agrees ⊢
  cases chime : (warningDef y.image w).chime with
  | false =>
    have same : stopCalls (onset w y) ↔ stopCalls y := by simp [calls, chime]
    have kept : (onset w y).out.arbiter = y.out.arbiter := by
      cases cls : (warningDef y.image w).cls with
      | stop =>
        rw [cls] at buzz
        dsimp only at buzz
        rw [buzz, out, Arbiter.follow]
        by_cases repeats : y.out.arbiter.repeatTimer = none
        · rw [if_neg fun d => agrees.mp (same.mp (demand.mp d)) repeats, if_neg (by simp [repeats])]
        · rw [if_pos (demand.mpr (same.mpr (agrees.mpr repeats))), if_pos (Option.isSome_iff_ne_none.mpr repeats)]
      | caution =>
        rw [cls, chime] at buzz
        simpa using buzz
      | info =>
        rw [cls, chime] at buzz
        simpa using buzz
    rw [same, kept]
    exact ⟨agrees, by simp⟩
  | true =>
    rw [if_pos rfl]
    unfold chimed burstOf
    cases cls : (warningDef y.image w).cls with
    | stop =>
      rw [cls] at buzz
      dsimp only at buzz
      have now : stopCalls (onset w y) := calls.mpr (.inl ⟨cls, chime⟩)
      rw [buzz, demand.mpr now, out, time, if_pos rfl]
      refine ⟨⟨fun _ => ?_, fun _ => now⟩, rfl⟩
      unfold Arbiter.follow
      rw [if_pos rfl]
      split
      next h => exact Option.isSome_iff_ne_none.mp h
      next => simp
    | caution =>
      have same : stopCalls (onset w y) ↔ stopCalls y := by simp [calls, cls]
      rw [cls, chime] at buzz
      simp only [if_pos, out, time] at buzz
      rw [same, buzz, request_repeat]
      exact ⟨agrees, by simp⟩
    | info =>
      have same : stopCalls (onset w y) ↔ stopCalls y := by simp [calls, cls]
      rw [cls, chime] at buzz
      simp only [if_pos, out, time] at buzz
      rw [same, buzz, request_repeat]
      exact ⟨agrees, by simp⟩

/-- The state of a warning that is not listed and stays so changes nothing for the repeat. -/
theorem setWarning_agrees {a : Warning} (was : y.warn.warnings[w].state = .inactive) (now : a.state ≠ .activeUnack)
    (agrees : repeatAgrees y) : repeatAgrees (setWarning w a y) :=
  (setWarning_calls (by rw [was]; simp [now])).trans agrees

/-- The arbiter of a judgement whose warnings were all INACTIVE takes the onsets' demands in their order. -/
theorem judgeAll_chimed (fresh : ∀ w : Fin 48, x.warn.warnings[w].state = .inactive) (silent : repeatAgrees x) :
    (judgeAll x).out.arbiter = ((onsetsIn x x.warn).filter fun w => (warningDef x.image w).chime).foldl
      (chimed x.image x.time.now) x.out.arbiter := by
  refine (judgeAll_fold (x := x) (R := fun l y z => repeatAgrees y → repeatAgrees z ∧
      z.out.arbiter = ((l.filter (onsetIn x x.warn)).filter fun w => (warningDef x.image w).chime).foldl
        (chimed x.image x.time.now) y.out.arbiter)
    (fun _ agrees => ⟨agrees, rfl⟩) (fun {w l y z u} first rest agrees => ?_) (fun w y same time own agrees => ?_) silent).2
  · obtain ⟨between, one⟩ := first agrees
    obtain ⟨after, others⟩ := rest between
    refine ⟨after, ?_⟩
    rw [others, one, ← List.foldl_append, ← List.filter_append, ← List.filter_append]
    rfl
  · have first : y.warn.warnings[w].state = .inactive := by rw [own]; exact fresh w
    obtain ⟨begins, stays⟩ := judgeWarning_fresh first
    have on : onsetIn y y.warn w = onsetIn x x.warn w := by
      rw [onsetIn_same same, onsetIn, onsetIn, own]
    rw [on] at begins stays
    cases onset : onsetIn x x.warn w with
    | true =>
      obtain ⟨a, inactive, judged⟩ := begins onset
      have chimes := onset_chimed (setWarning_agrees (w := w) (a := a) first (by simp [inactive]) agrees) w
      rw [← judged] at chimes
      refine ⟨chimes.1, chimes.2.trans ?_⟩
      have image : (setWarning w a y).image = x.image := same.image
      have now : (setWarning w a y).time = x.time := time
      have out : (setWarning w a y).out = y.out := rfl
      rw [image, now, out]
      by_cases chime : (warningDef x.image w).chime = true <;> simp [onset, chime]
    | false =>
      obtain kept | ⟨a, other, set⟩ := stays onset
      · rw [kept]
        exact ⟨agrees, by simp [onset]⟩
      · rw [set]
        exact ⟨setWarning_agrees first other agrees, by simp [onset]⟩

theorem restart_chimed (s : State) : (restart s).out.arbiter =
    ((restartOnsets (restart s)).filter fun w => (warningDef (restart s).image w).chime).foldl
      (chimed (restart s).image 0) silentArbiter := by
  have fresh : ∀ w : Fin 48, (freshState s).warn.warnings[w].state = .inactive := fun w => by
    rw [freshState_warning]
    rfl
  have silent : repeatAgrees (freshState s) := by
    refine iff_of_false ?_ fun repeats => repeats rfl
    rintro ⟨w, active, -⟩
    rw [fresh w] at active
    exact absurd active (by simp)
  have onsets : onsetsIn (freshState s) (freshState s).warn = restartOnsets (restart s) :=
    (List.filter_congr fun w _ => (onsetIn_same (restart_sources s) _ w).symm).trans (restart_onsets s)
  rw [(restart_judged s).2.2.2.1, judgeAll_chimed fresh silent, onsets, (restart_sources s).image]
  rfl

theorem restart_arbiter (s : State) : arbiterRestarted (restart s) := by
  have arbiter := restart_chimed s
  have sorted : ((restartOnsets (restart s)).filter fun w => (warningDef (restart s).image w).chime).Pairwise (· < ·) :=
    ((List.pairwise_lt_finRange 48).sublist List.filter_sublist).sublist List.filter_sublist
  unfold arbiterRestarted
  intro chimes stops bursts burst highest
  have highest_eq : ∀ l, highest l = (l.map burst).foldl raised none := fun l => by
    rw [raised_none, List.head?_map, Option.map_map]
    rfl
  change _ = chimes.foldl _ _ at arbiter
  change chimes.Pairwise _ at sorted
  have noStop : stops = [] → bursts = chimes := fun none => List.filter_eq_self.mpr fun w mem => by
    have other := List.filter_eq_nil_iff.mp none w mem
    simpa using other
  refine ⟨fun no none => ?_, fun b rest no head => ?_, fun f head => ?_⟩
  · rw [arbiter, ← noStop no, none]
    rfl
  · have others : ∀ w ∈ b :: rest, (warningDef (restart s).image w).cls ≠ .stop := fun w mem => by
      rw [← head] at mem
      simpa using List.of_mem_filter mem
    rw [arbiter, ← noStop no, head, chimed_bursts _ b rest others, highest_eq]
    rfl
  · obtain ⟨rest, starts⟩ := List.head?_eq_some_iff.mp head
    obtain ⟨before, after, parts, others, stop, -⟩ := List.filter_eq_cons_iff.mp starts
    have calls : (warningDef (restart s).image f).cls = .stop := by simpa using stop
    have early : ∀ w ∈ before, (warningDef (restart s).image w).cls ≠ .stop := fun w mem => by
      simpa using others w mem
    have split : bursts = before ++ after.filter fun w => decide ((warningDef (restart s).image w).cls ≠ .stop) := by
      change List.filter _ chimes = _
      rw [parts, List.filter_append, List.filter_eq_self.mpr fun w mem => by simpa using early w mem,
        List.filter_cons_of_neg (by simp [calls])]
    rw [arbiter, highest_eq, parts, chimed_stop _ f before after early calls]
    rw [parts, List.pairwise_append] at sorted
    obtain ⟨-, later, across⟩ := sorted
    rw [split]
    cases before with
    | nil =>
      have late : ((after.filter fun w => decide ((warningDef (restart s).image w).cls ≠ .stop)).head?).any
          (fun b => decide (b < f)) = false := by
        cases first : (after.filter fun w => decide ((warningDef (restart s).image w).cls ≠ .stop)).head? with
        | none => rfl
        | some b =>
          have follows : f < b := List.rel_of_pairwise_cons later (List.mem_of_mem_filter (List.mem_of_head? first))
          simpa using follows.le
      simp only [List.nil_append, late, List.tail_nil]
      rfl
    | cons b cut =>
      have first : b < f := across b List.mem_cons_self f List.mem_cons_self
      simp only [List.cons_append, List.head?_cons, Option.any_some, first, decide_true, if_pos, List.tail_cons]
      rfl

end Buzzer

end Sys2Proof.Proofs

/-! The full restart: the records of the onsets at its end (R98, R128, R129, R139). -/

namespace Sys2Proof.Proofs

open Sys2Proof Sys2Proof.Machine Sys2Proof.Safety

section Records

variable {s v x y z : State} {w : Fin 48}

theorem SameRecorded.counted (h : SameRecorded v s) {places : Vector Place 40} {overflow : Nat} {queue : List Object}
    (counted : recordCounted v w places overflow queue) : recordCounted s w places overflow queue := by
  simpa only [recordCounted, h.places, h.overflow, h.queue, h.dist] using counted

/-- The records of `y` in a state that is otherwise `b`. -/
def withRecords (b y : State) : State :=
  { b with
    faults := { b.faults with places := y.faults.places, overflow := y.faults.overflow }
    store := { b.store with queue := y.store.queue } }

/-- The records of an onset are those of its occurrence, none where its warning has record no. -/
theorem onset_occurred {b : State} (same : SameRecorded y (withRecords b y)) (small : y.faults.overflow ≤ 255) :
    occurred [w] (withRecords b y) (withRecords b (onset w y)) := by
  have image : (warningDef (withRecords b y).image w).record = (warningDef y.image w).record := by rw [← same.image]
  refine ⟨(onset w y).faults.places, (onset w y).faults.overflow, (onset w y).store.queue, fun record => ?_,
    fun plain => ?_, rfl⟩
  · rw [image] at record
    obtain ⟨counted, made⟩ := onset_recorded w y record
    exact ⟨same.counted counted, fun new => same.made (made small ((same.unrecorded w).mpr new))⟩
  · rw [image] at plain
    have begun : onsetBegun w y = onsetBuzz (warningDef y.image w) (enterList w y) :=
      if_neg (Bool.eq_false_iff.mp plain)
    have kept : (onset w y).faults = y.faults ∧ (onset w y).store = y.store := by
      rw [onset_eq, begun]
      split <;> simp
    rw [kept.1, kept.2]
    exact ⟨rfl, rfl, rfl⟩

theorem occurred_append : ∀ {k l : List (Fin 48)} {s t u : State}, occurred k s t → occurred l t u →
    occurred (k ++ l) s u
  | [], _, _, _, _, first, rest => first ▸ rest
  | _ :: _, _, _, _, _, ⟨places, overflow, queue, own, plain, later⟩, rest =>
    ⟨places, overflow, queue, own, plain, occurred_append later rest⟩

/-- The records of a judgement whose warnings were all INACTIVE are those of its onsets in their order. -/
theorem judgeAll_occurred {b : State} (fresh : ∀ w : Fin 48, x.warn.warnings[w].state = .inactive)
    (pulse : x.pulse = b.pulse) (dist : x.dist = b.dist) (analog : x.analog = b.analog) (door : x.door = b.door)
    (image : x.image = b.image) (small : x.faults.overflow ≤ 255) :
    occurred (onsetsIn x x.warn) (withRecords b x) (withRecords b (judgeAll x)) := by
  refine (judgeAll_fold (x := x) (R := fun l y z => y.dist = x.dist → y.faults.overflow ≤ 255 →
      (z.dist = x.dist ∧ z.faults.overflow ≤ 255) ∧
      occurred (l.filter (onsetIn x x.warn)) (withRecords b y) (withRecords b z))
    (fun _ dist small => ⟨⟨dist, small⟩, rfl⟩) (fun {w l y z u} first rest dist small => ?_)
    (fun w y same time own distY small => ?_) rfl small).2
  · obtain ⟨⟨distZ, smallZ⟩, one⟩ := first dist small
    obtain ⟨after, others⟩ := rest distZ smallZ
    refine ⟨after, ?_⟩
    have both := occurred_append one others
    rwa [← List.filter_append] at both
  · have first : y.warn.warnings[w].state = .inactive := by rw [own]; exact fresh w
    obtain ⟨begins, stays⟩ := judgeWarning_fresh first
    have on : onsetIn y y.warn w = onsetIn x x.warn w := by
      rw [onsetIn_same same, onsetIn, onsetIn, own]
    rw [on] at begins stays
    refine ⟨⟨by simpa using distY, (judgeWarning_keeps w Keeps.refl).overflow small⟩, ?_⟩
    cases onset : onsetIn x x.warn w with
    | true =>
      obtain ⟨a, -, judged⟩ := begins onset
      have recorded : SameRecorded (setWarning w a y) (withRecords b (setWarning w a y)) :=
        ⟨same.pulse.trans pulse, distY.trans dist, same.analog.trans analog, same.door.trans door, rfl, rfl, rfl,
          same.image.trans image⟩
      have one := onset_occurred (w := w) recorded small
      rw [List.filter_cons_of_pos onset, List.filter_nil, judged]
      exact one
    | false =>
      rw [List.filter_cons_of_neg (by simp [onset]), List.filter_nil]
      obtain kept | ⟨a, -, set⟩ := stays onset
      · rw [kept]
        rfl
      · rw [set]
        rfl

/-! ## The places that recovery takes (R139) -/

theorem yields_iff (a : NvArray) (i j : Fin 40) (r : FaultRecord) : yields a i r j = true ↔
    j ≠ i ∧ ∃ q, pageRecord a.places[j] = some q ∧ q.code = r.code ∧
      (r.lastOdometer < q.lastOdometer ∨ (r.lastOdometer = q.lastOdometer ∧ j < i)) := by
  unfold yields
  cases pageRecord a.places[j] with
  | none => simp
  | some q => simp [and_assoc]

theorem recoverFaults_places (a : NvArray) : placesRecovered a (recoverFaults a).places := by
  unfold placesRecovered
  intro kept i
  have place : (recoverFaults a).places[i] = recoverPlace a i := by simp [recoverFaults]
  rw [place]
  unfold recoverPlace
  constructor
  · intro empty
    have page : pageRecord a.places[i] = none := empty
    rw [page]
  · intro r holds better
    have page : pageRecord a.places[i] = some r := holds
    have yield : (List.finRange 40).any (yields a i r) = true ↔ ∃ j, better j := by
      rw [List.any_eq_true]
      exact ⟨fun ⟨j, _, h⟩ => ⟨j, (yields_iff a i j r).mp h⟩,
        fun ⟨j, h⟩ => ⟨j, List.mem_finRange j, (yields_iff a i j r).mpr h⟩⟩
    rw [page]
    dsimp only
    exact ⟨fun h => if_pos (yield.mpr h), fun h => if_neg fun y => (yield.mp y).elim h⟩

theorem restart_records (s : State) (small : s.store.array.header.content.2 ≤ 255) :
    ∃ places u, placesRecovered s.store.array places ∧
      occurred (restartOnsets (restart s))
        { restart s with
          faults := { (restart s).faults with
            places := places
            overflow := if s.store.array.header.good headerCheck = true then s.store.array.header.content.2 else 0 }
          store := { (restart s).store with queue := [] } } u ∧
      (restart s).faults.places = u.faults.places ∧ (restart s).faults.overflow = u.faults.overflow ∧
      (restart s).store.queue = u.store.queue := by
  obtain ⟨-, -, pulse, analog, door, image, -⟩ := restart_blocks s
  obtain ⟨dist, store, -, -, faults⟩ := restart_judged s
  have fresh : ∀ w : Fin 48, (freshState s).warn.warnings[w].state = .inactive := fun w => by
    rw [freshState_warning]
    rfl
  have bounded : (freshState s).faults.overflow ≤ 255 := by
    change (if s.store.array.header.good headerCheck = true then s.store.array.header.content.2 else 0) ≤ 255
    split <;> omega
  have onsets : onsetsIn (freshState s) (freshState s).warn = restartOnsets (restart s) :=
    (List.filter_congr fun w _ => (onsetIn_same (restart_sources s) _ w).symm).trans (restart_onsets s)
  have all := judgeAll_occurred (b := restart s) fresh pulse.symm dist.symm analog.symm door.symm image.symm bounded
  rw [onsets] at all
  exact ⟨(recoverFaults s.store.array).places, _, recoverFaults_places s.store.array, all,
    by rw [faults]; rfl, by rw [faults]; rfl, by rw [store]; rfl⟩

end Records

/-- Settles O3: the blocks that the restart leaves, and the judgement of the warnings from their first states. -/
theorem fullRestartValues : Obligations.FullRestartValues := by
  intro s
  have run : exec .fullRestart s = .next (restart s) := rfl
  obtain ⟨time, sense, pulse, analog, door, image, pending, clear, array, job⟩ := restart_blocks s
  obtain ⟨attention, claims, enable, capture, count, soft, adoption, source⟩ := restart_port s
  obtain ⟨slots, ops, link⟩ := restart_quiet s
  obtain ⟨test, lamps, result, supervision⟩ := restart_out s
  obtain ⟨dist, -⟩ := restart_judged s
  refine ⟨_, run, by rw [time]; rfl, pending, array, job, ?_, ?_, ?_, ?_, ?_, restart_marks s, ?_, ?_, ?_, ?_, ?_, ?_,
    test, ?_, ?_, ?_, ?_, ?_, ?_, ?_, ?_, ?_, ?_, ?_, ?_, ?_, clear, fun a low => restart_low s low,
    restart_faultNotice s, restart_storeNotice s, ?_, restart_warnings s, restart_arbiter s, restart_records s⟩
  · rw [sense]
    decide
  · rw [pulse]
    exact ⟨rfl, rfl, rfl, rfl, rfl, rfl, rfl, rfl, rfl, rfl, rfl, rfl, rfl, rfl, rfl, rfl⟩
  · rw [pulse]
    exact ⟨rfl, rfl⟩
  · rw [dist]
    rfl
  · rw [dist]
    rfl
  · rw [analog]
    decide
  · rw [analog]
    rfl
  · rw [analog]
    rfl
  · rw [door]
    decide
  · rw [door]
    decide
  · rw [lamps]
    decide
  · rw [result]
    rfl
  · rw [supervision]
    rfl
  · rw [link]
    decide
  · rw [slots, attention]
    decide
  · rw [claims]
    intro k
    cases k <;> rfl
  · rw [ops]
    intro k
    cases k <;> rfl
  · rw [enable]
    rfl
  · rw [capture]
    rfl
  · rw [count]
    rfl
  · rw [soft]
    rfl
  · rw [adoption]
    rfl
  · rw [dist]
    rfl
  · rw [dist]
    rfl
  · rw [image, source]
    change match storedImage s.store.array.configuration with
      | some img => (storedImage s.store.array.configuration).getD defaultImage = img ∧
        (if (storedImage s.store.array.configuration).isSome then ConfigSource.stored else .defaults) = .stored
      | none => (storedImage s.store.array.configuration).getD defaultImage = defaultImage ∧
        (if (storedImage s.store.array.configuration).isSome then ConfigSource.stored else .defaults) = .defaults
    cases storedImage s.store.array.configuration with
    | none => exact ⟨rfl, rfl⟩
    | some img => exact ⟨rfl, rfl⟩

end Sys2Proof.Proofs

/-! The road speed of a gauge cycle as an event: its motion change, the stop cycle, the permit, a test that it ends. -/

namespace Sys2Proof.Proofs

open Sys2Proof Sys2Proof.Machine Sys2Proof.Safety

section Road

variable {b s t u x : State} {m : Motion}

/-! ## What a motion change leaves (R175) -/

theorem closeStop_ignition (f : OpenStop → Nat) (c : BitVec 8) (s : State) :
    noticeSet (closeStop f c s) .ignition = noticeSet s .ignition := by
  unfold closeStop
  split
  · rfl
  · rw [noticeSet_setNotice]
    simp [noticeSet]

theorem cycleStep_ignition (h : cycleStep s = some t) : noticeSet t .ignition = noticeSet s .ignition := by
  have keeps : ∀ x c, noticeSet (setCycle c x) .ignition = noticeSet x .ignition := fun _ _ => rfl
  have ends : ∀ x, noticeSet (outOfService x) .ignition = noticeSet x .ignition := fun _ => rfl
  cases on : ignitionOn s with
  | false =>
    rw [cycleStep_off on] at h
    cases cycle : s.door.cycle <;> rw [cycle] at h <;> simp only [Option.some.injEq, reduceCtorEq] at h <;> subst h <;>
      simp only [ends, closeStop_ignition]
  | true =>
    by_cases standing : s.pulse.motion = .standstill
    · rw [cycleStep_standing on standing] at h
      cases cycle : s.door.cycle <;> rw [cycle] at h <;> dsimp only at h <;> (try split at h) <;>
        simp only [Option.some.injEq, reduceCtorEq] at h <;> subst h <;> simp [noticeSet]
    · rw [cycleStep_moving on standing] at h
      cases cycle : s.door.cycle <;> rw [cycle] at h <;> simp only [Option.some.injEq, reduceCtorEq] at h <;> subst h <;>
        simp only [keeps, closeStop_ignition]

theorem judgeCycle_ignition (s : State) : noticeSet (judgeCycle s) .ignition = noticeSet s .ignition := by
  have steps : ∀ k s, noticeSet (cycleSteps k s) .ignition = noticeSet s .ignition := by
    intro k
    induction k with
    | zero => exact fun _ => rfl
    | succ k ih =>
      intro s
      unfold cycleSteps
      split
      · rfl
      next t h => rw [ih, cycleStep_ignition h]
  exact steps 4 s

theorem setMotion_ignition (m : Motion) (s : State) : noticeSet (setMotion m s) .ignition = noticeSet s .ignition := by
  by_cases same : s.pulse.motion = m
  · rw [setMotion_same same]
  · have judged : noticeSet (judgePermit (judgeCycle (motionMarked m s))) .ignition = noticeSet s .ignition :=
      (judgeCycle_ignition (motionMarked m s)).trans (by simp [noticeSet, motionMarked, motionSet, setPulse])
    rw [setMotion_change same, handMotion, doorMotion_marked]
    split
    · exact (((abortTest_reach .motion _).notices .ignition).2 (by simp)).trans judged
    · exact judged

theorem finish_ignition (b u : State) : noticeSet (finish b u) .ignition = noticeSet u .ignition :=
  (((publishAll_reach false false b (judgeAll u)).notices .ignition).2 (by simp)).trans
    (((judgeAll_reach u).notices .ignition).2 (by simp))

/-! ## The end of a running test (R119) -/

/-- A running test goes on, or has ended with the motion or a STOP warning. -/
def testFollows (s t : State) : Prop :=
  (t.out.test = s.out.test ∧ t.out.lastResult = s.out.lastResult) ∨
  (s.out.test ≠ none ∧ t.out.test = none ∧
    (t.out.lastResult = .aborted .motion ∨ t.out.lastResult = .aborted .stopWarning))

theorem testFollows.same (h : t.out = s.out) : testFollows s t := .inl (by rw [h]; exact ⟨rfl, rfl⟩)

theorem testFollows.trans (h : testFollows s t) (g : testFollows t u) : testFollows s u := by
  obtain ⟨test, result⟩ | ⟨ran, ended, reason⟩ := h
  · obtain ⟨test', result'⟩ | ⟨ran', rest⟩ := g
    · exact .inl ⟨test'.trans test, result'.trans result⟩
    · exact .inr ⟨test ▸ ran', rest⟩
  · obtain ⟨test', result'⟩ | ⟨ran', -⟩ := g
    · exact .inr ⟨ran, test'.trans ended, by rwa [result']⟩
    · exact absurd ended ran'

theorem testFollows.abort {r : AbortReason} (reason : r = .motion ∨ r = .stopWarning) (s : State) :
    testFollows s (abortTest r s) := by
  by_cases ran : s.out.test = none
  · rw [abortTest, endTest_idle _ ran]
    exact .same rfl
  · refine .inr ⟨ran, abortTest_test r s, ?_⟩
    rw [abortTest_result r ran]
    exact reason.imp (congrArg _) (congrArg _)

theorem setMotion_testFollows (m : Motion) (s : State) : testFollows s (setMotion m s) := by
  by_cases leaves : s.pulse.motion = .standstill ∧ m ≠ .standstill
  · by_cases ran : s.out.test = none
    · exact .inl (by
        obtain ⟨test, -⟩ := (setMotion_reach m s).quiet ran
        have change : s.pulse.motion ≠ m := fun e => leaves.2 (e.symm.trans leaves.1)
        have out : (resetQuick (judgePermit (judgeCycle (motionMarked m s)))).out = s.out := by
          simp [motionMarked, motionSet, setPulse]
        rw [setMotion_change change, handMotion, if_pos leaves.1, doorMotion_marked, abortTest,
          endTest_idle _ (by rw [out, ran]), out]
        exact ⟨rfl, rfl⟩)
    · obtain ⟨test, result⟩ := setMotion_test leaves.1 leaves.2 ran
      exact .inr ⟨ran, test, .inl result⟩
  · exact .same (setMotion_out leaves)

theorem testFollows_steps : JudgeSteps testFollows where
  refl _ := .same rfl
  trans := .trans
  set _ _ _ := .same rfl
  onset w s := by
    have begun : testFollows s (onsetBegun w s) := .inl (by simp)
    rw [onset_eq]
    split
    · exact begun.trans (.abort (.inr rfl) _)
    · exact begun
  leave _ _ := .inl (by simp)
  restate _ _ _ := .inl (by simp)

theorem finish_testFollows (b u : State) : testFollows u (finish b u) :=
  (testFollows_steps.judgeAll u).trans (.inl (by simp [finish]))

/-! ## The road speed (R21 to R27) -/

/-- The road speed is a change of the unit and one of the motion state, that of the state now where none is named. -/
theorem evaluateRoad_motion (s : State) : ∃ m p, evaluateRoad s = setMotion m (setPulse p s) ∧
    p.motion = s.pulse.motion ∧ sourceValid p = sourceValid s.pulse := by
  have kept : ((s.pulse.evaluate s.time.now (pulseParams s.image).timeout).1.display
      (pulseParams s.image).shift).motion = s.pulse.motion ∧
      sourceValid ((s.pulse.evaluate s.time.now (pulseParams s.image).timeout).1.display
        (pulseParams s.image).shift) = sourceValid s.pulse := by
    rw [display_kept, evaluate_kept]
    exact ⟨rfl, rfl⟩
  unfold evaluateRoad
  dsimp only
  cases (s.pulse.evaluate s.time.now (pulseParams s.image).timeout).2 with
  | some m => exact ⟨m, _, rfl, kept⟩
  | none => exact ⟨s.pulse.motion, _, (setMotion_same (by exact kept.1)).symm, kept⟩

theorem evaluateRoad_testFollows (s : State) : testFollows s (evaluateRoad s) := by
  obtain ⟨m, p, road, -⟩ := evaluateRoad_motion s
  rw [road]
  exact (testFollows.same (s := s) (t := setPulse p s) rfl).trans (setMotion_testFollows m _)

theorem evaluateRoad_ignition (s : State) : noticeSet (evaluateRoad s) .ignition = noticeSet s .ignition := by
  obtain ⟨m, p, road, -⟩ := evaluateRoad_motion s
  rw [road, setMotion_ignition]
  rfl

/-- With the motion state kept the road speed leaves the doors; with a change the stop cycle and the permit are
judged (R27, R76, R84, R85). -/
theorem evaluateRoad_cycle (b : State) :
    ((evaluateRoad b).pulse.motion = b.pulse.motion → (evaluateRoad b).door = b.door) ∧
    ((evaluateRoad b).pulse.motion ≠ b.pulse.motion → ∃ y, CycleEvent b y (evaluateRoad b) ∧
      y.door = motionMarks b (evaluateRoad b) b.door) := by
  obtain ⟨m, p, road, was, valid⟩ := evaluateRoad_motion b
  have start : (setPulse p b).pulse.motion = b.pulse.motion := was
  rw [road]
  by_cases same : (setPulse p b).pulse.motion = m
  · rw [setMotion_same same]
    exact ⟨fun _ => rfl, fun changed => absurd start changed⟩
  · have now := setMotion_now same
    have changed : m ≠ b.pulse.motion := fun e => same (start.trans e.symm)
    refine ⟨fun stays => absurd (now.symm.trans stays) changed, fun _ => ⟨_, motion_cycleEvent same rfl ?_
      (images_kept ((setPulse_reach p b).trans (setMotion_reach m _)) (by simp [journalArea])), ?_⟩⟩
    · have again : (judgePermit (setMotion m (setPulse p b))).door = (setMotion m (setPulse p b)).door :=
        (judgePermit_again (motionMarked_permit same) (setMotion_door same)).trans (setMotion_door same).symm
      exact ⟨rfl, rfl, rfl, rfl, rfl, again.symm, rfl, id⟩
    · exact (motionMarks_of now changed rfl).symm

end Road

end Sys2Proof.Proofs

/-! A gauge cycle from its start to the gauge image: what its events leave, and what they hand over. -/

namespace Sys2Proof.Proofs

open Sys2Proof Sys2Proof.Machine Sys2Proof.Safety

section Cycle

variable {b s t u x : State}

/-- A gauge cycle before its road speed, the dwell counted. -/
def beforeRoad (s : State) : State := dwellEvent (decide (s.time.lastGauge = 0)) (atGauge s)

/-- The engine speed, the channels, the hand-over and the sweep of a cycle, before the warnings are judged. -/
def handedOver (x : State) : State := countSweep (handOver (judgeAnalog (evaluateEngine x)))

/-- The state after a gauge cycle. -/
def cycled (s : State) : State := publishGauge (finish (afterRoad s) (handedOver (afterRoad s)))

theorem cycled_eq (s : State) : cycled s = publishGauge (gaugeEvent (afterRoad s)) := rfl

theorem exec_cycled (s : State) : exec .gaugeCycle s = .next (cycled s) := rfl

theorem afterRoad_eq (s : State) : afterRoad s = finish (beforeRoad s) (evaluateRoad (beforeRoad s)) := rfl

/-! ## Frames -/

theorem beforeRoad_time (s : State) : (beforeRoad s).time = { s.time with
    now := nextInstant Config.gaugePeriod s.time.lastGauge s.time.now
    lastGauge := nextInstant Config.gaugePeriod s.time.lastGauge s.time.now } := by
  simp [beforeRoad]
  rfl

theorem handedOver_same (x : State) : (handedOver x).time = x.time ∧ (handedOver x).sense = x.sense ∧
    (handedOver x).door = x.door ∧ (handedOver x).image = x.image ∧ (handedOver x).store = x.store ∧
    (handedOver x).faults = x.faults ∧ (handedOver x).win = x.win ∧ (handedOver x).link = x.link ∧
    (handedOver x).pending = x.pending ∧ (handedOver x).out.supervision = x.out.supervision ∧
    (handedOver x).dist = { x.dist with watch := (handedOver x).dist.watch } ∧
    (handedOver x).pulse = (evaluateEngine x).pulse := by
  simp [handedOver, handOver, watchSupply, setDist]

theorem cycled_pulse (s : State) : (cycled s).pulse = (evaluateEngine (afterRoad s)).pulse := by
  have same : (cycled s).pulse = (handedOver (afterRoad s)).pulse := by simp [cycled, finish]
  rw [same, (handedOver_same _).2.2.2.2.2.2.2.2.2.2.2]

/-! ## What the events reach -/

/-- The notices that a gauge cycle's events may set. -/
abbrev cycleNotices : List Notice :=
  [.warningsChanged, .faultMemoryChanged, .outputTest, .slotDone, .doorsChanged, .stopRecorded]

theorem unignited (h : Reach eventAreas allEventNotices s t)
    (kept : noticeSet t .ignition = noticeSet s .ignition) : Reach eventAreas cycleNotices s t := by
  refine ⟨h.ram, fun n => ⟨(h.notices n).1, fun other => ?_⟩, h.op, h.quiet⟩
  by_cases ignition : n = .ignition
  · rw [ignition]
    exact kept
  · exact (h.notices n).2 (by simpa [allEventNotices, ignition] using other)

theorem beforeRoad_reach (s : State) : Reach eventAreas cycleNotices s (beforeRoad s) := by
  have start : Reach eventAreas cycleNotices s (atGauge s) := .plain (by simp)
  have counted : Reach eventAreas cycleNotices (atGauge s) (countDwell (atGauge s)) := .plain (by simp)
  exact (start.trans counted).trans ((publishAll_reach false (decide (s.time.lastGauge = 0)) (atGauge s)
    (countDwell (atGauge s))).mono (by simp) (by simp))

theorem road_reach (x : State) : Reach eventAreas cycleNotices x (finish x (evaluateRoad x)) :=
  unignited ((evaluateRoad_reach x).delivery.trans (finish_reach x _)) ((finish_ignition x _).trans (evaluateRoad_ignition x))

theorem handedOver_reach (x : State) : Reach eventAreas cycleNotices x (handedOver x) := by
  obtain ⟨-, -, -, -, -, -, win, link, -⟩ := handedOver_same x
  refine .counted (by simp [win, link]) fun idle => ?_
  have out : (handOver (judgeAnalog (evaluateEngine x))).out = x.out := by simp [handOver, watchSupply, setDist]
  rw [handedOver, countSweep, out, idle]
  simp [idle]

theorem gauge_reach (x : State) : Reach eventAreas cycleNotices x (finish x (handedOver x)) :=
  (handedOver_reach x).trans (unignited (finish_reach x _) (finish_ignition x _))

theorem events_reach (s : State) :
    Reach eventAreas cycleNotices s (finish (afterRoad s) (handedOver (afterRoad s))) :=
  ((beforeRoad_reach s).trans (road_reach (beforeRoad s))).trans (gauge_reach (afterRoad s))

theorem cycled_reach (s : State) : Reach (gaugeArea :: eventAreas) (.gaugeCycle :: cycleNotices) s (cycled s) := by
  have events := (events_reach s).mono (more := gaugeArea :: eventAreas) (also := .gaugeCycle :: cycleNotices)
    (by simp) (by simp)
  exact (events.trans (rewriteImage_reach 0x1000 64 (by simp [gaugeArea]) (by decide) _ _)).trans
    (setNotice_reach .gaugeCycle (by simp) _)

/-! ## The gauge image (R67, R68) -/

theorem gaugeBytes_congr (time : t.pulse = s.pulse) (out : t.out = s.out) (analog : t.analog = s.analog)
    (dist : t.dist = s.dist) (sense : t.sense = s.sense) (image : t.image = s.image) : gaugeBytes t = gaugeBytes s := by
  cases t
  cases s
  dsimp only at time out analog dist sense image
  subst time out analog dist sense image
  rfl

theorem publishGauge_written (u : State) : imageWritten gaugeArea (gaugeBytes u) u (publishGauge u) := by
  rw [publishGauge, gaugeContent_eq]
  exact imageWritten_congr (by simp [gaugeArea]) (fun _ _ _ => rfl)
    (rewriteImage_written gaugeArea (by simp [gaugeArea]) (gaugeBytes u) u) fun a _ _ => setNotice_ram .gaugeCycle _ a

theorem publishGauge_bytes (u : State) : gaugeBytes (publishGauge u) = gaugeBytes u :=
  gaugeBytes_congr (by simp) (by simp) (by simp) (by simp) (by simp) (by simp)

theorem cycled_written (s : State) : imageWritten gaugeArea (gaugeBytes (cycled s)) s (cycled s) := by
  rw [cycled, publishGauge_bytes]
  refine imageWritten_congr (by simp [gaugeArea])
    (areaSame_of_ramKept (events_reach s).ram fun r mem => ?_) (publishGauge_written _) fun _ _ _ => rfl
  obtain image | slot := List.mem_append.mp mem
  · simp only [eventAreas, senseArea, doorArea, outputArea, listArea, journalArea, faultArea, List.mem_cons,
      List.not_mem_nil, or_false] at image
    left
    simp only [gaugeArea]
    obtain rfl | rfl | rfl | rfl | rfl | rfl := image <;> decide
  · right
    have low := slotResult_low slot
    simp only [gaugeArea]
    omega

/-! ## A running test (R68, R119) -/

theorem handedOver_test (x : State) : (handedOver x).out.lastResult = x.out.lastResult ∧ (handedOver x).out.test =
    x.out.test.map (fun y => if y.startedAt = x.time.now then y else { y with cycles := y.cycles + 1 }) := by
  have out : (handOver (judgeAnalog (evaluateEngine x))).out = x.out := by simp [handOver, watchSupply, setDist]
  have time : (handOver (judgeAnalog (evaluateEngine x))).time = x.time := by simp [handOver, watchSupply, setDist]
  rw [handedOver, countSweep, out, time]
  cases test : x.out.test with
  | none => simp [test]
  | some y =>
    dsimp only
    split
    next started => simp [test, started]
    next early => simp [early, setTest]

theorem beforeRoad_out (s : State) : (beforeRoad s).out = s.out := by simp [beforeRoad]

theorem afterRoad_time (s : State) : (afterRoad s).time = (beforeRoad s).time := by simp [afterRoad_eq]

theorem cycled_out (s : State) : (cycled s).out = (finish (afterRoad s) (handedOver (afterRoad s))).out := by
  simp [cycled]

theorem cycled_test (s : State) :
    let i := nextInstant Config.gaugePeriod s.time.lastGauge s.time.now
    ((cycled s).out.test = none ∨ (cycled s).out.test =
      s.out.test.map (fun x => if x.startedAt = i then x else { x with cycles := x.cycles + 1 })) ∧
    (s.out.test ≠ none → (cycled s).out.test = none →
      (cycled s).out.lastResult = .aborted .motion ∨ (cycled s).out.lastResult = .aborted .stopWarning) := by
  intro i
  have road : testFollows (beforeRoad s) (afterRoad s) :=
    (evaluateRoad_testFollows (beforeRoad s)).trans (finish_testFollows (beforeRoad s) _)
  have ends : testFollows (handedOver (afterRoad s)) (cycled s) := by
    have event := finish_testFollows (afterRoad s) (handedOver (afterRoad s))
    rwa [testFollows, ← cycled_out] at event
  obtain ⟨result, test⟩ := handedOver_test (afterRoad s)
  have now : (afterRoad s).time.now = i := by rw [afterRoad_time, beforeRoad_time]
  rw [now] at test
  unfold testFollows at road ends
  rw [beforeRoad_out] at road
  rw [result, test] at ends
  obtain ⟨same, -⟩ | ⟨-, none, reason⟩ := road
  · rw [same] at ends
    obtain ⟨kept, -⟩ | ⟨-, ended, reason⟩ := ends
    · refine ⟨.inr kept, fun ran ended => absurd (kept.symm.trans ended) ?_⟩
      simpa using ran
    · exact ⟨.inl ended, fun _ _ => reason⟩
  · rw [none] at ends
    obtain ⟨kept, last⟩ | ⟨ran, -⟩ := ends
    · exact ⟨.inl kept, fun _ _ => by rwa [last]⟩
    · exact absurd rfl ran

/-! ## The hand-over (R37, R66) -/

theorem handed_eq (x : State) (c : Fin 8) : handedNow x c =
    if h : c.val < 6 then { value := shownNow x ⟨c.val, h⟩, status := .channel (statusNow x ⟨c.val, h⟩) }
    else if c.val = 6 then { value := x.pulse.displayed, status := .speed x.pulse.status }
    else { value := x.pulse.rpm, status := .none } := by
  unfold handedNow
  split
  · rw [shownValue_eq, shownStatus_eq]
  · rfl

theorem handedNow_congr (pulse : t.pulse = u.pulse) (analog : t.analog = u.analog) : handedNow t = handedNow u := by
  funext c
  simp only [handed_eq, shownNow, statusNow, pulse, analog]

/-- The judged channels, the values handed over, and the gauge truths that they give (R91, R92). -/
theorem handedOver_warn (x : State) : (handedOver x).warn = { x.warn with
    handed := Vector.ofFn fun c => some (handedNow (handedOver x) c)
    warnings := Vector.ofFn fun w : Fin 48 =>
      let d := warningDef x.image w
      let a := x.warn.warnings[w]
      if d.enabled = true then
        { a with truth := gaugeJudged d (Vector.ofFn fun c => some (handedNow (handedOver x) c)) a.truth }
      else a } := by
  have units : ∀ y : State, (countSweep (handOver y)).pulse = y.pulse ∧ (countSweep (handOver y)).analog = y.analog :=
    fun y => by simp [handOver, watchSupply, setDist]
  have now : ∀ y : State, handedNow (countSweep (handOver y)) = handedNow (watchSupply (shownValue y 5) y) := fun y =>
    handedNow_congr (by simp [handOver, watchSupply, setDist]) (by simp [handOver, watchSupply, setDist])
  rw [handedOver, now, (countSweep_frame _).2.2.2.2.2.2.1, handOver, judgeGauges]
  simp [watchSupply, setDist, gaugeTruth_eq]

end Cycle

end Sys2Proof.Proofs

/-! A gauge cycle: the warnings judged twice, the stop cycle, the door image, and what no cycle reaches. -/

namespace Sys2Proof.Proofs

open Sys2Proof Sys2Proof.Machine Sys2Proof.Safety

section Cycle

variable {b s t u x : State}

/-! ## The warnings (R37, R66, R90 to R95) -/

/-- What the sources and the qualifiers read stands alike, the stop cycle aside. -/
structure TruthsSame (r s : State) : Prop where
  sense : r.sense = s.sense
  motion : r.pulse.motion = s.pulse.motion
  running : r.pulse.running = s.pulse.running
  valid : sourceValid r.pulse = sourceValid s.pulse
  doorways : r.door.doorways = s.door.doorways
  kneel : r.door.kneel = s.door.kneel
  ramp : r.door.ramp = s.door.ramp
  fault : ∀ c : Fin 6, r.analog.channels[c].fault = s.analog.channels[c].fault
  supplyLow : r.analog.supplyLow = s.analog.supplyLow
  notRetained : r.store.notRetained = s.store.notRetained
  source : r.win.source = s.win.source
  supervision : r.out.supervision = s.out.supervision
  image : r.image = s.image

theorem TruthsSame.judged (h : TruthsSame t u) {now : Nat} {v v' : WarningUnit} (judged : warningsJudged u now v v') :
    warningsJudged t now v v' := by
  have lines : lineState t = lineState u := funext fun n => by rw [lineState, lineState, h.sense]
  have doors : doorwayOpen t = doorwayOpen u := funext fun n => by rw [doorwayOpen, doorwayOpen, h.doorways, h.image]
  have truth : sourceTruth t = sourceTruth u := by
    funext source kept
    cases source with
    | none => rfl
    | some source =>
      cases source <;> simp only [sourceTruth, lines, doorOpenMoving, anyOpen, doors, doorwayIn, doorEmergency,
        senderFault, wireFault, storeFault, configDefaults, supervisionFallback, h.motion, h.valid, h.doorways, h.kneel,
        h.ramp, h.fault, h.supplyLow, h.notRetained, h.source, h.supervision, h.image]
  have qualifier : qualifierHolds t = qualifierHolds u := by
    funext q
    cases q <;> simp only [qualifierHolds, ignitionOn, lines, h.motion, h.running]
  have condition : conditionIn t = conditionIn u := by
    funext w kept
    rw [conditionIn, conditionIn, truth, qualifier, h.image]
  have onset : onsetIn t = onsetIn u := by
    funext v w
    simp only [onsetIn, h.image, condition]
  have leaves : leavesIn t = leavesIn u := by
    funext v w
    simp only [leavesIn, h.image, condition]
  have onsets : onsetsIn t = onsetsIn u := by
    funext v
    rw [onsetsIn, onsetsIn, onset]
  unfold warningsJudged at judged ⊢
  rw [onsets, onset, leaves, condition, h.image, truth]
  exact judged

theorem afterRoad_motion (s : State) : (afterRoad s).pulse.motion = (evaluateRoad (beforeRoad s)).pulse.motion := by
  simp [afterRoad_eq, finish]

theorem cycled_motion (s : State) : (cycled s).pulse.motion = (afterRoad s).pulse.motion := by
  rw [cycled_eq]
  exact cycle_motion s

/-- What no evaluation of a cycle changes in the Pulse Channel Unit. -/
structure PulseKept (p q : PulseUnit) : Prop where
  lastEdge : q.lastEdge = p.lastEdge
  acc : q.acc = p.acc
  k : q.k = p.k
  calValid : q.calValid = p.calValid
  wireBroken : q.wireBroken = p.wireBroken
  wireRun : q.wireRun = p.wireRun

theorem PulseKept.trans {p q r : PulseUnit} (h : PulseKept p q) (g : PulseKept q r) : PulseKept p r :=
  ⟨g.lastEdge.trans h.lastEdge, g.acc.trans h.acc, g.k.trans h.k, g.calValid.trans h.calValid,
    g.wireBroken.trans h.wireBroken, g.wireRun.trans h.wireRun⟩

theorem PulseKept.valid {p q : PulseUnit} (h : PulseKept p q) : sourceValid q = sourceValid p := by
  rw [sourceValid, sourceValid, h.wireBroken, h.calValid]

theorem evaluated_pulseKept (now timeout shift : Nat) (p : PulseUnit) :
    PulseKept p ((p.evaluate now timeout).1.display shift) := by
  have speed : PulseKept p (p.evaluate now timeout).1 := by
    have kept := evaluate_kept now timeout p
    generalize (p.evaluate now timeout).1 = q at kept ⊢
    rw [kept]
    exact ⟨rfl, rfl, rfl, rfl, rfl, rfl⟩
  generalize (p.evaluate now timeout).1 = q at speed ⊢
  refine speed.trans ?_
  rw [display_kept]
  exact ⟨rfl, rfl, rfl, rfl, rfl, rfl⟩

theorem roadPulse_pulseKept (now : Nat) (c : PulseParams) (p : PulseUnit) : PulseKept p (roadPulse now c p) := by
  refine (evaluated_pulseKept now c.timeout c.shift p).trans ?_
  rw [roadPulse]
  generalize (p.evaluate now c.timeout).1.display c.shift = q
  generalize (p.evaluate now c.timeout).2 = m
  rw [moved_kept]
  exact ⟨rfl, rfl, rfl, rfl, rfl, rfl⟩

theorem enginePulse_pulseKept (now : Nat) (c : PulseParams) (p : PulseUnit) : PulseKept p (enginePulse now c p) := by
  have speed : PulseKept p (p.evaluateEngine now c.p10) := by
    rw [evaluateEngine_kept]
    exact ⟨rfl, rfl, rfl, rfl, rfl, rfl⟩
  rw [enginePulse]
  generalize p.evaluateEngine now c.p10 = q at speed ⊢
  exact speed.trans ⟨rfl, rfl, rfl, rfl, rfl, rfl⟩

theorem afterRoad_roadPulse (s : State) : (afterRoad s).pulse =
    roadPulse (beforeRoad s).time.now (pulseParams (beforeRoad s).image) s.pulse := by
  have before : (beforeRoad s).pulse = s.pulse := by simp [beforeRoad]
  rw [afterRoad_eq, (finish_frame _ _).2.2.1, evaluateRoad_pulse, before]

theorem afterRoad_pulse (s : State) : (afterRoad s).pulse.running = s.pulse.running ∧
    sourceValid (afterRoad s).pulse = sourceValid s.pulse := by
  rw [afterRoad_roadPulse]
  exact ⟨(roadPulse_engine _ _ _).2.2.2.2, (roadPulse_pulseKept _ _ _).valid⟩

theorem afterRoad_truths (s : State) {m : Motion} (motion : m = (afterRoad s).pulse.motion) :
    TruthsSame { s with pulse := { s.pulse with motion := m } } (afterRoad s) := by
  obtain ⟨running, valid⟩ := afterRoad_pulse s
  have fault : ∀ c : Fin 6, s.analog.channels[c].fault = (afterRoad s).analog.channels[c].fault := fun c =>
    (congrArg Channel.fault (afterRoad_channel s c)).symm
  refine ⟨?_, motion, running.symm, valid.symm, ?_, ?_, ?_, fault, ?_, ?_, ?_, ?_, ?_⟩ <;> simp [afterRoad]

theorem afterRoad_warnings (s : State) : warningsJudged (afterRoad s)
    (nextInstant Config.gaugePeriod s.time.lastGauge s.time.now) s.warn (afterRoad s).warn := by
  have judged := finish_judged (beforeRoad s) (evaluateRoad (beforeRoad s))
  have warn : (evaluateRoad (beforeRoad s)).warn = s.warn := by simp [beforeRoad]
  rwa [← afterRoad_eq, afterRoad_time, beforeRoad_time, warn] at judged

/-- The warnings judged at the motion change, against all else as it stood (R27). -/
theorem afterRoad_judged (s : State) : warningsJudged { s with pulse := { s.pulse with motion := (cycled s).pulse.motion } }
    (nextInstant Config.gaugePeriod s.time.lastGauge s.time.now) s.warn (afterRoad s).warn :=
  (afterRoad_truths s (cycled_motion s)).judged (afterRoad_warnings s)

theorem handedOver_now (s : State) : handedNow (handedOver (afterRoad s)) = handedNow (cycled s) :=
  handedNow_congr (by simp [cycled, finish]) (by simp [cycled, finish])

theorem cycled_handed (s : State) :
    (cycled s).warn.handed = Vector.ofFn fun c => some (handedNow (cycled s) c) := by
  have handed : (cycled s).warn.handed = (handedOver (afterRoad s)).warn.handed := by simp [cycled, finish]
  rw [handed, handedOver_warn, handedOver_now]

/-- The warnings judged after the hand-over (R92, R94). -/
theorem cycled_judged (s : State) : warningsJudged (cycled s)
    (nextInstant Config.gaugePeriod s.time.lastGauge s.time.now)
    { (afterRoad s).warn with
      handed := (cycled s).warn.handed
      warnings := Vector.ofFn fun w : Fin 48 =>
        let d := warningDef s.image w
        let a := (afterRoad s).warn.warnings[w]
        if d.enabled = true then { a with truth := gaugeJudged d (cycled s).warn.handed a.truth } else a }
    (cycled s).warn := by
  have judged := finish_judged (afterRoad s) (handedOver (afterRoad s))
  have time : (finish (afterRoad s) (handedOver (afterRoad s))).time.now =
      nextInstant Config.gaugePeriod s.time.lastGauge s.time.now := by
    rw [finish_time, (handedOver_same _).1, afterRoad_time, beforeRoad_time]
  have warn : (cycled s).warn = (finish (afterRoad s) (handedOver (afterRoad s))).warn := by simp [cycled]
  have image : (afterRoad s).image = s.image := by simp [afterRoad]
  rw [time, ← warn, handedOver_warn, handedOver_now, ← cycled_handed, image] at judged
  refine TruthsSame.judged ⟨?_, ?_, ?_, ?_, ?_, ?_, ?_, fun c => ?_, ?_, ?_, ?_, ?_, ?_⟩ judged <;> simp [cycled]

/-! ## The Doorway Monitor (R76, R80, R81, R84 to R87) -/

/-- The Doorway Monitor with the dwell of an open stop counted (R80). -/
def dwellCounted (s : State) (i : Nat) : DoorMonitor :=
  { s.door with
    stop := s.door.stop.map fun o =>
      if o.openedAt = i then o
      else { o with record := { o.record with dwell := min (o.record.dwell + 1) 65535 } } }

theorem beforeRoad_door (s : State) :
    (beforeRoad s).door = dwellCounted s (nextInstant Config.gaugePeriod s.time.lastGauge s.time.now) := by
  have published : (beforeRoad s).door = (countDwell (atGauge s)).door := by simp [beforeRoad, dwellEvent]
  have door : (atGauge s).door = s.door := by simp
  have now : (atGauge s).time.now = nextInstant Config.gaugePeriod s.time.lastGauge s.time.now := rfl
  have unit : ∀ d : DoorMonitor, d.stop = none → d = { d with stop := none } := fun d none => by rw [← none]
  have shut : ∀ (d : DoorMonitor) (o : OpenStop), d.stop = some o → d = { d with stop := some o } :=
    fun d o open_ => by rw [← open_]
  rw [published, countDwell, door, now, dwellCounted]
  cases stop : s.door.stop with
  | none => exact door.trans (unit _ stop)
  | some o =>
    dsimp only
    by_cases opened : o.openedAt = nextInstant Config.gaugePeriod s.time.lastGauge s.time.now
    · rw [if_pos opened, door, Option.map_some, if_pos opened]
      exact shut _ o stop
    · rw [if_neg opened, Option.map_some, if_neg opened]
      rfl

theorem cycled_door (s : State) : (cycled s).door = (evaluateRoad (beforeRoad s)).door := by
  have ends : (cycled s).door = (handedOver (afterRoad s)).door := by simp [cycled, finish]
  rw [ends, (handedOver_same _).2.2.1, afterRoad_eq, finish_door]

theorem publishAll_journal_same (f g : Bool) (h : b.door.journal = u.door.journal) :
    areaSame journalArea u (publishAll f g b u) := by
  intro a low high
  simp only [journalArea] at low high
  unfold publishAll
  rw [publishOutput_outside _ _ (by omega), publishFaults_outside _ _ _ (by omega), publishJournal, if_pos (by simp [h]),
    publishWarnings_outside _ _ _ (by omega), publishDoor_outside _ _ _ (by omega), publishSense_outside _ _ (by omega)]

theorem finish_journalSame (kept : areaSame journalArea b u) (same : u.door.journal = b.door.journal) :
    areaSame journalArea b (finish b u) :=
  (kept.trans (images_kept (judgeAll_reach u) (by simp [journalArea]))).trans
    (publishAll_journal_same false false (by simp [same]))

theorem handedOver_areas {area : Area} (x : State) : areaSame area x (handedOver x) := fun a _ _ => by
  rw [ramRead, ramRead, (handedOver_same x).2.2.2.2.2.2.1]

theorem beforeRoad_journal (s : State) : areaSame journalArea s (beforeRoad s) := by
  have counted : areaSame journalArea s (countDwell (atGauge s)) := fun a _ _ => by simp [ramRead]
  exact counted.trans (publishAll_journal_same false _ (by simp))

theorem cycled_areas {area : Area} (apart : gaugeArea.1 + gaugeArea.2 ≤ area.1) :
    areaSame area (finish (afterRoad s) (handedOver (afterRoad s))) (cycled s) := fun a low high => by
  rw [cycled, publishGauge, setNotice_ram]
  refine ramRead_rewriteImage_outside _ _ _ _ _ (by decide) (.inr ?_)
  simp only [gaugeArea] at apart
  omega

/-- The stop cycle at a gauge cycle, and the permit (R76, R85). -/
theorem cycled_cycle (s : State) :
    let counted := dwellCounted s (nextInstant Config.gaugePeriod s.time.lastGauge s.time.now)
    ((cycled s).pulse.motion = s.pulse.motion → (cycled s).door = counted) ∧
    ((cycled s).pulse.motion ≠ s.pulse.motion →
      cycleFollows s (cycled s) (motionMarks s (cycled s) counted) ∧
      (cycled s).door.dpermit = permitJudged (cycled s)) := by
  intro counted
  have base := beforeRoad_door s
  have motion : (cycled s).pulse.motion = (evaluateRoad (beforeRoad s)).pulse.motion :=
    (cycled_motion s).trans (afterRoad_motion s)
  have was : (beforeRoad s).pulse = s.pulse := by simp [beforeRoad]
  obtain ⟨stays, changes⟩ := evaluateRoad_cycle (beforeRoad s)
  rw [was, ← motion] at stays changes
  refine ⟨fun same => (cycled_door s).trans ((stays same).trans base), fun other => ?_⟩
  obtain ⟨y, event, marks⟩ := changes other
  have sense : (cycled s).sense = (afterRoad s).sense := by simp [cycled, finish, (handedOver_same _).2.1]
  have image : (cycled s).image = (afterRoad s).image := by simp [cycled, finish, (handedOver_same _).2.2.2.1]
  have time : (cycled s).time = (afterRoad s).time := by simp [cycled, finish, (handedOver_same _).1]
  have live : (cycled s).dist.live = (afterRoad s).dist.live := by
    have dist : (cycled s).dist = (handedOver (afterRoad s)).dist := by simp [cycled, finish]
    rw [dist, (handedOver_same _).2.2.2.2.2.2.2.2.2.2.1]
  have door : (cycled s).door = (afterRoad s).door := by rw [cycled_door, afterRoad_eq, finish_door]
  have marked : motionMarks s (cycled s) counted = y.door := by
    rw [marks, motionMarks, motionMarks, was, ← motion, base]
  have follows := event.follows
  rw [← afterRoad_eq] at follows
  obtain ⟨judged, doors, recorded, journal⟩ := follows
  have start : (beforeRoad s).door.cycle = s.door.cycle ∧ (beforeRoad s).door.latch = s.door.latch ∧
      (beforeRoad s).door.journal = s.door.journal ∧ (beforeRoad s).door.dpermit = s.door.dpermit := by
    rw [base]
    exact ⟨rfl, rfl, rfl, rfl⟩
  have stop : s.door.stop ≠ none → (beforeRoad s).door.stop ≠ none := by
    rw [base, dwellCounted]
    simp
  obtain ⟨cycle, latch, journals, permit⟩ := start
  have reach : ∀ n, noticeSet (afterRoad s) n = true → noticeSet (cycled s) n = true := fun n set => by
    have events := ((gauge_reach (afterRoad s)).notices n).1 set
    rw [cycled, publishGauge, noticeSet_setNotice, rewriteImage_notice, events, Bool.true_or]
  rw [marked]
  refine ⟨⟨?_, fun moved => ?_, fun open_ shut => ?_, fun changed => ?_⟩, ?_⟩
  · rw [door, ← permit]
    exact cycleJudged_congr ⟨sense, cycled_motion s, by rw [door], image⟩ (by rw [time]) live judged
  · rw [door, ← cycle, ← latch] at moved
    exact reach _ (doors moved)
  · rw [door] at shut
    exact reach _ (recorded (stop open_) shut)
  · rw [door, ← journals] at changed
    rw [journalBytes_congr door]
    refine imageWritten_congr (by simp [journalArea]) (beforeRoad_journal s) (journal changed) ?_
    refine areaSame.trans ?_ (cycled_areas (by simp [gaugeArea, journalArea]))
    exact finish_journalSame (handedOver_areas _) (by rw [(handedOver_same _).2.2.1])
  · have valid : sourceValid (cycled s).pulse = sourceValid (afterRoad s).pulse := by
      rw [cycled_pulse]
      exact (enginePulse_pulseKept _ _ _).valid
    have same : PermitSame (afterRoad s) (cycled s) := ⟨by rw [door], by rw [door], cycled_motion s, valid, sense, image⟩
    have own : PermitSame (evaluateRoad (beforeRoad s)) (cycled s) := (finish_permit _ _).trans same
    rw [own.dpermit, own.judged]
    exact event.judged

/-! ## The door image of the first cycle (R86) -/

theorem finish_doorShows (kept : areaSame doorArea b u) (shows : imageShows doorArea (doorBytes b) b) :
    imageShows doorArea (doorBytes (finish b u)) (finish b u) := by
  have bytes : doorBytes (finish b u) = doorBytes (judgeAll u) := doorBytes_congr (by simp [finish]) (by simp [finish])
  rw [bytes]
  by_cases same : doorBytes b = doorBytes (judgeAll u)
  · have stays : areaSame doorArea b (finish b u) :=
      (kept.trans (images_kept (judgeAll_reach u) (by simp [doorArea]))).trans
        (publishAll_door_same (b := b) false same (doorBytes_fields same))
    intro k short
    rw [← same, stays _ (by omega) (by simp only [doorArea] at short ⊢; omega)]
    exact shows k short
  · exact (publishAll_door (b := b) (s := judgeAll u) false (.inr same)).2.2

theorem cycled_first (s : State) (first : s.time.lastGauge = 0) :
    noticeSet (cycled s) .doorsChanged = true ∧ imageShows doorArea (doorBytes (cycled s)) (cycled s) := by
  have shown : imageShows doorArea (doorBytes (beforeRoad s)) (beforeRoad s) := by
    have bytes : doorBytes (beforeRoad s) = doorBytes (countDwell (atGauge s)) :=
      doorBytes_congr (by simp [beforeRoad, dwellEvent]) (by simp [beforeRoad])
    rw [bytes]
    exact (publishAll_door (b := atGauge s) (s := countDwell (atGauge s)) false
      (.inl (decide_eq_true first))).2.2
  have set : noticeSet (beforeRoad s) .doorsChanged = true := by
    rw [beforeRoad, dwellEvent, publishAll_notice]
    simp [first]
  have road := finish_doorShows (images_kept (evaluateRoad_reach (beforeRoad s)) (by simp [doorArea])) shown
  rw [← afterRoad_eq] at road
  have gauge := finish_doorShows (b := afterRoad s) (handedOver_areas _) road
  refine ⟨?_, fun k short => ?_⟩
  · have events := (((road_reach (beforeRoad s)).trans (gauge_reach _)).notices .doorsChanged).1 set
    rw [← afterRoad_eq] at events
    rw [cycled, publishGauge, noticeSet_setNotice, rewriteImage_notice, events, Bool.true_or]
  · have bytes : doorBytes (cycled s) = doorBytes (finish (afterRoad s) (handedOver (afterRoad s))) :=
      doorBytes_congr (by simp [cycled]) (by simp [cycled])
    rw [bytes, cycled_areas (s := s) (area := doorArea) (by simp [gaugeArea, doorArea]) _ (by omega)
      (by simp only [doorArea] at short ⊢; omega)]
    exact gauge k short

/-! ## What no cycle reaches -/

theorem beforeRoad_beside (s : State) : besideEvents (beforeRoad s) = besideEvents { s with
    time := { s.time with
      now := nextInstant Config.gaugePeriod s.time.lastGauge s.time.now
      lastGauge := nextInstant Config.gaugePeriod s.time.lastGauge s.time.now } } := by
  have ops : (beforeRoad s).win.ops = s.win.ops := by simp [beforeRoad]
  rw [besideEvents_withoutUnits, besideEvents_withoutUnits]
  refine besideWarnings_eq (beforeRoad_time s) rfl rfl ?_ rfl rfl ?_ ?_ ?_ ?_ ?_ ?_ ?_ ?_ ?_ <;>
    simp [withoutUnits, besideReply, beforeRoad]

theorem evaluateRoad_beside (x : State) : besideEvents (evaluateRoad x) = besideEvents x := by
  have ops := ops_idle (evaluateRoad_reach x)
  rw [besideEvents_withoutUnits, besideEvents_withoutUnits]
  refine besideWarnings_eq ?_ rfl rfl ?_ rfl rfl ?_ ?_ ?_ ?_ ?_ ops ?_ ?_ ?_ <;>
    simp [withoutUnits, besideReply]

theorem handedOver_beside (x : State) : besideEvents (handedOver x) = besideEvents { x with
    warn := { x.warn with handed := (handedOver x).warn.handed } } := by
  obtain ⟨time, -, -, image, store, faults, win, link, pending, supervision, dist, -⟩ := handedOver_same x
  rw [besideEvents_withoutUnits, besideEvents_withoutUnits]
  refine besideWarnings_eq time rfl rfl ?_ rfl rfl rfl supervision (by simp [withoutUnits, faults])
    (by simp [withoutUnits, store]) (by simp [withoutUnits, link]) (by simp [withoutUnits, win])
    (by simp [withoutUnits, win]) image pending
  change { (handedOver x).dist with ticks := 0, watch := .armed } = _
  rw [dist]
  rfl

theorem besideEvents_handed {v : Vector (Option Handed) 8} (h : besideEvents t = besideEvents s) :
    besideEvents { t with warn := { t.warn with handed := v } } =
      besideEvents { s with warn := { s.warn with handed := v } } :=
  congrArg (fun y : State => { y with warn := { y.warn with handed := v } }) h

theorem publishGauge_beside (u : State) : besideEvents (publishGauge u) = besideEvents u := by
  rw [besideEvents_withoutUnits, besideEvents_withoutUnits]
  refine besideWarnings_eq ?_ rfl rfl ?_ rfl rfl ?_ ?_ ?_ ?_ ?_ ?_ ?_ ?_ ?_ <;> simp [withoutUnits, besideReply]

theorem afterRoad_beside (s : State) : besideEvents (afterRoad s) = besideEvents { s with
    time := { s.time with
      now := nextInstant Config.gaugePeriod s.time.lastGauge s.time.now
      lastGauge := nextInstant Config.gaugePeriod s.time.lastGauge s.time.now } } :=
  ((finish_besideEvents _ _).trans (evaluateRoad_beside _)).trans (beforeRoad_beside s)

theorem cycled_beside (s : State) : besideEvents (cycled s) = besideEvents { s with
    time := { s.time with
      now := nextInstant Config.gaugePeriod s.time.lastGauge s.time.now
      lastGauge := nextInstant Config.gaugePeriod s.time.lastGauge s.time.now }
    warn := { s.warn with handed := (cycled s).warn.handed } } := by
  have handed : (cycled s).warn.handed = (handedOver (afterRoad s)).warn.handed := by simp [cycled, finish]
  have event : besideEvents (cycled s) = besideEvents (handedOver (afterRoad s)) :=
    (publishGauge_beside _).trans (finish_besideEvents _ _)
  have given := handedOver_beside (afterRoad s)
  rw [← handed] at given
  have road := afterRoad_beside s
  revert event given
  generalize handedOver (afterRoad s) = x
  generalize (cycled s).warn.handed = v
  intro event given
  exact (event.trans given).trans (besideEvents_handed road)

end Cycle

end Sys2Proof.Proofs

/-! A gauge cycle's image, its hand-over and its events together. -/

namespace Sys2Proof.Proofs

open Sys2Proof Sys2Proof.Machine Sys2Proof.Safety

theorem cycled_pulseKept (s : State) : PulseKept s.pulse (cycled s).pulse := by
  rw [cycled_pulse]
  refine PulseKept.trans ?_ (enginePulse_pulseKept _ _ (afterRoad s).pulse)
  rw [afterRoad_roadPulse]
  exact roadPulse_pulseKept _ _ _

theorem cycled_sense (s : State) : (cycled s).sense = s.sense := by
  simp [cycled, finish, (handedOver_same _).2.1, afterRoad]

theorem cycled_ticks (s : State) : (cycled s).dist.ticks = s.dist.ticks := by
  have dist : (cycled s).dist = (handedOver (afterRoad s)).dist := by simp [cycled, finish]
  rw [dist, (handedOver_same _).2.2.2.2.2.2.2.2.2.2.1]
  simp [afterRoad]

theorem cycled_noticed (s : State) : noticeSet (cycled s) .gaugeCycle = true := by
  rw [cycled, publishGauge, noticeSet_setNotice]
  simp

/-- Settles O18: the gauge image after the events of the cycle, the warnings at the motion change and after the
hand-over. -/
theorem gaugeCycleWritesImage : Obligations.GaugeCycleWritesImage := by
  refine ⟨fun r kept => ⟨fun x => sourceTruth_iff r x kept, qualifierHolds_iff r⟩, fun s => ⟨_, exec_cycled s, ?_⟩⟩
  intro i
  obtain ⟨test, ended⟩ := cycled_test s
  have pulse := cycled_pulseKept s
  have reach := cycled_reach s
  refine ⟨cycled_written s, cycled_noticed s, test, ended, cycled_first s, fun c => ?_,
    ⟨_, afterRoad_judged s, cycled_judged s⟩, cycled_cycle s, cycled_beside s, cycled_sense s, cycled_ticks s, pulse.lastEdge,
    pulse.acc, pulse.k, pulse.calValid, pulse.wireBroken, pulse.wireRun, reach.ram, reach.notices⟩
  rw [cycled_handed, ← handed_eq]
  simp

end Sys2Proof.Proofs

/-! The delivery of a timed operation's result, and that the end of the event keeps it. -/

namespace Sys2Proof.Proofs

open Sys2Proof Sys2Proof.Machine Sys2Proof.Safety

section Delivery

variable {s t u v : State} {k : Operation}

/-! ## What the end of an event keeps of the results delivered -/

/-- Results delivered, and the slots that no test names, stay. -/
structure ResultsKept (s t : State) : Prop where
  done : ∀ n : Fin 8, s.win.slots[n] = .done → t.win.slots[n] = .done
  ready : ∀ tag data, s.link.reply = .ready tag data → t.link.reply = .ready tag data
  ops : t.win.ops = s.win.ops ∨ t.win.ops = { s.win.ops with test := .idle }
  bytes : ∀ n : Fin 8, s.out.test = none ∨ s.win.ops.test ≠ .slot n →
    slotByte t n 3 = slotByte s n 3 ∧ slotByte t n 4 = slotByte s n 4
  still : s.out.test = none → t.out.test = none

theorem ResultsKept.same (win : t.win = s.win) (link : t.link = s.link) (test : t.out.test = s.out.test) :
    ResultsKept s t := by
  refine ⟨fun n h => by rw [win]; exact h, fun _ _ h => by rw [link]; exact h, .inl (by rw [win]), fun n _ => ?_,
    fun h => test.trans h⟩
  simp only [slotByte, ramRead, win, and_self]

theorem ResultsKept.trans (h : ResultsKept s t) (g : ResultsKept t u) : ResultsKept s u := by
  refine ⟨fun n e => g.done n (h.done n e), fun tag d e => g.ready tag d (h.ready tag d e), ?_, fun n free => ?_,
    fun e => g.still (h.still e)⟩
  · obtain e | e := h.ops <;> obtain e' | e' := g.ops <;> rw [e', e] <;> simp
  · have later : t.out.test = none ∨ t.win.ops.test ≠ .slot n := by
      refine free.imp h.still fun other => ?_
      obtain e | e := h.ops <;> rw [e]
      · exact other
      · simp
    obtain ⟨third, fourth⟩ := h.bytes n free
    obtain ⟨third', fourth'⟩ := g.bytes n later
    exact ⟨third'.trans third, fourth'.trans fourth⟩

theorem set_done {slots : Vector SlotState 8} (m n : Fin 8) (h : slots[n] = .done) :
    (slots.set m.val .done m.isLt)[n] = .done := by
  by_cases same : m = n
  · subst same
    simp
  · have values : m.val ≠ n.val := fun e => same (Fin.ext e)
    simpa [values] using h

theorem deliver_workshop (k : Operation) (r : Result) (detail : Byte) (data : List Byte) (s : State) :
    (deliver k .workshop r detail data s).win = s.win := by simp [deliver]

theorem deliver_window (k : Operation) (r : Result) (detail : Byte) (data : List Byte) (s : State) :
    (deliver k .window r detail data s).link = s.link := by simp [deliver]

theorem deliverWindow_slots (k : Operation) (r : Result) (detail : Byte) (s : State) :
    (deliverWindow k r detail s).win.slots = s.win.slots ∨
      ∃ m : Fin 8, (deliverWindow k r detail s).win.slots = s.win.slots.set m.val .done m.isLt := by
  unfold deliverWindow
  split
  next m _ => exact .inr ⟨m, by rw [setWindowOp_slots, finishSlot_slots]⟩
  next => exact .inl rfl

theorem deliver_done (k : Operation) (side : Side) (r : Result) (detail : Byte) (data : List Byte) (n : Fin 8)
    (h : s.win.slots[n] = .done) : (deliver k side r detail data s).win.slots[n] = .done := by
  cases side with
  | workshop =>
    simp only [deliver_workshop]
    exact h
  | window =>
    have slots : (deliver k .window r detail data s).win.slots = (deliverWindow k r detail s).win.slots := rfl
    obtain same | ⟨m, put⟩ := deliverWindow_slots k r detail s
    · simp only [slots, same]
      exact h
    · simp only [slots, put]
      exact set_done m n h

theorem deliver_ready (k : Operation) (side : Side) (r : Result) (detail : Byte) (data : List Byte) {tag : BitVec 7}
    {d : List Byte} (h : s.link.reply = .ready tag d) : (deliver k side r detail data s).link.reply = .ready tag d := by
  cases side with
  | window =>
    rw [deliver_window]
    exact h
  | workshop =>
    simp only [deliver, deliverLink, h]

theorem endTest_results (r : Option AbortReason) (s : State) : ResultsKept s (endTest r s) := by
  cases run : s.out.test with
  | none =>
    rw [endTest_idle r run]
    exact .same rfl rfl rfl
  | some x =>
    refine ⟨fun n h => ?_, fun tag d h => ?_, (endTest_reach r s).op, fun n free => ?_, fun _ => endTest_test r s⟩
    · rw [endTest_eq r run]
      exact deliver_done _ _ _ _ _ n (by rw [testDropped_slots]; exact h)
    · rw [endTest_eq r run]
      exact deliver_ready _ _ _ _ _ (by simpa [testDropped] using h)
    · obtain idle | other := free
      · rw [run] at idle
        cases idle
      · have same := endTest_slotOther r other
        exact ⟨same.result, same.detail⟩

theorem resultsKept_steps : JudgeSteps ResultsKept where
  refl _ := .same rfl rfl rfl
  trans := .trans
  set _ _ _ := .same rfl rfl rfl
  onset w s := by
    have begun : ResultsKept s (onsetBegun w s) := .same (by simp) (by simp) (by simp)
    rw [onset_eq]
    split
    · exact begun.trans (endTest_results _ _)
    · exact begun
  leave w s := .same (by simp) (by simp) (by simp)
  restate w st s := .same (by simp) (by simp) (by simp)

theorem publish_results (b u : State) : ResultsKept u (publish b u) := by
  refine ⟨fun n h => by rw [publish_slots]; exact h, fun _ _ h => by simpa using h, .inl (publish_ops b u),
    fun n _ => ⟨publishAll_slotByte false false b u n (by omega), publishAll_slotByte false false b u n (by omega)⟩,
    fun h => by simpa using h⟩

theorem settle_results (c : Bool) (b u : State) : ResultsKept u (settle c b u) := by
  unfold settle
  split
  · exact (resultsKept_steps.judgeAll u).trans (publish_results b _)
  · exact publish_results b u

/-! ## The delivery itself (R145, R155, R169) -/

theorem get_put (o : WindowOps) (k : Operation) (w : WindowOp) : (o.put k w).get k = w := by
  cases k <;> rfl

theorem get_untested {o p : WindowOps} (h : p = o ∨ p = { o with test := .idle }) (other : k ≠ .test) :
    p.get k = o.get k := by
  obtain rfl | rfl := h
  · rfl
  · cases k
    case test => exact absurd rfl other
    all_goals rfl

theorem deliver_delivered (k : Operation) (side : Side) (r : Result) (ops : v.win.ops = s.win.ops)
    (reply : v.link.reply = s.link.reply) (ram : v.win.ram = s.win.ram) :
    delivered s (deliver k side r 0 [] v) k side k.serviceCode r.code := by
  cases side with
  | window =>
    intro n named
    rw [← ops] at named
    have run : deliver k .window r 0 [] v = setWindowOp k .idle (finishSlot n r 0 v) := by
      simp only [deliver, deliverWindow, named]
    rw [run]
    refine ⟨get_put _ k .idle, ?_, ?_, fun wf _ => ?_⟩
    · rw [setWindowOp_slots, finishSlot_slots]
      simp
    · rw [setWindowOp_notice, finishSlot_notice]
      simp
    · exact finishSlot_bytes n r 0 v (by rwa [ram])
  | workshop =>
    intro tag waiting
    rw [← reply] at waiting
    have run : deliver k .workshop r 0 [] v = setReply (.ready tag ([k.serviceCode, r.code] ++ [])) v := by
      simp only [deliver, deliverLink, waiting, if_true]
    rw [run, setReply_reply]
    rfl

theorem delivered_kept {side : Side} {code result : Byte} (h : delivered s u k side code result) (other : k ≠ .test)
    (test : u.out.test = s.out.test) (op : u.win.ops.test = s.win.ops.test) (kept : ResultsKept u t)
    (notices : ∀ n, noticeSet u n = true → noticeSet t n = true) : delivered s t k side code result := by
  cases side with
  | window =>
    intro n named
    obtain ⟨idle, done, notice, bytes⟩ := h n named
    refine ⟨(get_untested kept.ops other).trans idle, kept.done n done, notices _ notice, fun wf free => ?_⟩
    obtain ⟨third, fourth⟩ := bytes wf free
    obtain ⟨third', fourth'⟩ := kept.bytes n (by rwa [test, op])
    exact ⟨third'.trans third, fourth'.trans fourth⟩
  | workshop => exact fun tag waiting => kept.ready tag _ (h tag waiting)

theorem deliver_otherOp (k : Operation) (side : Side) (r : Result) (detail : Byte) (data : List Byte) (other : k ≠ .test)
    (v : State) : (deliver k side r detail data v).win.ops.test = v.win.ops.test := by
  have put : ∀ o : WindowOps, (o.put k .idle).test = o.test := fun o => by
    cases k
    case test => exact absurd rfl other
    all_goals rfl
  cases side with
  | workshop =>
    rw [deliver_workshop]
  | window =>
    simp only [deliver, deliverWindow]
    split
    · rw [setWindowOp_ops, put, finishSlot_ops]
    · rw [setWindowOp_ops, put]

theorem deliver_otherNotice (k : Operation) (side : Side) (r : Result) (detail : Byte) (data : List Byte) {n : Notice}
    (other : n ≠ .slotDone) (v : State) : noticeSet (deliver k side r detail data v) n = noticeSet v n := by
  cases side with
  | workshop =>
    rw [noticeSet, noticeSet, deliver_workshop]
  | window =>
    simp only [deliver, deliverWindow]
    split
    · rw [setWindowOp_notice, finishSlot_notice]
      simp [other.symm]
    · rw [setWindowOp_notice]

end Delivery

end Sys2Proof.Proofs

/-! The end of a job: what its owner takes, and the marks (R46, R52, R53, R135, R136, R144, R145). -/

namespace Sys2Proof.Proofs

open Sys2Proof Sys2Proof.Machine Sys2Proof.Safety

section Owner

variable {s t u v : State} {j : Job} {ok : Bool}

/-! ## The request that waited on the job -/

/-- The waiter learns the outcome: its job has started. -/
def waits (w : Option Waiter) : Bool := w.any fun x => x.started

theorem finishWaiter_idle (k : Operation) {w : Option Waiter} (idle : waits w = false) (clear : State → State) :
    finishWaiter k w ok clear v = v := by
  cases w with
  | none => rfl
  | some x =>
    have other : x.started = false := idle
    simp [finishWaiter, other]

theorem finishWaiter_started (k : Operation) {x : Waiter} (started : x.started = true) (clear : State → State) :
    finishWaiter k (some x) ok clear v = deliver k x.side (savedResult ok) 0 [] (clear v) := by
  simp [finishWaiter, started]

/-- An end of a waiter changes no block but those that its delivery and its own clearing do. -/
theorem finishWaiter_dist (k : Operation) (w : Option Waiter) (clear : State → State) :
    (finishWaiter k w ok clear v).dist = if waits w = true then (clear v).dist else v.dist := by
  cases w with
  | none => rfl
  | some x =>
    cases started : x.started with
    | false => simp [finishWaiter, waits, started]
    | true => simp [finishWaiter, waits, started]

theorem finishWaiter_adoption (k : Operation) (w : Option Waiter) (clear : State → State) :
    (finishWaiter k w ok clear v).win.adoption =
      if waits w = true then (clear v).win.adoption else v.win.adoption := by
  cases w with
  | none => rfl
  | some x =>
    cases started : x.started with
    | false => simp [finishWaiter, waits, started]
    | true => simp [finishWaiter, waits, started]

theorem finishWaiter_notice (k : Operation) (w : Option Waiter) (clear : State → State) {n : Notice}
    (other : n ≠ .slotDone) (kept : noticeSet (clear v) n = noticeSet v n) :
    noticeSet (finishWaiter k w ok clear v) n = noticeSet v n := by
  cases w with
  | none => rfl
  | some x =>
    cases started : x.started with
    | false => simp [finishWaiter, started]
    | true =>
      rw [finishWaiter_started k started, deliver_otherNotice _ _ _ _ _ other]
      exact kept

/-- The ring's retained value, taken or left (R46). -/
def ringEnd (j : Job) (ok : Bool) (v : State) : State := if ok then retainRing j.content v else v

theorem ringEnd_eq (j : Job) (ok : Bool) (v : State) : ringEnd j ok v = { v with
    dist := { v.dist with retained := (ringEnd j ok v).dist.retained } } := by
  unfold ringEnd retainRing
  split
  · split <;> rfl
  · rfl

/-- The owners, one by one. -/
theorem ownerEnd_eq (j : Job) (ok : Bool) (v : State) : ownerEnd j ok v =
    match j.object with
    | .ring => finishWaiter .preset v.dist.preset ok clearPreset (ringEnd j ok v)
    | .calibration => finishWaiter .kfactor v.dist.kfactor ok clearKFactor v
    | .configuration => finishWaiter .adopt v.win.adoption ok clearAdoption v
    | .tripA => v
    | .tripB => v
    | .header => clearJobEnd .header ok v
    | .place i => clearJobEnd (.place i) ok v := by
  have preset : (ringEnd j ok v).dist.preset = v.dist.preset := by rw [ringEnd_eq]
  unfold ownerEnd
  cases j.object with
  | ring =>
    dsimp only
    rw [← preset]
    rfl
  | tripA => rfl
  | tripB => rfl
  | calibration => rfl
  | configuration => rfl
  | header => rfl
  | place i => rfl

theorem clearJobEnd_dist (o : Object) : (clearJobEnd o ok v).dist = v.dist := by simp

theorem clearJobEnd_adoption (o : Object) : (clearJobEnd o ok v).win.adoption = v.win.adoption := by simp

theorem ownerEnd_preset (j : Job) (ok : Bool) (v : State) : (ownerEnd j ok v).dist.preset =
    if j.object = .ring ∧ waits v.dist.preset = true then none else v.dist.preset := by
  have ring : (ringEnd j ok v).dist.preset = v.dist.preset := by rw [ringEnd_eq]
  rw [ownerEnd_eq]
  cases j.object <;> dsimp only <;> simp only [finishWaiter_dist, clearJobEnd_dist, reduceCtorEq, false_and, if_false,
    true_and]
  case ring =>
    split
    · rfl
    · exact ring
  all_goals (try split) <;> rfl

theorem ownerEnd_kfactor (j : Job) (ok : Bool) (v : State) : (ownerEnd j ok v).dist.kfactor =
    if j.object = .calibration ∧ waits v.dist.kfactor = true then none else v.dist.kfactor := by
  have ring : (ringEnd j ok v).dist.kfactor = v.dist.kfactor := by rw [ringEnd_eq]
  rw [ownerEnd_eq]
  cases j.object <;> dsimp only <;> simp only [finishWaiter_dist, clearJobEnd_dist, reduceCtorEq, false_and, if_false,
    true_and]
  case ring => split <;> exact ring
  all_goals (try split) <;> rfl

theorem ownerEnd_adoption (j : Job) (ok : Bool) (v : State) : (ownerEnd j ok v).win.adoption =
    if j.object = .configuration ∧ waits v.win.adoption = true then none else v.win.adoption := by
  have ring : (ringEnd j ok v).win.adoption = v.win.adoption := by rw [ringEnd_eq]
  rw [ownerEnd_eq]
  cases j.object <;> dsimp only <;> simp only [finishWaiter_adoption, clearJobEnd_adoption, reduceCtorEq, false_and,
    if_false, true_and]
  case ring => split <;> exact ring
  all_goals (try split) <;> rfl

theorem ownerEnd_ringValue (j : Job) (ok : Bool) (v : State) : (ownerEnd j ok v).dist.retained =
    if j.object = .ring then (ringEnd j ok v).dist.retained else v.dist.retained := by
  rw [ownerEnd_eq]
  cases j.object <;> dsimp only <;> simp only [finishWaiter_dist, clearJobEnd_dist, reduceCtorEq, if_false, if_true]
  all_goals (try split) <;> rfl

/-! ## The result that it delivers -/

theorem savedResult_code (ok : Bool) : (savedResult ok).code = if ok = true then 0 else 9 := by cases ok <;> rfl

theorem ownerEnd_delivered_preset {x : Waiter} (object : j.object = .ring) (waiter : v.dist.preset = some x)
    (started : x.started = true) (ops : v.win.ops = s.win.ops) (reply : v.link.reply = s.link.reply)
    (ram : v.win.ram = s.win.ram) : delivered s (ownerEnd j ok v) .preset x.side 17 (if ok = true then 0 else 9) := by
  rw [ownerEnd_eq, object, waiter]
  dsimp only
  rw [finishWaiter_started _ started, ← savedResult_code]
  exact deliver_delivered .preset x.side (savedResult ok) (by rw [clearPreset, ringEnd_eq]; exact ops)
    (by rw [clearPreset, ringEnd_eq]; exact reply) (by rw [clearPreset, ringEnd_eq]; exact ram)

theorem ownerEnd_delivered_kfactor {x : Waiter} (object : j.object = .calibration) (waiter : v.dist.kfactor = some x)
    (started : x.started = true) (ops : v.win.ops = s.win.ops) (reply : v.link.reply = s.link.reply)
    (ram : v.win.ram = s.win.ram) : delivered s (ownerEnd j ok v) .kfactor x.side 18 (if ok = true then 0 else 9) := by
  rw [ownerEnd_eq, object, waiter]
  dsimp only
  rw [finishWaiter_started _ started, ← savedResult_code]
  exact deliver_delivered .kfactor x.side (savedResult ok) ops reply ram

theorem ownerEnd_delivered_adopt {x : Waiter} (object : j.object = .configuration) (waiter : v.win.adoption = some x)
    (started : x.started = true) (ops : v.win.ops = s.win.ops) (reply : v.link.reply = s.link.reply)
    (ram : v.win.ram = s.win.ram) : delivered s (ownerEnd j ok v) .adopt x.side 0 (if ok = true then 0 else 9) := by
  rw [ownerEnd_eq, object, waiter]
  dsimp only
  rw [finishWaiter_started _ started, ← savedResult_code]
  exact deliver_delivered .adopt x.side (savedResult ok) ops reply ram

/-! ## The clear (R135, R136) -/

/-- The wait of a clear on a job that has started. -/
def startedWait (o : Object) : ClearWait := { object := o, started := true }

theorem waitsOn_iff (c : Clear) (o : Object) : c.waitsOn o = true ↔ startedWait o ∈ c.waits := by
  unfold Clear.waitsOn
  rw [List.any_eq_true]
  constructor
  · rintro ⟨⟨o', started⟩, mem, h⟩
    simp only [Bool.and_eq_true, decide_eq_true_eq] at h
    obtain ⟨rfl, rfl⟩ := h
    exact mem
  · exact fun mem => ⟨_, mem, by simp [startedWait]⟩

theorem waits_filter (c : Clear) (o : Object) :
    c.waits.filter (fun w => !(decide (w.object = o) && w.started)) =
      c.waits.filter fun w => decide (w ≠ startedWait o) := by
  refine List.filter_congr fun w _ => ?_
  obtain ⟨o', started⟩ := w
  cases started <;> simp [startedWait]

theorem clearJobEnd_none (o : Object) (idle : v.faults.clear = none) : clearJobEnd o ok v = v := by
  simp only [clearJobEnd, idle]

theorem clearJobEnd_other {c : Clear} (o : Object) (clear : v.faults.clear = some c) (other : startedWait o ∉ c.waits) :
    clearJobEnd o ok v = v := by
  have no : ¬ c.waitsOn o = true := fun h => other ((waitsOn_iff c o).mp h)
  simp only [clearJobEnd, clear, if_neg no]

theorem clearJobEnd_waits {c : Clear} (o : Object) (clear : v.faults.clear = some c) (mine : startedWait o ∈ c.waits)
    (more : c.waits.filter (fun w => decide (w ≠ startedWait o)) ≠ []) : clearJobEnd o ok v =
      setClear (some { c with
        waits := c.waits.filter fun w => decide (w ≠ startedWait o), failed := c.failed || !ok }) (freeErased o v) := by
  have yes := (waitsOn_iff c o).mpr mine
  have some_ : (c.waits.filter fun w => decide (w ≠ startedWait o)).isEmpty = false := by
    rw [List.isEmpty_eq_false_iff]
    exact more
  simp only [clearJobEnd, clear, if_pos yes, waits_filter, some_, Bool.false_eq_true, if_false]

/-- The clear complete: its scope re-entered from the places freed. -/
def clearCompleted (c : Clear) (o : Object) (v : State) : State :=
  noteView (reenter c.scope (setClear none (freeErased o v)))

theorem clearJobEnd_last {c : Clear} (o : Object) (clear : v.faults.clear = some c) (mine : startedWait o ∈ c.waits)
    (last : c.waits.filter (fun w => decide (w ≠ startedWait o)) = []) : clearJobEnd o ok v =
      deliver .clear c.side (savedResult (!(c.failed || !ok))) 0 [] (clearCompleted c o v) := by
  have yes := (waitsOn_iff c o).mpr mine
  simp only [clearJobEnd, clear, if_pos yes, waits_filter, last, List.isEmpty_nil, if_true, clearCompleted]

/-- The places with an ERASING one of the object FREE (R135). -/
def placesFreed (o : Object) (s : State) : Vector Place 40 :=
  match o with
  | .place i =>
    (match s.faults.places[i] with
     | .erasing _ => s.faults.places.set i.val .free i.isLt
     | _ => s.faults.places)
  | _ => s.faults.places

theorem freeErased_places (o : Object) (v : State) : (freeErased o v).faults.places = placesFreed o v := by
  unfold freeErased placesFreed
  cases o with
  | place i =>
    dsimp only
    cases v.faults.places[i] <;> rfl
  | ring => rfl
  | tripA => rfl
  | tripB => rfl
  | calibration => rfl
  | configuration => rfl
  | header => rfl

theorem freeErased_views (o : Object) (v : State) : v.faults.viewEvents ≤ (freeErased o v).faults.viewEvents := by
  unfold freeErased
  cases o with
  | place i =>
    dsimp only
    cases v.faults.places[i] with
    | erasing r => exact Nat.le_succ _
    | free => exact le_rfl
    | stored r => exact le_rfl
  | ring => exact le_rfl
  | tripA => exact le_rfl
  | tripB => exact le_rfl
  | calibration => exact le_rfl
  | configuration => exact le_rfl
  | header => exact le_rfl

theorem reenter_views (scope : Option (Fin 48)) (v : State) : (reenter scope v).faults.viewEvents = v.faults.viewEvents := by
  refine foldl_keeps (fun y : State => y.faults.viewEvents) _ (fun y w => ?_) _ _
  unfold reenterWarning
  dsimp only
  split
  · rw [(headerJob_frame _ _).2.2.2.2.2.2.2.2.1]
    exact makeRecord_views _ _ y
  · rfl

theorem clearCompleted_views (c : Clear) (o : Object) (v : State) :
    v.faults.viewEvents < (clearCompleted c o v).faults.viewEvents := by
  have grow := freeErased_views o v
  have noted : (clearCompleted c o v).faults.viewEvents = (freeErased o v).faults.viewEvents + 1 := by
    rw [clearCompleted, noteView_viewEvents, reenter_views]
    rfl
  omega

end Owner

end Sys2Proof.Proofs

/-! A page completion: the next page, the retry, and the end of a job (R46, R52, R53, R135, R136, R143 to R145). -/

namespace Sys2Proof.Proofs

open Sys2Proof Sys2Proof.Machine Sys2Proof.Safety

section Page

variable {s t u v : State} {j : Job} {ok : Bool} {now since : Nat}

/-- The engine after a page completion, the images and the warnings left. -/
def pageEnded (j : Job) (since : Nat) (ok : Bool) (s : State) : State :=
  completePage j ok (setNow (max s.time.now (since + 6000)) s)

/-- The state after a page completion. -/
def pageCompleted (j : Job) (since : Nat) (ok : Bool) (s : State) : State :=
  settle (storeFault s != storeFault (pageEnded j since ok s)) s (pageEnded j since ok s)

theorem exec_pageCompletion (job : s.store.job = some j) (phase : j.phase = .inFlight since) (ok : Bool) :
    exec (.pageCompletion ok) s = .next (pageCompleted j since ok s) := by
  change execPageCompletion ok s = _
  simp only [execPageCompletion, job, phase]
  rfl

/-! ## The pages of a job (R143) -/

/-- The engine before a page's outcome is taken: a verified page is in the array. -/
def pageTaken (j : Job) (since : Nat) (ok : Bool) (s : State) : State :=
  let v := setNow (max s.time.now (since + 6000)) s
  if ok then setStore { v.store with array := v.store.array.write j.content j.page } v else v

theorem pageTaken_eq (j : Job) (since : Nat) (ok : Bool) (s : State) : pageTaken j since ok s = { s with
    time := { s.time with now := max s.time.now (since + 6000) }
    store := { s.store with array := if ok = true then s.store.array.write j.content j.page else s.store.array } } := by
  cases ok <;> rfl

theorem pageEnded_next (more : ¬ j.object.pages ≤ j.page + 1) : pageEnded j since true s =
    duePage { j with page := j.page + 1, retry := false } (pageTaken j since true s) := if_neg more

theorem pageEnded_retry (first : j.retry = false) : pageEnded j since false s =
    duePage { j with retry := true } (pageTaken j since false s) := by
  rw [pageEnded, completePage, if_neg (by simp), first]
  rfl

/-- The job of the page has ended with this outcome. -/
def jobOver (j : Job) (ok : Bool) : Prop :=
  (j.object.pages ≤ j.page + 1 ∧ ok = true) ∨ (j.retry = true ∧ ok = false)

/-- The engine after the job's end, its owner left. -/
def jobMarked (j : Job) (since : Nat) (ok : Bool) (s : State) : State := markEnd j.object ok (pageTaken j since ok s)

theorem pageEnded_over (ends : jobOver j ok) : pageEnded j since ok s = ownerEnd j ok (jobMarked j since ok s) := by
  obtain ⟨last, rfl⟩ | ⟨retry, rfl⟩ := ends
  · exact if_pos last
  · rw [pageEnded, completePage, if_neg (by simp), if_pos retry]
    rfl

theorem duePage_job (j : Job) (v : State) : (duePage j v).store.job = some { j with
    phase := if supplyAllowsPage v = true then .inFlight v.time.now else .waiting } := by
  unfold duePage
  split <;> rfl

theorem duePage_config {image : Mem} {count : Nat} (j : Job) (v : State) (content : j.content = .configuration image count)
    {p : Nat} (h : p < 64) (other : j.page ≠ p) :
    (duePage j v).store.array.configuration[p] = v.store.array.configuration[p] := by
  unfold duePage
  split
  · have array : (beginPage j v).store.array = v.store.array.spoil j.content j.page := rfl
    simp only [array, content, NvArray.spoil]
    split
    · simp [other]
    · rfl
  · rfl

theorem write_config {a : NvArray} {image : Mem} {count p : Nat} (h : p < 64) :
    (a.write (.configuration image count) p).configuration[p] =
      .written { bytes := configBytes image p, count := count } := by
  simp [NvArray.write, h]

theorem written_check {α : Type} (check : α → Byte) (c : α) : (Page.written c).checkByte check = check c := by
  simp [Page.checkByte, Page.written]

/-! ## The marks (R144) -/

theorem jobMarked_kept (j : Job) (since : Nat) (ok : Bool) (s : State) :
    (jobMarked j since ok s).dist = s.dist ∧ (jobMarked j since ok s).faults = s.faults ∧
    (jobMarked j since ok s).link = s.link ∧ (jobMarked j since ok s).win.ops = s.win.ops ∧
    (jobMarked j since ok s).win.ram = s.win.ram ∧ (jobMarked j since ok s).win.adoption = s.win.adoption ∧
    (jobMarked j since ok s).out = s.out ∧ (jobMarked j since ok s).warn = s.warn ∧
    (jobMarked j since ok s).store.queue = s.store.queue ∧ (jobMarked j since ok s).pulse = s.pulse ∧
    (jobMarked j since ok s).analog = s.analog ∧ (jobMarked j since ok s).door = s.door ∧
    (jobMarked j since ok s).image = s.image := by
  rw [jobMarked, pageTaken_eq]
  simp

theorem markEnd_store (o : Object) (ok : Bool) (v : State) : (markEnd o ok v).store = { v.store with
    job := none, notRetained := marksAfter o ok v.store.notRetained } := by
  unfold markEnd
  dsimp only
  split <;> rfl

theorem jobMarked_marks (j : Job) (since : Nat) (ok : Bool) (s : State) :
    (jobMarked j since ok s).store.notRetained = marksAfter j.object ok s.store.notRetained := by
  rw [jobMarked, markEnd_store, pageTaken_eq]

theorem storeFault_iff (v : State) : storeFault v = true ↔ v.store.notRetained ≠ [] := by simp [storeFault]

theorem storeFault_congr (same : t.store.notRetained = v.store.notRetained) : storeFault t = storeFault v := by
  rw [Bool.eq_iff_iff, storeFault_iff, storeFault_iff, same]

/-- The notice STORE at a job's end: on a failure, and where the last mark went (R144). -/
theorem jobMarked_notice (j : Job) (since : Nat) (ok : Bool) (s : State) :
    noticeSet (jobMarked j since ok s) .store = true ↔ noticeSet s .store = true ∨ ok = false ∨
      ¬ (s.store.notRetained ≠ [] ↔ marksAfter j.object ok s.store.notRetained ≠ []) := by
  have notice : noticeSet (pageTaken j since ok s) .store = noticeSet s .store := by rw [pageTaken_eq]; rfl
  have marks : (pageTaken j since ok s).store.notRetained = s.store.notRetained := by rw [pageTaken_eq]
  have start : storeFault (pageTaken j since ok s) = true ↔ s.store.notRetained ≠ [] := by rw [storeFault_iff, marks]
  have after : ∀ x : State, x.store.notRetained = marksAfter j.object ok s.store.notRetained →
      (storeFault x = true ↔ marksAfter j.object ok s.store.notRetained ≠ []) := fun x h => by rw [storeFault_iff, h]
  rw [jobMarked, markEnd]
  dsimp only
  have now := after (setStore { (pageTaken j since ok s).store with
    job := none, notRetained := marksAfter j.object ok (pageTaken j since ok s).store.notRetained }
    (pageTaken j since ok s)) (by rw [← marks]; rfl)
  have differ : (storeFault (pageTaken j since ok s) ≠ storeFault (setStore { (pageTaken j since ok s).store with
      job := none, notRetained := marksAfter j.object ok (pageTaken j since ok s).store.notRetained }
      (pageTaken j since ok s))) ↔
      ¬ (s.store.notRetained ≠ [] ↔ marksAfter j.object ok s.store.notRetained ≠ []) := by
    rw [ne_eq, Bool.eq_iff_iff, start, now]
  split
  next sets =>
    rw [noticeSet_setNotice]
    rw [differ] at sets
    simp only [Bool.not_eq_true'] at sets
    simp [sets]
  next quiet =>
    rw [differ, not_or] at quiet
    have kept : noticeSet (setStore { (pageTaken j since ok s).store with
        job := none, notRetained := marksAfter j.object ok (pageTaken j since ok s).store.notRetained }
        (pageTaken j since ok s)) .store = noticeSet s .store := notice
    rw [kept]
    exact ⟨.inl, fun h => h.elim id fun h => h.elim (fun e => absurd (by simp [e]) quiet.1) fun e => absurd e quiet.2⟩

theorem mem_marksAfter_true (o p : Object) (marks : List Object) : p ∈ marksAfter o true marks ↔ p ∈ marks ∧ p ≠ o := by
  simp [marksAfter]

theorem mem_marksAfter_false (o p : Object) (marks : List Object) : p ∈ marksAfter o false marks ↔ p ∈ marks ∨ p = o := by
  unfold marksAfter
  rw [if_neg (by simp)]
  split
  next there => exact ⟨.inl, fun h => h.elim id fun e => e ▸ there⟩
  next => simp

theorem ownerEnd_storeNotice (j : Job) (ok : Bool) (v : State) :
    noticeSet (ownerEnd j ok v) .store = noticeSet v .store := by
  have ring : noticeSet (ringEnd j ok v) .store = noticeSet v .store := by rw [ringEnd_eq]; rfl
  have clear : ∀ o, noticeSet (clearJobEnd o ok v) .store = noticeSet v .store := fun o => by
    unfold clearJobEnd
    split
    · rfl
    · split
      · dsimp only
        split
        · rw [deliver_otherNotice _ _ _ _ _ (by simp)]
          simp [noticeSet]
        · simp [noticeSet]
      · rfl
  rw [ownerEnd_eq]
  cases j.object with
  | ring => exact (finishWaiter_notice _ _ _ (by simp) rfl).trans ring
  | tripA => rfl
  | tripB => rfl
  | calibration => exact finishWaiter_notice _ _ _ (by simp) rfl
  | configuration => exact finishWaiter_notice _ _ _ (by simp) rfl
  | header => exact clear _
  | place i => exact clear _

/-! ## The end of the event -/

theorem pageCompleted_storeNotice (ends : jobOver j ok) :
    noticeSet (pageCompleted j since ok s) .store = noticeSet (jobMarked j since ok s) .store := by
  rw [pageCompleted, ((settle_reach _ s _).notices .store).2 (by simp [allEventNotices]), pageEnded_over ends,
    ownerEnd_storeNotice]

theorem pageCompleted_marks (ends : jobOver j ok) :
    (pageCompleted j since ok s).store.notRetained = marksAfter j.object ok s.store.notRetained := by
  have settled : (pageCompleted j since ok s).store.notRetained = (pageEnded j since ok s).store.notRetained := by
    simp [pageCompleted]
  rw [settled, pageEnded_over ends, ← jobMarked_marks j since]
  simp

theorem pageCompleted_over (ends : jobOver j ok) : (pageCompleted j since ok s).store.job = none ∧
    (pageCompleted j since ok s).store.array = (pageTaken j since ok s).store.array := by
  have settled : (pageCompleted j since ok s).store.job = (pageEnded j since ok s).store.job ∧
      (pageCompleted j since ok s).store.array = (pageEnded j since ok s).store.array := by
    simp [pageCompleted]
  rw [settled.1, settled.2, pageEnded_over ends]
  have job : (jobMarked j since ok s).store.job = none := by rw [jobMarked, markEnd_store]
  have array : (jobMarked j since ok s).store.array = (pageTaken j since ok s).store.array := by
    rw [jobMarked, markEnd_store]
  rw [← array, ← job]
  exact ⟨by simp, by simp⟩

/-- What a page completion leaves, whatever it ends (R143, R144). -/
theorem pageCompleted_kept (j : Job) (since : Nat) (ok : Bool) (s : State) :
    (pageCompleted j since ok s).time.now = max s.time.now (since + 6000) ∧
    (storeFault (pageCompleted j since ok s) ≠ storeFault s → warningsJudged (pageCompleted j since ok s)
      (max s.time.now (since + 6000)) s.warn (pageCompleted j since ok s).warn) ∧
    (storeFault (pageCompleted j since ok s) = storeFault s →
      pageCompleted j since ok s = publish s (pageEnded j since ok s)) := by
  have time : (pageEnded j since ok s).time.now = max s.time.now (since + 6000) := by
    simp [pageEnded]
  have warn : (pageEnded j since ok s).warn = s.warn := by simp [pageEnded]
  have fault : storeFault (pageCompleted j since ok s) = storeFault (pageEnded j since ok s) :=
    storeFault_congr (by simp [pageCompleted])
  refine ⟨by rw [← time]; simp [pageCompleted], fun changed => ?_, fun same => ?_⟩
  · rw [fault] at changed
    have judged := finish_judged s (pageEnded j since ok s)
    have run : pageCompleted j since ok s = finish s (pageEnded j since ok s) := by
      rw [pageCompleted, settle, if_pos (by simpa using changed.symm)]
    rw [warn, finish_time, time] at judged
    rw [run]
    exact judged
  · rw [fault] at same
    rw [pageCompleted, settle, if_neg (by simpa using same.symm)]

end Page

end Sys2Proof.Proofs

/-! The outcome of a job at what waits on it, to the end of the page completion. -/

namespace Sys2Proof.Proofs

open Sys2Proof Sys2Proof.Machine Sys2Proof.Safety

section Outcome

variable {s t u v : State} {j : Job} {ok : Bool} {since : Nat}

/-- A result delivered by the owner of the job stays to the end of the completion. -/
theorem pageCompleted_delivered {k : Operation} {side : Side} {code result : Byte} (ends : jobOver j ok)
    (other : k ≠ .test) (op : (ownerEnd j ok (jobMarked j since ok s)).win.ops.test = s.win.ops.test)
    (h : delivered s (ownerEnd j ok (jobMarked j since ok s)) k side code result) :
    delivered s (pageCompleted j since ok s) k side code result := by
  have out : (pageEnded j since ok s).out = s.out := by simp [pageEnded]
  rw [← pageEnded_over ends] at h op
  exact delivered_kept h other (by rw [out]) op (settle_results _ _ _) fun n set =>
    ((settle_reach _ s _).notices n).1 set

theorem finishWaiter_op (k : Operation) (other : k ≠ .test) (w : Option Waiter) (clear : State → State)
    (kept : (clear v).win.ops = v.win.ops) : (finishWaiter k w ok clear v).win.ops.test = v.win.ops.test := by
  cases w with
  | none => rfl
  | some x =>
    cases started : x.started with
    | false => simp [finishWaiter, started]
    | true => rw [finishWaiter_started k started, deliver_otherOp _ _ _ _ _ other, kept]

theorem clearJobEnd_op (o : Object) : (clearJobEnd o ok v).win.ops.test = v.win.ops.test := by
  unfold clearJobEnd
  split
  · rfl
  · split
    · dsimp only
      split
      · rw [deliver_otherOp _ _ _ _ _ (by simp)]
        simp
      · simp
    · rfl

theorem ownerEnd_op (j : Job) (since : Nat) (ok : Bool) (s : State) :
    (ownerEnd j ok (jobMarked j since ok s)).win.ops.test = s.win.ops.test := by
  have start : (jobMarked j since ok s).win.ops = s.win.ops := (jobMarked_kept j since ok s).2.2.2.1
  have ring : (ringEnd j ok (jobMarked j since ok s)).win.ops = (jobMarked j since ok s).win.ops := by rw [ringEnd_eq]
  rw [← start, ownerEnd_eq]
  cases j.object with
  | ring => exact (finishWaiter_op _ (by simp) _ _ rfl).trans (by rw [ring])
  | tripA => rfl
  | tripB => rfl
  | calibration => exact finishWaiter_op _ (by simp) _ _ rfl
  | configuration => exact finishWaiter_op _ (by simp) _ _ rfl
  | header => exact clearJobEnd_op _
  | place i => exact clearJobEnd_op _

/-! ## The waiters -/

theorem pageCompleted_waiters (ends : jobOver j ok) :
    (pageCompleted j since ok s).dist.preset =
      (if j.object = .ring ∧ waits s.dist.preset = true then none else s.dist.preset) ∧
    (pageCompleted j since ok s).dist.kfactor =
      (if j.object = .calibration ∧ waits s.dist.kfactor = true then none else s.dist.kfactor) ∧
    (pageCompleted j since ok s).win.adoption =
      (if j.object = .configuration ∧ waits s.win.adoption = true then none else s.win.adoption) := by
  obtain ⟨dist, -, -, -, -, adoption, -⟩ := jobMarked_kept j since ok s
  have settled : (pageCompleted j since ok s).dist = (pageEnded j since ok s).dist ∧
      (pageCompleted j since ok s).win.adoption = (pageEnded j since ok s).win.adoption := by
    simp [pageCompleted]
  rw [settled.1, settled.2, pageEnded_over ends, ownerEnd_preset, ownerEnd_kfactor, ownerEnd_adoption, dist, adoption]
  exact ⟨rfl, rfl, rfl⟩

theorem pageCompleted_results (ends : jobOver j ok) :
    let result : Byte := if ok = true then 0 else 9
    (∀ w, j.object = .ring → s.dist.preset = some w → w.started = true →
      delivered s (pageCompleted j since ok s) .preset w.side 17 result) ∧
    (∀ w, j.object = .calibration → s.dist.kfactor = some w → w.started = true →
      delivered s (pageCompleted j since ok s) .kfactor w.side 18 result) ∧
    (∀ w, j.object = .configuration → s.win.adoption = some w → w.started = true →
      delivered s (pageCompleted j since ok s) .adopt w.side 0 result) := by
  intro result
  obtain ⟨dist, -, link, ops, ram, adoption, -⟩ := jobMarked_kept j since ok s
  have op := ownerEnd_op j since ok s
  refine ⟨fun w object waiter started => ?_, fun w object waiter started => ?_, fun w object waiter started => ?_⟩
  · exact pageCompleted_delivered ends (by simp) op
      (ownerEnd_delivered_preset object (by rw [dist, waiter]) started ops (by rw [link]) ram)
  · exact pageCompleted_delivered ends (by simp) op
      (ownerEnd_delivered_kfactor object (by rw [dist, waiter]) started ops (by rw [link]) ram)
  · exact pageCompleted_delivered ends (by simp) op
      (ownerEnd_delivered_adopt object (by rw [adoption, waiter]) started ops (by rw [link]) ram)

/-! ## The clear -/

/-- The object is one of the Fault Memory's. -/
def ownsRecords (o : Object) : Prop := o = .header ∨ ∃ i, o = .place i

theorem ownerEnd_record (owns : ownsRecords j.object) (ok : Bool) (v : State) :
    ownerEnd j ok v = clearJobEnd j.object ok v := by
  rw [ownerEnd_eq]
  obtain e | ⟨i, e⟩ := owns <;> rw [e]

theorem ownerEnd_faults (other : ¬ ownsRecords j.object) (ok : Bool) (v : State) :
    (ownerEnd j ok v).faults = v.faults := by
  have waiter : ∀ k w f, (∀ x, (f x : State).faults = x.faults) → ∀ x, (finishWaiter k w ok f x).faults = x.faults := by
    intro k w f kept x
    cases w with
    | none => rfl
    | some w =>
      cases started : w.started with
      | false => simp [finishWaiter, started]
      | true => simp [finishWaiter, started, kept]
  have ring : (ringEnd j ok v).faults = v.faults := by rw [ringEnd_eq]
  rw [ownerEnd_eq]
  cases object : j.object with
  | ring => exact (waiter .preset _ clearPreset (fun _ => rfl) _).trans ring
  | tripA => rfl
  | tripB => rfl
  | calibration => exact waiter .kfactor _ clearKFactor (fun _ => rfl) v
  | configuration => exact waiter .adopt _ clearAdoption (fun _ => rfl) v
  | header => exact absurd (.inl object) other
  | place i => exact absurd (.inr ⟨i, object⟩) other

theorem pageCompleted_clear (ends : jobOver j ok) :
    (pageCompleted j since ok s).faults.clear = (ownerEnd j ok (jobMarked j since ok s)).faults.clear := by
  have settled : (pageCompleted j since ok s).faults.clear = (pageEnded j since ok s).faults.clear := by
    simp [pageCompleted]
  rw [settled, pageEnded_over ends]

theorem placesFreed_congr (o : Object) (h : v.faults = s.faults) : placesFreed o v = placesFreed o s := by
  unfold placesFreed
  rw [h]

theorem placesFreed_overflow (o : Object) (v : State) : (freeErased o v).faults.overflow = v.faults.overflow := by simp

theorem pageCompleted_same (same : storeFault (pageCompleted j since ok s) = storeFault s) (ends : jobOver j ok) :
    (pageCompleted j since ok s).faults = (ownerEnd j ok (jobMarked j since ok s)).faults ∧
    (pageCompleted j since ok s).store.queue = (ownerEnd j ok (jobMarked j since ok s)).store.queue := by
  rw [(pageCompleted_kept j since ok s).2.2 same, ← pageEnded_over ends]
  exact ⟨by simp, by simp⟩

theorem viewsGrow_steps : JudgeSteps fun s t : State => s.faults.viewEvents ≤ t.faults.viewEvents where
  refl _ := le_rfl
  trans := le_trans
  set _ _ _ := le_rfl
  onset w s := by
    have begun : s.faults.viewEvents ≤ (onsetBegun w s).faults.viewEvents := by
      unfold onsetBegun
      dsimp only
      split
      · rw [occurrence, noteView_viewEvents]
        simp [takeOccurrence_views]
      · simp
    rw [onset_eq]
    split
    · simpa using begun
    · exact begun
  leave w s := by
    have views : ∀ x, x.faults.viewEvents ≤ (returnInactive w x).faults.viewEvents := fun x => by
      unfold returnInactive
      split
      · split
        · split
          · rw [noteView_viewEvents]
            simp
          · exact le_rfl
        · exact le_rfl
      · exact le_rfl
    unfold leaveList
    dsimp only
    split
    · exact le_trans (by simp) (views _)
    · simp
  restate _ _ _ := by simp

theorem settle_faultNotice (c : Bool) (h : s.faults.viewEvents < u.faults.viewEvents) :
    noticeSet (settle c s u) .faultMemoryChanged = true := by
  have grows := viewsGrow_steps.judgeAll u
  unfold settle
  split
  · exact publish_faultNotice (by omega)
  · exact publish_faultNotice (by omega)

/-- What the end of the job does to a clear (R135, R136). -/
theorem pageCompleted_cleared {c : Clear} (ends : jobOver j ok) (clear : s.faults.clear = some c) :
    let mine := startedWait j.object
    let rest := c.waits.filter fun x => decide (x ≠ mine)
    let t := pageCompleted j since ok s
    (¬ ownsRecords j.object ∨ mine ∉ c.waits → t.faults.clear = some c) ∧
    (ownsRecords j.object → mine ∈ c.waits → rest ≠ [] →
      t.faults.clear = some { c with waits := rest, failed := c.failed || !ok } ∧
      (storeFault t = storeFault s →
        t.faults.places = placesFreed j.object s ∧ t.faults.overflow = s.faults.overflow)) ∧
    (ownsRecords j.object → mine ∈ c.waits → rest = [] →
      t.faults.clear = none ∧
      delivered s t .clear c.side 16 (if (c.failed || !ok) = true then 9 else 0) ∧
      noticeSet t .faultMemoryChanged = true ∧
      (storeFault t = storeFault s → s.faults.overflow ≤ 255 → ∃ u,
        reentered c.scope s.warn.list
          { s with faults := { s.faults with places := placesFreed j.object s } } u ∧
        t.faults.places = u.faults.places ∧ t.faults.overflow = u.faults.overflow ∧
        t.store.queue = u.store.queue)) := by
  intro mine rest t
  obtain ⟨dist, faults, link, ops, ram, -, out, warn, queue, pulse, analog, door, image⟩ := jobMarked_kept j since ok s
  have held : (jobMarked j since ok s).faults.clear = some c := by rw [faults, clear]
  have ended := pageCompleted_clear (s := s) (since := since) ends
  have freed : (freeErased j.object (jobMarked j since ok s)).faults.places = placesFreed j.object s := by
    rw [freeErased_places, placesFreed_congr _ faults]
  have overflow : (freeErased j.object (jobMarked j since ok s)).faults.overflow = s.faults.overflow := by
    rw [placesFreed_overflow, faults]
  refine ⟨fun apart => ?_, fun owns there more => ⟨?_, fun same => ?_⟩, fun owns there last => ⟨?_, ?_, ?_, fun same small => ?_⟩⟩
  · refine ended.trans ?_
    by_cases owns : ownsRecords j.object
    · rw [ownerEnd_record owns, clearJobEnd_other _ held (apart.resolve_left (not_not.mpr owns)), held]
    · rw [ownerEnd_faults owns, held]
  · refine ended.trans ?_
    rw [ownerEnd_record owns, clearJobEnd_waits _ held there more]
    rfl
  · obtain ⟨whole, -⟩ := pageCompleted_same same ends
    rw [whole, ownerEnd_record owns, clearJobEnd_waits _ held there more]
    exact ⟨freed, overflow⟩
  · refine ended.trans ?_
    rw [ownerEnd_record owns, clearJobEnd_last _ held there last]
    simp [clearCompleted, setClear]
  · refine pageCompleted_delivered ends (by simp) (ownerEnd_op j since ok s) ?_
    rw [ownerEnd_record owns, clearJobEnd_last _ held there last]
    have code : (savedResult (!(c.failed || !ok))).code = if (c.failed || !ok) = true then 9 else 0 := by
      rw [savedResult_code]
      cases c.failed || !ok <;> rfl
    rw [← code]
    refine deliver_delivered .clear c.side _ ?_ ?_ ?_
    · rw [← ops]
      simp [clearCompleted]
    · rw [← link]
      simp [clearCompleted]
    · rw [← ram]
      simp [clearCompleted]
  · refine settle_faultNotice _ ?_
    rw [pageEnded_over ends, ownerEnd_record owns, clearJobEnd_last _ held there last]
    have grows := clearCompleted_views c j.object (jobMarked j since ok s)
    rw [faults] at grows
    simpa using grows
  · obtain ⟨whole, jobs⟩ := pageCompleted_same same ends
    have start : SameRecorded (setClear none (freeErased j.object (jobMarked j since ok s)))
        { s with faults := { s.faults with places := placesFreed j.object s } } := by
      refine ⟨?_, ?_, ?_, ?_, freed, overflow, ?_, ?_⟩
      · simp [pulse]
      · simp [dist]
      · simp [analog]
      · simp [door]
      · simp [queue]
      · simp [image]
    obtain ⟨u, entered, places, count, queued⟩ := reenter_reentered c.scope s.warn.list start small
    have run : ∀ x : State, x.warn.list = s.warn.list →
        s.warn.list.foldl (reenterWarning c.scope) x = reenter c.scope x := fun x list => by rw [reenter, list]
    rw [run _ (by simp [setClear, warn])] at places count queued
    rw [whole, jobs, ownerEnd_record owns, clearJobEnd_last _ held there last]
    refine ⟨u, entered, ?_, ?_, ?_⟩
    · rw [← places]
      simp [clearCompleted]
    · rw [← count]
      simp [clearCompleted]
    · rw [← queued]
      simp [clearCompleted]

end Outcome

end Sys2Proof.Proofs

/-! A page completion as a whole (R46, R52, R53, R135, R136, R140, R143 to R145). -/

namespace Sys2Proof.Proofs

open Sys2Proof Sys2Proof.Machine Sys2Proof.Safety

section Completed

variable {s : State} {j : Job} {ok : Bool} {since : Nat}

/-! ## The page that follows -/

/-- The completion takes neither the engine nor the parts that no warning reaches. -/
theorem pageCompleted_frame (j : Job) (since : Nat) (ok : Bool) (s : State) :
    (pageCompleted j since ok s).store.job = (pageEnded j since ok s).store.job ∧
    (pageCompleted j since ok s).store.array = (pageEnded j since ok s).store.array ∧
    (pageCompleted j since ok s).dist = (pageEnded j since ok s).dist := by
  simp [pageCompleted]

theorem pageTaken_supply (j : Job) (since : Nat) (ok : Bool) (s : State) :
    supplyAllowsPage (pageTaken j since ok s) = supplyAllowsPage s ∧
    (pageTaken j since ok s).time.now = max s.time.now (since + 6000) := by
  rw [pageTaken_eq]
  exact ⟨rfl, rfl⟩

theorem pageCompleted_next (more : ¬ j.object.pages ≤ j.page + 1) :
    (pageCompleted j since true s).store.job = some { j with
      page := j.page + 1
      retry := false
      phase := if supplyAllowsPage s = true then .inFlight (max s.time.now (since + 6000)) else .waiting } := by
  obtain ⟨supply, now⟩ := pageTaken_supply j since true s
  rw [(pageCompleted_frame j since true s).1, pageEnded_next more, duePage_job, supply, now]

theorem pageCompleted_retry (first : j.retry = false) :
    (pageCompleted j since false s).store.job = some { j with
      retry := true
      phase := if supplyAllowsPage s = true then .inFlight (max s.time.now (since + 6000)) else .waiting } := by
  obtain ⟨supply, now⟩ := pageTaken_supply j since false s
  rw [(pageCompleted_frame j since false s).1, pageEnded_retry first, duePage_job, supply, now]

/-! ## The array -/

theorem pageTaken_array (j : Job) (since : Nat) (s : State) :
    (pageTaken j since true s).store.array = s.store.array.write j.content j.page := by rw [pageTaken_eq]; rfl

theorem pageCompleted_array (last : j.object.pages ≤ j.page + 1) :
    (pageCompleted j since true s).store.array = s.store.array.write j.content j.page := by
  rw [(pageCompleted_over (.inl ⟨last, rfl⟩)).2, pageTaken_array]

/-- A verified page of the configuration holds its bytes, whether or not another page follows. -/
theorem pageCompleted_config {image : Mem} {count : Nat} (content : j.content = .configuration image count)
    (h : j.page < 64) : (pageCompleted j since true s).store.array.configuration[j.page] =
      .written { bytes := configBytes image j.page, count := count } := by
  by_cases last : j.object.pages ≤ j.page + 1
  · simp only [pageCompleted_array last, content]
    exact write_config h
  · simp only [(pageCompleted_frame j since true s).2.1, pageEnded_next last]
    rw [duePage_config { j with page := j.page + 1, retry := false } _ content h (Nat.succ_ne_self j.page)]
    simp only [pageTaken_array, content]
    exact write_config h

/-! ## The odometer (R46) -/

theorem pageCompleted_live (j : Job) (since : Nat) (ok : Bool) (s : State) :
    (pageCompleted j since ok s).dist.live = s.dist.live ∧
    (pageCompleted j since ok s).dist.tripA = s.dist.tripA ∧ (pageCompleted j since ok s).dist.tripB = s.dist.tripB ∧
    (pageCompleted j since ok s).dist.ticks = s.dist.ticks ∧
    (pageCompleted j since ok s).dist.nextSlot = s.dist.nextSlot := by
  simp [pageCompleted, pageEnded]

theorem pageCompleted_retained (ends : jobOver j ok) : (pageCompleted j since ok s).dist.retained =
    if j.object = .ring then (ringEnd j ok (jobMarked j since ok s)).dist.retained else s.dist.retained := by
  rw [(pageCompleted_frame j since ok s).2.2, pageEnded_over ends, ownerEnd_ringValue, (jobMarked_kept j since ok s).1]

theorem ringEnd_failed (j : Job) (v : State) : ringEnd j false v = v := if_neg (by simp)

theorem ringEnd_value {slot : Fin 8} {r : RingSlot} {k : Nat} (content : j.content = .ring slot r)
    (value : bcdValue r.value = some k) (v : State) : (ringEnd j true v).dist.retained = k := by
  simp [ringEnd, retainRing, content, value]

/-! ## The notice (R144) -/

/-- A job that ends well sets STORE exactly when the last mark goes. -/
theorem pageCompleted_lastMark (last : j.object.pages ≤ j.page + 1) (unset : noticeSet s .store = false) :
    noticeSet (pageCompleted j since true s) .store = true ↔
      s.store.notRetained ≠ [] ∧ (pageCompleted j since true s).store.notRetained = [] := by
  have ends : jobOver j true := .inl ⟨last, rfl⟩
  have fewer : marksAfter j.object true s.store.notRetained ≠ [] → s.store.notRetained ≠ [] := by
    intro left none
    exact left (List.eq_nil_iff_forall_not_mem.mpr fun p there => by simp [mem_marksAfter_true, none] at there)
  rw [pageCompleted_storeNotice ends, jobMarked_notice, pageCompleted_marks ends, unset]
  simp only [Bool.false_eq_true, Bool.true_eq_false, false_or]
  tauto

theorem pageCompleted_failNotice (ends : jobOver j false) :
    noticeSet (pageCompleted j since false s) .store = true := by
  rw [pageCompleted_storeNotice ends, jobMarked_notice]
  exact .inr (.inl rfl)

/-! ## The parts that a completion leaves -/

theorem pageCompleted_others (j : Job) (since : Nat) (ok : Bool) (s : State) :
    (pageCompleted j since ok s).sense = s.sense ∧ (pageCompleted j since ok s).pulse = s.pulse ∧
    (pageCompleted j since ok s).analog = s.analog ∧ (pageCompleted j since ok s).door = s.door ∧
    (pageCompleted j since ok s).image = s.image ∧ (pageCompleted j since ok s).pending = s.pending ∧
    (pageCompleted j since ok s).out.supervision = s.out.supervision ∧
    (pageCompleted j since ok s).win.claims = s.win.claims ∧
    (pageCompleted j since ok s).link.session = s.link.session ∧
    (pageCompleted j since ok s).link.request = s.link.request := by
  simp [pageCompleted, pageEnded]

theorem pageCompleted_warn (same : storeFault (pageCompleted j since ok s) = storeFault s) :
    (pageCompleted j since ok s).warn = s.warn := by
  rw [(pageCompleted_kept j since ok s).2.2 same]
  simp [pageEnded]

theorem pageCompleted_noClear (ends : jobOver j ok) (clear : s.faults.clear = none) :
    (pageCompleted j since ok s).faults.clear = none := by
  have held : (jobMarked j since ok s).faults.clear = none := by rw [(jobMarked_kept j since ok s).2.1, clear]
  rw [pageCompleted_clear ends]
  by_cases owns : ownsRecords j.object
  · rw [ownerEnd_record owns, clearJobEnd_none _ held, held]
  · rw [ownerEnd_faults owns, held]

end Completed

end Sys2Proof.Proofs

/-! The page completion (O29). -/

namespace Sys2Proof.Proofs

open Sys2Proof Sys2Proof.Machine Sys2Proof.Safety

theorem cases_of_eq_ite {α : Type} {p : Prop} [Decidable p] {x a b : α} (h : x = if p then a else b) :
    if p then x = a else x = b := by
  split
  next yes => rw [h, if_pos yes]
  next no => rw [h, if_neg no]

/-- Settles O29: a page that succeeds, the retry, and the end of a job with what waits on it. -/
theorem pageCompletionMovesJob : Obligations.PageCompletionMovesJob := by
  unfold Obligations.PageCompletionMovesJob
  intro s j since job phase
  refine ⟨pageCompleted j since true s, pageCompleted j since false s, exec_pageCompletion job phase true,
    exec_pageCompletion job phase false, ?_⟩
  intro last started now
  have pages : last ↔ j.object.pages ≤ j.page + 1 := by
    cases h : j.object <;> simp only [last, h] <;> rfl
  have supply : supplyAllowsPage s = true ↔ started := supplyAllowsPage_iff s
  have whole : last → jobOver j true := fun h => .inl ⟨pages.mp h, rfl⟩
  have failed : j.retry = true → jobOver j false := fun h => .inr ⟨h, rfl⟩
  obtain ⟨live, -⟩ := pageCompleted_live j since true s
  obtain ⟨failedLive, -, -, -, failedSlot⟩ := pageCompleted_live j since false s
  refine ⟨⟨(pageCompleted_kept j since true s).1, (pageCompleted_kept j since false s).1⟩, fun more => ?_,
    fun first enough => ?_, fun first low => ?_, fun h => ⟨?_, fun o => ?_, ?_, live, fun slot v k object content value => ?_⟩,
    fun h => ?_, fun image count content h => ?_, fun retry => ⟨?_, ?_, fun o other => ?_, ?_, ?_, failedLive, ?_,
    failedSlot⟩, fun t ok which => ?_, fun t which => ?_⟩
  · obtain ⟨-, -, analog, -⟩ := pageCompleted_others j since true s
    have handed : s.analog.channels[5].y.any (fun v => decide (1600 ≤ v)) = supplyAllowsPage s := by
      unfold supplyAllowsPage supplyHanded
      cases s.analog.channels[5].y <;> rfl
    rw [pageCompleted_next (mt pages.mpr more), analog, handed]
  · rw [pageCompleted_retry first, if_pos (supply.mpr enough)]
  · rw [pageCompleted_retry first, if_neg (mt supply.mp low)]
  · exact (pageCompleted_over (whole h)).1
  · rw [pageCompleted_marks (whole h), mem_marksAfter_true]
  · exact pageCompleted_lastMark (pages.mp h)
  · rw [pageCompleted_retained (whole h), if_pos object, ringEnd_value content value]
  · have array := pageCompleted_array (s := s) (since := since) (pages.mp h)
    intro old
    cases content : j.content <;> simp only [array, content, NvArray.write]
    all_goals exact ⟨_, rfl, rfl, written_check _ _⟩
  · dsimp only
    rw [pageCompleted_config content h]
    exact ⟨rfl, written_check _ _⟩
  · exact (pageCompleted_over (failed retry)).1
  · rw [pageCompleted_marks (failed retry), mem_marksAfter_false]
    exact .inr rfl
  · rw [pageCompleted_marks (failed retry), mem_marksAfter_false]
    exact or_iff_left other
  · exact pageCompleted_failNotice (failed retry)
  · rw [(pageCompleted_over (failed retry)).2, pageTaken_eq]
    rfl
  · rw [pageCompleted_retained (failed retry), ringEnd_failed, (jobMarked_kept j since false s).1, ite_self]
  · have ended : t = pageCompleted j since ok s ∧ jobOver j ok := by
      obtain ⟨rfl, h, rfl⟩ | ⟨rfl, h, rfl⟩ := which
      · exact ⟨rfl, whole h⟩
      · exact ⟨rfl, failed h⟩
    obtain ⟨rfl, ends⟩ := ended
    obtain ⟨preset, kfactor, adoption⟩ := pageCompleted_waiters (s := s) (since := since) ends
    obtain ⟨presetResult, kfactorResult, adoptionResult⟩ := pageCompleted_results (s := s) (since := since) ends
    intro result owns mine
    exact ⟨cases_of_eq_ite preset, presetResult, cases_of_eq_ite kfactor, kfactorResult, cases_of_eq_ite adoption,
      adoptionResult, pageCompleted_noClear ends, fun c clear => pageCompleted_cleared ends clear⟩
  · obtain ⟨ok, rfl⟩ : ∃ ok, t = pageCompleted j since ok s := which.elim (fun e => ⟨_, e⟩) fun e => ⟨_, e⟩
    obtain ⟨-, changed, -⟩ := pageCompleted_kept j since ok s
    obtain ⟨-, tripA, tripB, ticks, -⟩ := pageCompleted_live j since ok s
    obtain ⟨sense, pulse, analog, door, image, pending, supervision, claims, session, request⟩ :=
      pageCompleted_others j since ok s
    exact ⟨changed, pageCompleted_warn, sense, pulse, analog, door, image, pending, supervision, claims, session,
      request, tripA, tripB, ticks⟩

end Sys2Proof.Proofs

/-! The lines that an adoption returns to UNKNOWN (R11): what their old roles' consumers make of them, one by one. -/

namespace Sys2Proof.Proofs

open Sys2Proof Sys2Proof.Machine Sys2Proof.Safety

/-! ## A line's return -/

/-- What a line's return to UNKNOWN makes of the consumers of its old role. -/
inductive Returned (role : Role) (old : LineState) (t : State) : State → Prop
  | same : Returned role old t t
  | ignition (own : role = .ignition) : Returned role old t (ignitionChange false t)
  | kneel : Returned role old t (judgeKneel t)
  | ramp : Returned role old t (judgeRamp t)
  | brake (own : role = .parkingBrake) : Returned role old t (brakeConsumers old t)
  | doorway (k : Fin 4) (own : role = .switchClosed k ∨ role = .openEnd k) : Returned role old t (judgeDoorway k t)
  | obstructed (k : Fin 4) : Returned role old t (judgeObstructed k t)
  | emergency (k : Fin 4) : Returned role old t (judgeEmergency k t)

theorem deliverAdopted_returned (role : Role) (old : LineState) (t : State) :
    Returned role old t (deliverAdopted role old .unknown t) := by
  cases role with
  | unused => exact .same
  | general => exact .same
  | ignition =>
    simp only [deliverAdopted, deliverChange, reduceCtorEq, if_false, decide_false]
    split
    · exact .same
    · exact .ignition rfl
  | kneel => exact .kneel
  | ramp => exact .ramp
  | stopRequest =>
    simp only [deliverAdopted, deliverChange, reduceCtorEq, if_false, and_false]
    exact .same
  | parkingBrake => exact .brake rfl
  | ackButton =>
    simp only [deliverAdopted, deliverChange, reduceCtorEq, if_false, and_false]
    exact .same
  | switchClosed k => exact .doorway k (.inl rfl)
  | openEnd k => exact .doorway k (.inr rfl)
  | edge k =>
    simp only [deliverAdopted, deliverChange, takeEdge, reduceCtorEq, if_false, and_false]
    exact .obstructed k
  | emergency k => exact .emergency k

/-! ## The lines of an adoption -/

/-- An adoption returns the line to UNKNOWN, from another state. -/
def lineReturns (s : State) (image : Mem) (n : Fin 32) : Prop :=
  n ≠ 0 ∧ lineEntry s.image n ≠ lineEntry image n ∧ s.sense.lines[n].debounced ≠ .unknown

/-- The lines of the new image stand, and what the consumers read beside them. -/
structure LinesStand (s : State) (image : Mem) (t : State) : Prop where
  sense : t.sense = (adoptLines image s).sense
  pulse : t.pulse = s.pulse
  image : t.image = s.image
  time : t.time = s.time

section Lines

variable {s t u x : State} {image : Mem} {n : Fin 32}

theorem adoptLines_line (image : Mem) (s : State) (n : Fin 32) : (adoptLines image s).sense.lines[n] =
    if lineEntry s.image n = lineEntry image n then s.sense.lines[n] else s.sense.lines[n].adopted (decide (n = 0)) := by
  simp [adoptLines]

theorem adoptLines_stand (image : Mem) (s : State) : LinesStand s image (adoptLines image s) :=
  ⟨rfl, by simp, by simp, by simp⟩

theorem LinesStand.state (h : LinesStand s image t) (n : Fin 32) :
    lineState t n = ((adoptLines image s).sense.lines[n]).debounced := by rw [lineState, h.sense]

/-- A line that returns is UNKNOWN. -/
theorem LinesStand.returned (h : LinesStand s image t) (returns : lineReturns s image n) :
    lineState t n = .unknown := by
  obtain ⟨notFirst, changed, -⟩ := returns
  rw [h.state, adoptLines_line, if_neg changed]
  simp [Line.adopted, notFirst]

/-- A line whose state an adoption changes returns to UNKNOWN. -/
theorem LinesStand.returns (h : LinesStand s image t) (other : s.sense.lines[n].debounced ≠ lineState t n) :
    lineReturns s image n := by
  rw [h.state, adoptLines_line] at other
  split at other
  · exact absurd rfl other
  next changed =>
    by_cases first : n = 0
    · simp [Line.adopted, first] at other
    · simp only [Line.adopted, first, decide_false, Bool.false_eq_true, if_false] at other
      exact ⟨first, changed, other⟩

theorem LinesStand.step (h : LinesStand s image t) : LinesStand s image (adoptedLine s.sense.lines t n) :=
  ⟨by simpa using h.sense, by simpa using h.pulse, by simpa using h.image, by simpa using h.time⟩

/-- A line of an adoption stays as it is, or its return is delivered. -/
theorem adoptedLine_cases (h : LinesStand s image t) : adoptedLine s.sense.lines t n = t ∨ (lineReturns s image n ∧
    Returned (lineEntry s.image n).role s.sense.lines[n].debounced t (adoptedLine s.sense.lines t n)) := by
  unfold adoptedLine
  dsimp only
  split
  · exact .inl rfl
  next other =>
    have returns := h.returns other
    rw [h.returned returns, h.image]
    exact .inr ⟨returns, deliverAdopted_returned _ _ t⟩

theorem adoptedLine_returned (h : LinesStand s image t) (returns : lineReturns s image n) :
    adoptedLine s.sense.lines t n =
      deliverAdopted (lineEntry s.image n).role s.sense.lines[n].debounced .unknown t := by
  have old : s.sense.lines[n].debounced ≠ .unknown := returns.2.2
  unfold adoptedLine
  dsimp only
  rw [h.returned returns, h.image, if_neg old]

/-- What every return keeps, the lines of an adoption keep. -/
theorem adoptedLines_fold {P : State → Prop}
    (step : ∀ n t u, LinesStand s image t → lineReturns s image n → P t →
      Returned (lineEntry s.image n).role s.sense.lines[n].debounced t u → P u) :
    ∀ (l : List (Fin 32)) (x : State), LinesStand s image x → P x →
      P (l.foldl (adoptedLine s.sense.lines) x) ∧ LinesStand s image (l.foldl (adoptedLine s.sense.lines) x)
  | [], _, stand, h => ⟨h, stand⟩
  | n :: l, x, stand, h => by
    refine adoptedLines_fold step l (adoptedLine s.sense.lines x n) stand.step ?_
    obtain same | ⟨returns, returned⟩ := adoptedLine_cases (n := n) stand
    · rw [same]
      exact h
    · exact step n x _ stand returns h returned

/-- The state after the lines of an adoption have returned. -/
def linesAdopted (image : Mem) (s : State) : State := adoptedLines s.sense.lines (adoptLines image s)

theorem linesAdopted_induct {P : State → Prop} (start : P (adoptLines image s))
    (step : ∀ n t u, LinesStand s image t → lineReturns s image n → P t →
      Returned (lineEntry s.image n).role s.sense.lines[n].debounced t u → P u) : P (linesAdopted image s) :=
  (adoptedLines_fold step (List.finRange 32) (adoptLines image s) (adoptLines_stand image s) start).1

/-- What the return of one line sets up and every return keeps holds after the lines of an adoption. -/
theorem linesAdopted_after {P Q : State → Prop} (start : P (adoptLines image s))
    (step : ∀ n t u, LinesStand s image t → lineReturns s image n → P t →
      Returned (lineEntry s.image n).role s.sense.lines[n].debounced t u → P u)
    (returns : lineReturns s image n)
    (own : ∀ t, LinesStand s image t → P t →
      Q (deliverAdopted (lineEntry s.image n).role s.sense.lines[n].debounced .unknown t))
    (keep : ∀ n t u, LinesStand s image t → lineReturns s image n → Q t →
      Returned (lineEntry s.image n).role s.sense.lines[n].debounced t u → Q u) : Q (linesAdopted image s) := by
  obtain ⟨first, rest, split⟩ := List.append_of_mem (List.mem_finRange n)
  have run : linesAdopted image s = rest.foldl (adoptedLine s.sense.lines)
      (adoptedLine s.sense.lines (first.foldl (adoptedLine s.sense.lines) (adoptLines image s)) n) := by
    rw [linesAdopted, adoptedLines, split, List.foldl_append, List.foldl_cons]
  obtain ⟨before, stand⟩ := adoptedLines_fold step first (adoptLines image s) (adoptLines_stand image s) start
  rw [run]
  refine (adoptedLines_fold keep rest _ stand.step ?_).1
  rw [adoptedLine_returned stand returns]
  exact own _ stand before

theorem linesAdopted_stand (image : Mem) (s : State) : LinesStand s image (linesAdopted image s) :=
  (adoptedLines_fold (P := fun _ => True) (fun _ _ _ _ _ _ _ => trivial) (List.finRange 32) (adoptLines image s)
    (adoptLines_stand image s) trivial).2

/-! ## What returns leave -/

/-- A return of a line reaches neither the warnings, the arbiter nor the records. -/
theorem Returned.beside {role : Role} {old : LineState} (h : Returned role old t u) :
    u.warn = t.warn ∧ u.out.arbiter = t.out.arbiter ∧ u.faults = t.faults ∧
    (∀ o ∈ t.store.queue, o ∈ u.store.queue) := by
  cases h with
  | same => exact ⟨rfl, rfl, rfl, fun _ => id⟩
  | ignition =>
    refine ⟨by simp [ignitionChange], by simp [ignitionChange], by simp [ignitionChange], fun o mem => ?_⟩
    have saved : o ∈ (saveTrigger (setNotice .ignition t)).store.queue := by
      rw [saveTrigger_eq]
      simp only [mem_addJob]
      exact .inl (.inl (.inl mem))
    simpa [ignitionChange] using saved
  | kneel => exact ⟨by simp, by simp, by simp, by simp⟩
  | ramp => exact ⟨by simp, by simp, by simp, by simp⟩
  | brake =>
    unfold brakeConsumers
    dsimp only
    split <;> exact ⟨by simp, by simp, by simp, by simp⟩
  | doorway k => exact ⟨by simp, by simp, by simp, by simp⟩
  | obstructed k => exact ⟨by simp, by simp, by simp, by simp⟩
  | emergency k => exact ⟨by simp, by simp, by simp, by simp⟩

/-- With no test running a return leaves the outputs. -/
theorem Returned.idle {role : Role} {old : LineState} (h : Returned role old t u) (idle : t.out.test = none) :
    u.out = t.out := by
  cases h with
  | same => rfl
  | ignition =>
    have start : (doorIgnition (saveTrigger (setNotice .ignition t))).out = t.out := by simp
    simp only [ignitionChange, Bool.false_eq_true, if_false, abortTest]
    rw [endTest_idle _ (by rw [start, idle])]
    simp
  | kneel => simp
  | ramp => simp
  | brake =>
    simp only [brakeConsumers, abortTest]
    rw [endTest_idle _ (by simpa using idle)]
    simp
  | doorway k => simp
  | obstructed k => simp
  | emergency k => simp

theorem Returned.analog {role : Role} {old : LineState} (h : Returned role old t u) (other : role ≠ .ignition) :
    u.analog = t.analog := by
  cases h with
  | same => rfl
  | ignition own => exact absurd own other
  | kneel => simp
  | ramp => simp
  | brake =>
    simp only [brakeConsumers]
    split <;> simp
  | doorway k => simp
  | obstructed k => simp
  | emergency k => simp

/-- A test that no return of an ignition line ends goes on, or ends for PARKING_BRAKE (R119). -/
theorem Returned.test {role : Role} {old : LineState} (h : Returned role old t u) (other : role ≠ .ignition) :
    u.out = t.out ∨ (u.out.test = none ∧ (t.out.test ≠ none → u.out.lastResult = .aborted .parkingBrake) ∧
      (t.out.test = none → u.out = t.out)) := by
  cases h with
  | same => exact .inl rfl
  | ignition own => exact absurd own other
  | kneel => exact .inl (by simp)
  | ramp => exact .inl (by simp)
  | brake =>
    have start : (judgePermit t).out = t.out := by simp
    unfold brakeConsumers
    dsimp only
    split
    · refine .inr ⟨abortTest_test _ _, fun run => abortTest_result _ (by rwa [start]), fun idle => ?_⟩
      rw [abortTest, endTest_idle _ (by rw [start, idle]), start]
    · exact .inl start
  | doorway k => exact .inl (by simp)
  | obstructed k => exact .inl (by simp)
  | emergency k => exact .inl (by simp)

theorem Returned.age {role : Role} {old : LineState} (h : Returned role old t u) : u.door.age = t.door.age := by
  cases h with
  | same => rfl
  | ignition => simp [ignitionChange]
  | kneel => simp
  | ramp => simp
  | brake =>
    simp only [brakeConsumers]
    split <;> simp
  | doorway k => simp
  | obstructed k => simp
  | emergency k => simp

/-! ## After all the lines -/

/-- The returns of an adoption reach neither the warnings, the arbiter nor the records. -/
theorem linesAdopted_beside (image : Mem) (s : State) :
    (linesAdopted image s).warn = s.warn ∧ (linesAdopted image s).out.arbiter = s.out.arbiter ∧
    (linesAdopted image s).faults = s.faults ∧ (∀ o ∈ s.store.queue, o ∈ (linesAdopted image s).store.queue) := by
  refine linesAdopted_induct (s := s) (image := image) (P := fun t => t.warn = s.warn ∧ t.out.arbiter = s.out.arbiter ∧ t.faults = s.faults ∧
    ∀ o ∈ s.store.queue, o ∈ t.store.queue) ⟨by simp, by simp, by simp, by simp⟩
    fun n t u _ _ before returned => ?_
  obtain ⟨warn, arbiter, faults, queue⟩ := before
  obtain ⟨warn', arbiter', faults', queue'⟩ := returned.beside
  exact ⟨warn'.trans warn, arbiter'.trans arbiter, faults'.trans faults, fun o mem => queue' o (queue o mem)⟩

theorem linesAdopted_idle (image : Mem) (idle : s.out.test = none) : (linesAdopted image s).out = s.out :=
  linesAdopted_induct (s := s) (image := image) (P := fun t => t.out = s.out) (by simp)
    fun _ _ _ _ _ before returned =>
    (returned.idle (by rw [before, idle])).trans before

theorem linesAdopted_age (image : Mem) (s : State) : (linesAdopted image s).door.age = s.door.age :=
  linesAdopted_induct (s := s) (image := image) (P := fun t => t.door.age = s.door.age) (by simp)
    fun _ _ _ _ _ before returned => returned.age.trans before

/-- No line but SENSE0 has the role IGNITION. -/
def oneIgnition (s : State) : Prop := ∀ m : Fin 32, m ≠ 0 → (lineEntry s.image m).role ≠ .ignition

theorem linesAdopted_analog (image : Mem) (one : oneIgnition s) : (linesAdopted image s).analog = s.analog :=
  linesAdopted_induct (s := s) (image := image) (P := fun t => t.analog = s.analog) (by simp)
    fun n _ _ _ returns before returned =>
    (returned.analog (one n returns.1)).trans before

/-- The return of an ACTIVE PARKING_BRAKE ends a running test (R119). -/
theorem linesAdopted_brake (one : oneIgnition s) (returns : lineReturns s image n)
    (role : (lineEntry s.image n).role = .parkingBrake) (active : lineState s n = .active) (run : s.out.test ≠ none) :
    (linesAdopted image s).out.test = none ∧ (linesAdopted image s).out.lastResult = .aborted .parkingBrake := by
  refine linesAdopted_after (s := s) (image := image) (P := fun t => t.out.test ≠ none ∨ t.out.lastResult = .aborted .parkingBrake)
    (Q := fun t => t.out.test = none ∧ t.out.lastResult = .aborted .parkingBrake) (.inl (by simpa using run))
    (fun n t u _ returns before returned => ?_) returns (fun t _ before => ?_) fun n t u _ returns ended returned => ?_
  · obtain same | ⟨-, ends, idles⟩ := returned.test (one n returns.1)
    · rw [same]
      exact before
    · by_cases idle : t.out.test = none
      · rw [idles idle]
        exact before
      · exact .inr (ends idle)
  · have start : (judgePermit t).out = t.out := by simp
    have was : s.sense.lines[n].debounced = .active := active
    rw [deliverAdopted, if_pos role, was, brakeConsumers, if_pos rfl]
    refine ⟨abortTest_test _ _, ?_⟩
    by_cases idle : t.out.test = none
    · rw [abortTest, endTest_idle _ (by rw [start, idle]), start]
      exact before.resolve_left (not_not.mpr idle)
    · exact abortTest_result _ (by rwa [start])
  · rw [returned.idle ended.1]
    exact ended

end Lines

end Sys2Proof.Proofs

/-! What an adoption leaves of the window: its slot, and what its blocks reach (R169, R171). -/

namespace Sys2Proof.Proofs

open Sys2Proof Sys2Proof.Machine Sys2Proof.Safety

/-! ## A slot that no test names -/

/-- A slot that no window test in flight names stays, and none names it. -/
def SlotSpared (n : Fin 8) (s t : State) : Prop :=
  s.win.ops.test ≠ .slot n → t.win.slots[n] = s.win.slots[n] ∧ t.win.ops.test ≠ .slot n

section Spared

variable {n : Fin 8} {s t u : State}

theorem SlotSpared.trans (h : SlotSpared n s t) (g : SlotSpared n t u) : SlotSpared n s u := fun free => by
  obtain ⟨slot, op⟩ := h free
  obtain ⟨slot', op'⟩ := g op
  exact ⟨slot'.trans slot, op'⟩

theorem SlotSpared.same (slots : t.win.slots = s.win.slots) (op : t.win.ops = s.win.ops) : SlotSpared n s t :=
  fun free => ⟨by rw [slots], by rwa [op]⟩

theorem deliverWindow_spared {k : Operation} (r : Result) (d : Byte) (none : s.win.ops.get k ≠ .slot n) :
    (deliverWindow k r d s).win.slots[n] = s.win.slots[n] := by
  unfold deliverWindow
  cases op : s.win.ops.get k with
  | slot m =>
    have apart : n ≠ m := fun e => none (by rw [op, e])
    exact (finishSlot_other apart r d s).1
  | idle => rfl
  | orphan => rfl

theorem endTest_spared (n : Fin 8) (r : Option AbortReason) (s : State) : SlotSpared n s (endTest r s) := by
  intro free
  refine ⟨?_, ?_⟩
  · cases run : s.out.test with
    | none => rw [endTest_idle r run]
    | some x =>
      have none : (testDropped r s).win.ops.get .test ≠ .slot n := by rw [testDropped_ops]; exact free
      rw [endTest_eq r run]
      cases x.side with
      | workshop => simp [deliver, testDropped_slots]
      | window =>
        exact (deliverWindow_spared _ _ none).trans (by rw [testDropped_slots])
  · obtain e | e := (endTest_reach r s).op <;> rw [e]
    · exact free
    · simp

theorem slotSpared_steps (n : Fin 8) : JudgeSteps (SlotSpared n) where
  refl _ := .same rfl rfl
  trans := .trans
  set w x s := .same (by simp) (by simp)
  onset w s := by
    have begun : SlotSpared n s (onsetBegun w s) := .same (by simp) (by simp)
    rw [onset_eq]
    split
    · exact begun.trans (endTest_spared n _ _)
    · exact begun
  leave w s := .same (by simp) (by simp)
  restate w x s := .same (by simp) (by simp)

theorem Returned.spared {role : Role} {old : LineState} (h : Returned role old t u) : SlotSpared n t u := by
  cases h with
  | same => exact .same rfl rfl
  | ignition =>
    have first : SlotSpared n t (doorIgnition (saveTrigger (setNotice .ignition t))) := .same (by simp) (by simp)
    refine (first.trans (endTest_spared n (some .ignitionOff) _)).trans ?_
    exact .same (by simp [ignitionChange, abortTest]) (by simp [ignitionChange, abortTest])
  | kneel => exact .same (by simp) (by simp)
  | ramp => exact .same (by simp) (by simp)
  | brake =>
    have first : SlotSpared n t (judgePermit t) := .same (by simp) (by simp)
    unfold brakeConsumers
    dsimp only
    split
    · exact first.trans (endTest_spared n _ _)
    · exact first
  | doorway k => exact .same (by simp) (by simp)
  | obstructed k => exact .same (by simp) (by simp)
  | emergency k => exact .same (by simp) (by simp)

theorem linesAdopted_spared (n : Fin 8) (image : Mem) (s : State) : SlotSpared n s (linesAdopted image s) :=
  linesAdopted_induct (s := s) (image := image) (P := fun t => SlotSpared n s t) (.same (by simp) (by simp))
    fun _ _ _ _ _ before returned => before.trans returned.spared

end Spared

/-! ## The blocks, one after the other -/

/-- The state with the new image in force, the lines having returned. -/
def imageInstalled (image : Mem) (s : State) : State := installImage image (linesAdopted image s)

/-- The state after the doorways and the channels have taken the new image. -/
def unitsAdopted (image : Mem) (s : State) : State := adoptAnalog s.image (adoptDoors s.image (imageInstalled image s))

/-- The state before the warnings are judged afresh. -/
def warningsCleared (image : Mem) (s : State) : State := judgeGauges (clearWarnings s.image (unitsAdopted image s))

theorem adoptImage_eq (image : Mem) (s : State) : adoptImage image s = judgeAll (warningsCleared image s) := rfl

section Blocks

variable (image : Mem) (s : State)

theorem clearWarnings_spared (n : Fin 8) (m : Mem) (s : State) : SlotSpared n s (judgeGauges (clearWarnings m s)) :=
  .same (by simp) (by simp)

theorem adoptImage_spared (n : Fin 8) : SlotSpared n s (adoptImage image s) := by
  have units : SlotSpared n (linesAdopted image s) (unitsAdopted image s) :=
    .same (by simp [unitsAdopted, imageInstalled]) (by simp [unitsAdopted, imageInstalled])
  rw [adoptImage_eq]
  exact (((linesAdopted_spared n image s).trans units).trans (clearWarnings_spared n _ _)).trans
    ((slotSpared_steps n).judgeAll _)

theorem adoptDoors_reach (m : Mem) (s : State) : Reach [] eventNotices s (adoptDoors m s) := by
  have first : Reach [] eventNotices s (judgeRamp (judgeKneel ((List.finRange 4).foldl (adoptDoorway m) s))) :=
    .plain (by simp)
  exact (first.trans (judgeCycle_reach _)).trans (judgePermit_reach _)

theorem adoptImage_reach : Reach [] eventNotices s (adoptImage image s) := by
  have lines : Reach [] eventNotices s (linesAdopted image s) := by
    refine Reach.trans (.plain (by simp)) (adoptedLines_reach s.sense.lines (adoptLines image s))
  have install : Reach [] eventNotices (linesAdopted image s) (imageInstalled image s) := .plain (by simp [imageInstalled])
  have units : Reach [] eventNotices (imageInstalled image s) (unitsAdopted image s) :=
    (adoptDoors_reach s.image _).trans (.plain (by simp [unitsAdopted]))
  have cleared : Reach [] eventNotices (unitsAdopted image s) (warningsCleared image s) :=
    .plain (by simp [warningsCleared])
  rw [adoptImage_eq]
  exact (((lines.trans install).trans units).trans cleared).trans
    ((judgeAll_reach _).mono (by simp) (by simp [eventNotices, testNotices]))

end Blocks

end Sys2Proof.Proofs

/-! The doorways at an adoption (R72, R75, R88). -/

namespace Sys2Proof.Proofs

open Sys2Proof Sys2Proof.Machine Sys2Proof.Safety

/-! ## A doorway and its overlays -/

/-- A doorway but for its overlays. -/
def bareDoorway (d : Doorway) : Doorway := { d with obstructed := false, emergency := false }

/-- A doorway with the overlays that its lines give (R75). -/
def overlaid (s : State) (k : Fin 4) (d : Doorway) : Doorway :=
  { d with obstructed := roleActive s (.edge k), emergency := roleActive s (.emergency k) }

theorem overlaid_bare (s : State) (k : Fin 4) (d : Doorway) : overlaid s k (bareDoorway d) = overlaid s k d := rfl

theorem bare_combo (d : Doorway) : (bareDoorway d).combo = d.combo := rfl

theorem take_bare (d : Doorway) (now limit : Nat) (c : Combo) :
    bareDoorway (d.take now limit c) = (bareDoorway d).take now limit c := by
  cases c with
  | travel =>
    by_cases moves : d.state = .moving ∨ d.state = .stalled
    · simp only [Doorway.take, bareDoorway, if_pos moves]
      exact (if_pos moves).symm
    · simp only [Doorway.take, bareDoorway, if_neg moves]
      exact (if_neg moves).symm
  | fault => rfl
  | shut => rfl
  | full => rfl
  | both => rfl

/-- A doorway whose combination is judged. -/
def wayJudged (now limit : Nat) (c : Combo) (d : Doorway) : Doorway := if c ≠ d.combo then d.take now limit c else d

theorem wayJudged_bare (now limit : Nat) (c : Combo) (d : Doorway) :
    bareDoorway (wayJudged now limit c d) = wayJudged now limit c (bareDoorway d) := by
  unfold wayJudged
  rw [bare_combo]
  split
  · exact take_bare _ _ _ _
  · rfl

theorem wayJudged_lost (now limit : Nat) (d : Doorway) : bareDoorway (wayJudged now limit .fault d) =
    if d.combo ≠ .fault then Doorway.reset else bareDoorway d := by
  unfold wayJudged
  by_cases lost : d.combo = .fault
  · rw [if_neg (by simp [lost]), if_neg (by simp [lost])]
  · rw [if_pos (Ne.symm lost), if_pos lost]
    rfl

/-! ## The doorways through the returns of the lines -/

section Returns

variable {s t u : State} {image : Mem} {n : Fin 32}

theorem moveDoorway_ways (k : Fin 4) (d : Doorway) (s : State) :
    (moveDoorway k d s).door.doorways = s.door.doorways.set k.val d k.isLt := by
  rw [moveDoorway_door]
  rfl

theorem ways_set_other {k j : Fin 4} (other : j ≠ k) (d : Doorway) (v : Vector Doorway 4) :
    (v.set j.val d j.isLt)[k] = v[k] := by
  have apart : j.val ≠ k.val := fun e => other (Fin.ext e)
  simp [apart]

theorem ways_set_self (k : Fin 4) (d : Doorway) (v : Vector Doorway 4) : (v.set k.val d k.isLt)[k] = d := by simp

theorem judgeDoorway_ways (k : Fin 4) (s : State) : (judgeDoorway k s).door.doorways =
    s.door.doorways.set k.val (if doorwayPresent s.image k = true then
      wayJudged s.time.now (travelLimit s.image k) (comboNow s k) s.door.doorways[k]
    else s.door.doorways[k]) k.isLt := by
  have still : s.door.doorways = s.door.doorways.set k.val s.door.doorways[k] k.isLt := by simp
  unfold judgeDoorway wayJudged
  dsimp only
  by_cases present : doorwayPresent s.image k = true
  · by_cases changed : comboNow s k ≠ s.door.doorways[k].combo
    · rw [if_pos ⟨present, changed⟩, if_pos present, if_pos changed]
      have kept : ∀ x : State, (judgeCycle x).door.doorways = x.door.doorways := fun x => by simp
      rw [kept, moveDoorway_ways]
    · rw [if_neg fun both => changed both.2, if_pos present, if_neg changed]
      exact still
  · rw [if_neg fun both => present both.1, if_neg present]
    exact still

theorem judgeObstructed_ways (k : Fin 4) (s : State) : (judgeObstructed k s).door.doorways =
    s.door.doorways.set k.val (if doorwayPresent s.image k = true then
      { s.door.doorways[k] with obstructed := roleActive s (.edge k) } else s.door.doorways[k]) k.isLt := by
  have still : s.door.doorways = s.door.doorways.set k.val s.door.doorways[k] k.isLt := by simp
  unfold judgeObstructed
  split
  · rfl
  · exact still

theorem judgeEmergency_ways (k : Fin 4) (s : State) : (judgeEmergency k s).door.doorways =
    s.door.doorways.set k.val (if doorwayPresent s.image k = true then
      { s.door.doorways[k] with emergency := roleActive s (.emergency k) } else s.door.doorways[k]) k.isLt := by
  have still : s.door.doorways = s.door.doorways.set k.val s.door.doorways[k] k.isLt := by simp
  have flagged : ∀ (b : BitVec 8) (x : State), (recordFlag b x).door.doorways = x.door.doorways := fun b x => by
    rw [recordFlag, onRecord_door]
  unfold judgeEmergency
  dsimp only
  split
  · split
    · rw [flagged]
      rfl
    · rfl
  · exact still

/-- The switches of a doorway. -/
def switchOf (k : Fin 4) (r : Role) : Prop := r = .switchClosed k ∨ r = .openEnd k

theorem Returned.way {role : Role} {old : LineState} (h : Returned role old t u) (k : Fin 4) :
    bareDoorway u.door.doorways[k] = bareDoorway t.door.doorways[k] ∨ (switchOf k role ∧
      doorwayPresent t.image k = true ∧ u.door.doorways[k] =
        wayJudged t.time.now (travelLimit t.image k) (comboNow t k) t.door.doorways[k]) := by
  have kept : ∀ v : Vector Doorway 4, v = t.door.doorways → bareDoorway v[k] = bareDoorway t.door.doorways[k] :=
    fun v e => by rw [e]
  have put : ∀ (j : Fin 4) (d : Doorway) (v : Vector Doorway 4), v = t.door.doorways.set j.val d j.isLt →
      bareDoorway d = bareDoorway t.door.doorways[j] → bareDoorway v[k] = bareDoorway t.door.doorways[k] :=
    fun j d v e bare => by
      rw [e]
      by_cases own : j = k
      · subst own
        rw [ways_set_self, bare]
      · rw [ways_set_other own]
  cases h with
  | same => exact .inl rfl
  | ignition => exact .inl (kept _ (by simp [ignitionChange]))
  | kneel => exact .inl (kept _ (by simp))
  | ramp => exact .inl (kept _ (by simp))
  | brake =>
    refine .inl (kept _ ?_)
    unfold brakeConsumers
    dsimp only
    split <;> simp
  | doorway j own =>
    by_cases mine : j = k
    · subst mine
      by_cases present : doorwayPresent t.image j = true
      · refine .inr ⟨own, present, ?_⟩
        simp only [judgeDoorway_ways, ways_set_self, if_pos present]
      · refine .inl (put j _ _ (judgeDoorway_ways j t) ?_)
        rw [if_neg present]
    · refine .inl ?_
      simp only [judgeDoorway_ways, ways_set_other mine]
  | obstructed j =>
    refine .inl (put j _ _ (judgeObstructed_ways j t) ?_)
    split <;> rfl
  | emergency j =>
    refine .inl (put j _ _ (judgeEmergency_ways j t) ?_)
    split <;> rfl

theorem LinesStand.role (h : LinesStand s image t) (r : Role) :
    roleState t r = roleState (adoptLines image s) r :=
  roleState_congr h.sense (h.image.trans (by simp)) r

/-- The combination of a doorway one of whose switches returns to UNKNOWN. -/
theorem comboOf_unknown (c o : Option LineState) (lost : c = some .unknown ∨ o = some .unknown) :
    comboOf c o = .fault := by
  obtain rfl | rfl := lost
  · rfl
  · cases c with
    | none => rfl
    | some x => cases x <;> rfl

theorem LinesStand.lost {k : Fin 4} {r : Role} (h : LinesStand s image t) (switch : switchOf k r)
    (line : lineOfRole s.image r = some n) (returns : lineReturns s image n) : comboNow t k = .fault := by
  have own : roleState t r = some .unknown := by
    rw [roleState, h.image, line, Option.map_some, h.returned returns]
  refine comboOf_unknown _ _ ?_
  obtain rfl | rfl := switch
  · exact .inl own
  · exact .inr own

/-- A doorway none of whose switches returns stays but for its overlays. -/
theorem linesAdopted_wayKept (k : Fin 4)
    (still : ∀ n : Fin 32, switchOf k (lineEntry s.image n).role → ¬ lineReturns s image n) :
    bareDoorway (linesAdopted image s).door.doorways[k] = bareDoorway s.door.doorways[k] :=
  linesAdopted_induct (s := s) (image := image)
    (P := fun t => bareDoorway t.door.doorways[k] = bareDoorway s.door.doorways[k]) (by simp)
    fun n t u _ returns before returned =>
      (returned.way k).elim (fun same => same.trans before) fun moved => absurd returns (still n moved.1)

/-- A doorway one of whose switches returns loses its combination. -/
theorem linesAdopted_wayLost {k : Fin 4} {r : Role} (switch : switchOf k r) (line : lineOfRole s.image r = some n)
    (returns : lineReturns s image n) (present : doorwayPresent s.image k = true) :
    bareDoorway (linesAdopted image s).door.doorways[k] =
      if s.door.doorways[k].combo ≠ .fault then Doorway.reset else bareDoorway s.door.doorways[k] := by
  have twice : ∀ x : Doorway, bareDoorway x = (if s.door.doorways[k].combo ≠ .fault then Doorway.reset
      else bareDoorway s.door.doorways[k]) → x.combo = .fault := fun x e => by
    rw [← bare_combo, e]
    split
    · rfl
    next lost => exact not_not.mp lost
  have settled : ∀ (now limit : Nat) (x : Doorway), bareDoorway x = bareDoorway s.door.doorways[k] ∨
      bareDoorway x = (if s.door.doorways[k].combo ≠ .fault then Doorway.reset else bareDoorway s.door.doorways[k]) →
      bareDoorway (wayJudged now limit .fault x) =
        if s.door.doorways[k].combo ≠ .fault then Doorway.reset else bareDoorway s.door.doorways[k] := by
    intro now limit x before
    rw [wayJudged_lost]
    obtain same | lost := before
    · rw [← bare_combo x, same, bare_combo]
    · rw [if_neg (not_not.mpr (twice x lost)), lost]
  have role : (lineEntry s.image n).role = r := lineOfRole_role line
  refine linesAdopted_after (s := s) (image := image)
    (P := fun t => bareDoorway t.door.doorways[k] = bareDoorway s.door.doorways[k] ∨
      bareDoorway t.door.doorways[k] = if s.door.doorways[k].combo ≠ .fault then Doorway.reset
        else bareDoorway s.door.doorways[k])
    (Q := fun t => bareDoorway t.door.doorways[k] = if s.door.doorways[k].combo ≠ .fault then Doorway.reset
      else bareDoorway s.door.doorways[k]) (by simp) (fun m t u stand _ before returned => ?_) returns
    (fun t stand before => ?_) (fun m t u stand _ lost returned => ?_)
  · obtain same | ⟨-, -, moved⟩ := returned.way k
    · rw [same]
      exact before
    · rw [moved, stand.lost switch line returns]
      exact .inr (settled _ _ _ before)
  · have delivered : deliverAdopted (lineEntry s.image n).role s.sense.lines[n].debounced .unknown t =
        judgeDoorway k t := by
      rw [role]
      obtain rfl | rfl := switch <;> rfl
    have moved : (judgeDoorway k t).door.doorways[k] =
        wayJudged t.time.now (travelLimit t.image k) .fault t.door.doorways[k] := by
      have own := present
      rw [← stand.image] at own
      simp only [judgeDoorway_ways, ways_set_self, if_pos own, stand.lost switch line returns]
    rw [delivered, moved]
    exact settled _ _ _ before
  · obtain same | ⟨-, -, moved⟩ := returned.way k
    · rw [same, lost]
    · rw [moved, stand.lost switch line returns]
      exact settled _ _ _ (.inr lost)

end Returns

end Sys2Proof.Proofs

/-! The doorways under the image that an adoption puts in force (R72, R75, R88). -/

namespace Sys2Proof.Proofs

open Sys2Proof Sys2Proof.Machine Sys2Proof.Safety

section Adopted

variable {s t : State}

/-- A doorway under the new image; `before` is the image that was in force. -/
def wayAdopted (before : Mem) (s : State) (k : Fin 4) (d : Doorway) : Doorway :=
  if doorwayPresent s.image k = true then
    overlaid s k (wayJudged s.time.now (travelLimit s.image k) (comboNow s k)
      (if doorwayPresent before k = true then d else Doorway.reset))
  else Doorway.reset

theorem wayAdopted_congr (before : Mem) (sense : t.sense = s.sense) (image : t.image = s.image) (time : t.time = s.time)
    (k : Fin 4) (d : Doorway) : wayAdopted before t k d = wayAdopted before s k d := by
  have role : ∀ r, roleState t r = roleState s r := roleState_congr sense image
  unfold wayAdopted overlaid comboNow roleActive
  rw [image, time, role, role, role, role]

/-- The combination that a reset doorway takes, whether or not it is that of the reset. -/
theorem reset_judged (now limit : Nat) (c : Combo) :
    Doorway.reset.take now limit c = wayJudged now limit c Doorway.reset := by
  unfold wayJudged
  cases c <;> rfl

theorem overlays_ways (k : Fin 4) (present : doorwayPresent s.image k = true) :
    (judgeEmergency k (judgeObstructed k s)).door.doorways =
      s.door.doorways.set k.val (overlaid s k s.door.doorways[k]) k.isLt := by
  have first := judgeObstructed_ways k s
  rw [if_pos present] at first
  have image : (judgeObstructed k s).image = s.image := by simp
  have role : roleActive (judgeObstructed k s) (.emergency k) = roleActive s (.emergency k) := by
    rw [roleActive, roleActive, roleState_congr (u := s) (by simp) image]
  rw [judgeEmergency_ways, image, if_pos present, role, first]
  simp [overlaid]

theorem adoptDoorway_ways (before : Mem) (k : Fin 4) (s : State) : (adoptDoorway before s k).door.doorways =
    s.door.doorways.set k.val (wayAdopted before s k s.door.doorways[k]) k.isLt := by
  have overlay : ∀ (d : Doorway) (x : State), doorwayPresent s.image k = true → x.sense = s.sense →
      x.image = s.image → x.door.doorways = s.door.doorways.set k.val d k.isLt →
      (judgeEmergency k (judgeObstructed k x)).door.doorways =
        s.door.doorways.set k.val (overlaid s k d) k.isLt := by
    intro d x present sense image ways
    have role : ∀ r, roleActive x r = roleActive s r := fun r => by
      rw [roleActive, roleActive, roleState_congr sense image]
    rw [overlays_ways k (by rwa [image]), ways]
    simp [overlaid, role]
  unfold adoptDoorway wayAdopted
  by_cases present : doorwayPresent s.image k = true
  · rw [if_pos present, if_pos present]
    by_cases was : doorwayPresent before k = true
    · rw [if_pos was, if_pos was]
      dsimp only
      refine overlay _ _ present ?_ ?_ ?_
      · split <;> simp
      · split <;> simp
      · unfold wayJudged
        split
        · exact moveDoorway_ways k _ s
        · simp
    · rw [if_neg was, if_neg was, ← reset_judged]
      exact overlay _ _ present (by simp) (by simp) (moveDoorway_ways k _ s)
  · rw [if_neg present, if_neg present]
    rfl

theorem adoptDoorways_ways (before : Mem) (k : Fin 4) : ∀ (l : List (Fin 4)) (s : State), l.Nodup →
    (l.foldl (adoptDoorway before) s).door.doorways[k] =
      if k ∈ l then wayAdopted before s k s.door.doorways[k] else s.door.doorways[k]
  | [], _, _ => by simp
  | j :: l, s, nodup => by
    obtain ⟨new, rest⟩ := List.nodup_cons.mp nodup
    rw [List.foldl_cons, adoptDoorways_ways before k l (adoptDoorway before s j) rest,
      wayAdopted_congr (s := s) before (by simp) (by simp) (by simp)]
    by_cases own : j = k
    · subst own
      rw [if_neg new, if_pos List.mem_cons_self]
      simp only [adoptDoorway_ways, ways_set_self]
    · simp only [adoptDoorway_ways, ways_set_other own, List.mem_cons, Ne.symm own, false_or]

/-- The doorways and the flags after an adoption's Doorway Monitor. -/
theorem adoptDoors_ways (before : Mem) (s : State) :
    (∀ k : Fin 4, (adoptDoors before s).door.doorways[k] = wayAdopted before s k s.door.doorways[k]) ∧
    (adoptDoors before s).door.kneel = roleActive s .kneel ∧ (adoptDoors before s).door.ramp = roleActive s .ramp := by
  have kept : (adoptDoors before s).door.doorways = ((List.finRange 4).foldl (adoptDoorway before) s).door.doorways := by
    simp [adoptDoors]
  have flagged : ∀ (b : BitVec 8) (x : State), (recordFlag b x).door.kneel = x.door.kneel ∧
      (recordFlag b x).door.ramp = x.door.ramp := fun b x => by
    rw [recordFlag, onRecord_door]
    exact ⟨rfl, rfl⟩
  have kneels : ∀ x : State, (judgeKneel x).door.kneel = roleActive x .kneel := fun x => by
    unfold judgeKneel
    dsimp only
    split
    · rw [(flagged _ _).1]
      rfl
    · rfl
  have ramps : ∀ x : State, (judgeRamp x).door.ramp = roleActive x .ramp := fun x => by
    unfold judgeRamp
    dsimp only
    split
    · rw [(flagged _ _).2]
      rfl
    · rfl
  have role : ∀ (x : State) (r : Role), x.sense = s.sense → x.image = s.image → roleActive x r = roleActive s r :=
    fun x r sense image => by rw [roleActive, roleActive, roleState_congr sense image]
  refine ⟨fun k => ?_, ?_, ?_⟩
  · simp only [kept]
    rw [adoptDoorways_ways before k _ s (List.nodup_finRange 4), if_pos (List.mem_finRange k)]
  · have own : (adoptDoors before s).door.kneel =
        (judgeKneel ((List.finRange 4).foldl (adoptDoorway before) s)).door.kneel := by simp [adoptDoors]
    rw [own, kneels]
    exact role _ _ (by simp) (by simp)
  · have own : (adoptDoors before s).door.ramp =
        (judgeRamp (judgeKneel ((List.finRange 4).foldl (adoptDoorway before) s))).door.ramp := by simp [adoptDoors]
    rw [own, ramps]
    exact role _ _ (by simp) (by simp)

end Adopted

end Sys2Proof.Proofs

/-! The stop cycle and its record at an adoption (R76, R79, R81, R82, R88). -/

namespace Sys2Proof.Proofs

open Sys2Proof Sys2Proof.Machine Sys2Proof.Safety

/-! ## What is added to an open record -/

/-- The journal, the sequence counter and the latch stay, and an open record but for its mask and its flags. -/
structure MarksOnly (d e : DoorMonitor) : Prop where
  sequence : e.nextSequence = d.nextSequence
  journal : e.journal = d.journal
  latch : e.latch = d.latch
  stop : ∀ o, d.stop = some o → ∃ o', e.stop = some o' ∧ o'.openedAt = o.openedAt ∧
    o'.record = { o.record with mask := o'.record.mask, flags := o'.record.flags }

section Marks

variable {d e f : DoorMonitor} {s t u : State} {image : Mem}

theorem MarksOnly.same (sequence : e.nextSequence = d.nextSequence) (journal : e.journal = d.journal)
    (latch : e.latch = d.latch) (stop : e.stop = d.stop) : MarksOnly d e :=
  ⟨sequence, journal, latch, fun o is => ⟨o, stop.trans is, rfl, rfl⟩⟩

theorem MarksOnly.trans (h : MarksOnly d e) (g : MarksOnly e f) : MarksOnly d f := by
  refine ⟨g.sequence.trans h.sequence, g.journal.trans h.journal, g.latch.trans h.latch, fun o is => ?_⟩
  obtain ⟨p, isP, openedP, recordP⟩ := h.stop o is
  obtain ⟨q, isQ, openedQ, recordQ⟩ := g.stop p isP
  refine ⟨q, isQ, openedQ.trans openedP, ?_⟩
  rw [recordQ, recordP]

/-- A change of the open record's mask and flags alone. -/
theorem MarksOnly.record (g : StopRecord → StopRecord)
    (marks : ∀ r, g r = { r with mask := (g r).mask, flags := (g r).flags }) (x : State) :
    MarksOnly x.door (onRecord g x).door := by
  rw [onRecord_door]
  refine ⟨rfl, rfl, rfl, fun o is => ⟨{ o with record := g o.record }, ?_, rfl, marks o.record⟩⟩
  rw [is]
  rfl

theorem recordFlag_marks (b : BitVec 8) (x : State) : MarksOnly x.door (recordFlag b x).door :=
  .record _ (fun _ => rfl) x

theorem moveDoorway_marks (k : Fin 4) (w : Doorway) (x : State) : MarksOnly x.door (moveDoorway k w x).door := by
  have put : MarksOnly x.door (setDoorway k w x).door := .same rfl rfl rfl rfl
  unfold moveDoorway
  dsimp only
  split
  · exact put.trans (.record _ (fun _ => rfl) _)
  · exact put

theorem judgeKneel_marks (x : State) : MarksOnly x.door (judgeKneel x).door := by
  unfold judgeKneel
  dsimp only
  have put : MarksOnly x.door (setDoor { x.door with kneel := roleActive x .kneel } x).door := .same rfl rfl rfl rfl
  split
  · exact put.trans (recordFlag_marks _ _)
  · exact put

theorem judgeRamp_marks (x : State) : MarksOnly x.door (judgeRamp x).door := by
  unfold judgeRamp
  dsimp only
  have put : MarksOnly x.door (setDoor { x.door with ramp := roleActive x .ramp } x).door := .same rfl rfl rfl rfl
  split
  · exact put.trans (recordFlag_marks _ _)
  · exact put

theorem judgeObstructed_marks (k : Fin 4) (x : State) : MarksOnly x.door (judgeObstructed k x).door := by
  unfold judgeObstructed
  split <;> exact .same rfl rfl rfl rfl

theorem judgeEmergency_marks (k : Fin 4) (x : State) : MarksOnly x.door (judgeEmergency k x).door := by
  unfold judgeEmergency
  dsimp only
  split
  · have put : MarksOnly x.door
        (setDoorway k { x.door.doorways[k] with emergency := roleActive x (.emergency k) } x).door :=
      .same rfl rfl rfl rfl
    split
    · exact put.trans (recordFlag_marks _ _)
    · exact put
  · exact .same rfl rfl rfl rfl

theorem adoptDoorway_marks (before : Mem) (k : Fin 4) (x : State) : MarksOnly x.door (adoptDoorway before x k).door := by
  have overlay : ∀ y : State, MarksOnly x.door y.door →
      MarksOnly x.door (judgeEmergency k (judgeObstructed k y)).door := fun y h =>
    (h.trans (judgeObstructed_marks k y)).trans (judgeEmergency_marks k _)
  unfold adoptDoorway
  split
  · split
    · refine overlay _ ?_
      dsimp only
      split
      · exact moveDoorway_marks _ _ _
      · exact .same rfl rfl rfl rfl
    · exact overlay _ (moveDoorway_marks _ _ _)
  · exact .same rfl rfl rfl rfl

theorem adoptDoorways_marks (before : Mem) (l : List (Fin 4)) (x : State) :
    MarksOnly x.door (l.foldl (adoptDoorway before) x).door :=
  List.foldlRecOn (motive := fun y : State => MarksOnly x.door y.door) _ _ (.same rfl rfl rfl rfl)
    fun _ h k _ => h.trans (adoptDoorway_marks before k _)

/-! ## A judgement at a standstill with the ignition ON -/

/-- The vehicle stands with the ignition ON. -/
def standing (s : State) : Prop := ignitionOn s = true ∧ s.pulse.motion = .standstill

/-- A stop is under way. -/
def stopOpen (s : State) : Prop := s.door.cycle = .atStop ∨ s.door.cycle = .departing

theorem judgeCycle_standing (h : standing s) : judgeCycle s =
    if anyOpen s = true then
      match s.door.cycle with
      | .outOfService => openStop s
      | .driving => openStop s
      | .arrived => openStop s
      | .atStop => s
      | .departing => setCycle .atStop s
    else
      match s.door.cycle with
      | .outOfService => setCycle .arrived s
      | .driving => setCycle .arrived s
      | .arrived => s
      | .atStop => if allClosed s = true then setCycle .departing (captureDwell s) else s
      | .departing => s := by
  obtain ⟨on, still⟩ := h
  have powered : cycleOutcome s = _ := if_neg (by simp [on])
  exact (judgeCycle_eq s).trans (powered.trans (if_neg (not_not.mpr still)))

theorem captureDwell_marks (x : State) : MarksOnly x.door (captureDwell x).door := by
  rw [captureDwell_door]
  refine ⟨rfl, rfl, rfl, fun o is => ⟨{ o with lastClose := o.record.dwell }, ?_, rfl, rfl⟩⟩
  rw [is]
  rfl

/-- A stop under way stays under way. -/
theorem judgeCycle_late (h : standing s) (late : stopOpen s) :
    stopOpen (judgeCycle s) ∧ MarksOnly s.door (judgeCycle s).door := by
  have capture : MarksOnly s.door (setCycle .departing (captureDwell s)).door :=
    (captureDwell_marks s).trans (.same rfl rfl rfl rfl)
  rw [judgeCycle_standing h]
  obtain cycle | cycle := late
  · rw [cycle]
    dsimp only
    split
    · exact ⟨.inl cycle, .same rfl rfl rfl rfl⟩
    · split
      · exact ⟨.inr rfl, capture⟩
      · exact ⟨.inl cycle, .same rfl rfl rfl rfl⟩
  · rw [cycle]
    dsimp only
    split
    · exact ⟨.inl rfl, .same rfl rfl rfl rfl⟩
    · exact ⟨.inr cycle, .same rfl rfl rfl rfl⟩

/-- The journal stays unless a stop opens with the sequence counter at 0 (R78). -/
theorem judgeCycle_journal (h : standing s) (counted : s.door.nextSequence ≠ 0 ∨ stopOpen s) :
    (judgeCycle s).door.journal = s.door.journal ∧
    ((judgeCycle s).door.nextSequence = s.door.nextSequence ∨ stopOpen (judgeCycle s)) := by
  by_cases late : stopOpen s
  · obtain ⟨still, marks⟩ := judgeCycle_late h late
    exact ⟨marks.journal, .inr still⟩
  · have number : s.door.nextSequence ≠ 0 := counted.resolve_right late
    have opened : (openStop s).door.journal = s.door.journal ∧
        ((openStop s).door.nextSequence = s.door.nextSequence ∨ stopOpen (openStop s)) := by
      refine ⟨?_, .inr (.inl rfl)⟩
      rw [openStop_door]
      exact if_neg number
    rw [judgeCycle_standing h]
    cases cycle : s.door.cycle with
    | outOfService =>
      dsimp only
      split
      · exact opened
      · exact ⟨rfl, .inl rfl⟩
    | driving =>
      dsimp only
      split
      · exact opened
      · exact ⟨rfl, .inl rfl⟩
    | arrived =>
      dsimp only
      split
      · exact opened
      · exact ⟨rfl, .inl rfl⟩
    | atStop => exact absurd (.inl cycle) late
    | departing => exact absurd (.inr cycle) late

/-- A stop opens, or stays open, where a doorway is open. -/
theorem judgeCycle_opens (h : standing s) (isOpen : anyOpen s = true) : (judgeCycle s).door.cycle = .atStop := by
  rw [judgeCycle_standing h, if_pos isOpen]
  cases cycle : s.door.cycle with
  | outOfService => rfl
  | driving => rfl
  | arrived => rfl
  | atStop => exact cycle
  | departing => rfl

/-- A stop under way with every doorway closed departs. -/
theorem judgeCycle_departs (h : standing s) (late : stopOpen s) (closed : allClosed s = true) :
    (judgeCycle s).door.cycle = .departing := by
  have shut : ¬ anyOpen s = true := fun isOpen => by simp [open_notClosed isOpen] at closed
  rw [judgeCycle_standing h, if_neg shut]
  obtain cycle | cycle := late
  · rw [cycle]
    dsimp only
    rw [if_pos closed]
    rfl
  · rw [cycle]
    exact cycle

theorem judgeCycle_waits (h : standing s) (arrived : s.door.cycle = .arrived) (shut : ¬ anyOpen s = true) :
    judgeCycle s = s := by
  rw [judgeCycle_standing h, if_neg shut, arrived]

end Marks

end Sys2Proof.Proofs

/-! The stop cycle through an adoption: the lines' returns, then the doorways under the new image (R76, R81, R88). -/

namespace Sys2Proof.Proofs

open Sys2Proof Sys2Proof.Machine Sys2Proof.Safety

section Cycle

variable {s t u : State} {image : Mem} {n : Fin 32}

theorem LinesStand.standing (h : LinesStand s image t) (stands : standing s) : standing t := by
  obtain ⟨on, still⟩ := stands
  have first : (adoptLines image s).sense.lines[(0 : Fin 32)].debounced = s.sense.lines[(0 : Fin 32)].debounced := by
    rw [adoptLines_line]
    split
    · rfl
    · simp [Line.adopted]
  refine ⟨?_, by rw [h.pulse, still]⟩
  rw [ignitionOn, h.state, first]
  exact on

/-- The Doorway Monitor before the judgement of the stop cycle that a return gives, if it gives one. -/
structure BeforeCycle (t y u : State) : Prop where
  sense : y.sense = t.sense
  pulse : y.pulse = t.pulse
  image : y.image = t.image
  ends : u.image = t.image
  doorways : y.door.doorways = u.door.doorways
  marks : MarksOnly t.door y.door
  cycle : y.door.cycle = t.door.cycle
  outcome : u.door = { y.door with dpermit := u.door.dpermit } ∨
    u.door = { (judgeCycle y).door with dpermit := u.door.dpermit }

theorem BeforeCycle.quiet (sense : u.sense = t.sense) (pulse : u.pulse = t.pulse) (image : u.image = t.image)
    (marks : MarksOnly t.door u.door) (cycle : u.door.cycle = t.door.cycle) : BeforeCycle t u u :=
  ⟨sense, pulse, image, image, rfl, marks, cycle, .inl rfl⟩

theorem Returned.judged {role : Role} {old : LineState} (h : Returned role old t u) : ∃ y, BeforeCycle t y u := by
  cases h with
  | same => exact ⟨t, .quiet rfl rfl rfl (.same rfl rfl rfl rfl) rfl⟩
  | ignition =>
    have door : (ignitionChange false t).door = (doorIgnition (saveTrigger (setNotice .ignition t))).door := by
      simp [ignitionChange]
    have start : (saveTrigger (setNotice .ignition t)).door = t.door := by simp
    refine ⟨saveTrigger (setNotice .ignition t), by simp, by simp, by simp, by simp [ignitionChange], ?_, ?_, by rw [start],
      .inr ?_⟩
    · rw [door]
      simp
    · rw [start]
      exact .same rfl rfl rfl rfl
    · rw [door]
      rfl
  | kneel => exact ⟨_, .quiet (by simp) (by simp) (by simp) (judgeKneel_marks t) (by simp)⟩
  | ramp => exact ⟨_, .quiet (by simp) (by simp) (by simp) (judgeRamp_marks t) (by simp)⟩
  | brake =>
    have door : (brakeConsumers old t).door = (judgePermit t).door := by
      unfold brakeConsumers
      dsimp only
      split <;> simp
    have sense : (brakeConsumers old t).sense = t.sense ∧ (brakeConsumers old t).pulse = t.pulse ∧
        (brakeConsumers old t).image = t.image := by
      unfold brakeConsumers
      dsimp only
      split <;> simp
    obtain ⟨sense, pulse, image⟩ := sense
    refine ⟨_, .quiet sense pulse image ?_ ?_⟩
    · rw [door]
      exact .same rfl rfl rfl rfl
    · rw [door]
      rfl
  | doorway k =>
    unfold judgeDoorway
    dsimp only
    split
    · refine ⟨moveDoorway k (t.door.doorways[k].take t.time.now (travelLimit t.image k) (comboNow t k)) t, ?_, ?_, ?_, ?_, ?_,
        moveDoorway_marks _ _ _, ?_, .inr ?_⟩
      · simp
      · simp
      · simp
      · simp
      · simp
      · simp
      · rfl
    · exact ⟨t, .quiet rfl rfl rfl (.same rfl rfl rfl rfl) rfl⟩
  | obstructed k => exact ⟨_, .quiet (by simp) (by simp) (by simp) (judgeObstructed_marks k t) (by simp)⟩
  | emergency k => exact ⟨_, .quiet (by simp) (by simp) (by simp) (judgeEmergency_marks k t) (by simp)⟩

theorem standing_congr (sense : t.sense = s.sense) (pulse : t.pulse = s.pulse) (h : standing s) : standing t := by
  obtain ⟨on, still⟩ := h
  refine ⟨?_, by rw [pulse, still]⟩
  rw [ignitionOn, lineState, sense]
  exact on

theorem BeforeCycle.late {y : State} (h : BeforeCycle t y u) (stands : standing t) (late : stopOpen t) :
    stopOpen u ∧ MarksOnly t.door u.door := by
  have stillLate : stopOpen y := by
    rw [stopOpen, h.cycle]
    exact late
  obtain judged := judgeCycle_late (standing_congr h.sense h.pulse stands) stillLate
  obtain same | same := h.outcome
  · rw [stopOpen, same]
    exact ⟨stillLate, h.marks.trans (.same rfl rfl rfl rfl)⟩
  · rw [stopOpen, same]
    exact ⟨judged.1, h.marks.trans (judged.2.trans (.same rfl rfl rfl rfl))⟩

theorem BeforeCycle.journal {y : State} (h : BeforeCycle t y u) (stands : standing t)
    (counted : t.door.nextSequence ≠ 0 ∨ stopOpen t) : u.door.journal = t.door.journal ∧
    (u.door.nextSequence = t.door.nextSequence ∨ stopOpen u) := by
  have counted' : y.door.nextSequence ≠ 0 ∨ stopOpen y := by
    rw [stopOpen, h.cycle, h.marks.sequence]
    exact counted
  obtain ⟨journal, number⟩ := judgeCycle_journal (standing_congr h.sense h.pulse stands) counted'
  rw [h.marks.journal] at journal
  rw [h.marks.sequence] at number
  obtain same | same := h.outcome
  · rw [same]
    exact ⟨h.marks.journal, .inl h.marks.sequence⟩
  · rw [stopOpen, same]
    exact ⟨journal, number⟩

theorem BeforeCycle.waits {y : State} (h : BeforeCycle t y u) (stands : standing t)
    (arrived : t.door.cycle = .arrived) (shut : ∀ k : Fin 4, notClosed u k = false) (image : u.image = t.image) :
    u.door.cycle = .arrived := by
  have closed : ¬ anyOpen y = true := by
    rw [anyOpen_iff]
    rintro ⟨k, isOpen⟩
    have same : notClosed y k = notClosed u k := by rw [notClosed, notClosed, h.image, h.doorways, image]
    rw [same, shut] at isOpen
    cases isOpen
  obtain same | same := h.outcome
  · rw [same]
    exact h.cycle.trans arrived
  · rw [same, judgeCycle_waits (standing_congr h.sense h.pulse stands) (h.cycle.trans arrived) closed]
    exact h.cycle.trans arrived

/-! ## Through the lines -/

theorem linesAdopted_late (stands : standing s) (late : stopOpen s) :
    stopOpen (linesAdopted image s) ∧ MarksOnly s.door (linesAdopted image s).door := by
  refine linesAdopted_induct (s := s) (image := image) (P := fun t => stopOpen t ∧ MarksOnly s.door t.door) ?_
    fun n t u stand _ before returned => ?_
  · rw [stopOpen, (adoptLines_frame image s).2.2.2.2.1]
    exact ⟨late, .same rfl rfl rfl rfl⟩
  · obtain ⟨y, judged⟩ := returned.judged
    obtain ⟨still, marks⟩ := judged.late (stand.standing stands) before.1
    exact ⟨still, before.2.trans marks⟩

theorem linesAdopted_journal (stands : standing s) (number : s.door.nextSequence ≠ 0) :
    (linesAdopted image s).door.journal = s.door.journal ∧
    ((linesAdopted image s).door.nextSequence ≠ 0 ∨ stopOpen (linesAdopted image s)) := by
  refine linesAdopted_induct (s := s) (image := image)
    (P := fun t => t.door.journal = s.door.journal ∧ (t.door.nextSequence ≠ 0 ∨ stopOpen t)) ?_
    fun n t u stand _ before returned => ?_
  · rw [(adoptLines_frame image s).2.2.2.2.1]
    exact ⟨rfl, .inl number⟩
  · obtain ⟨y, judged⟩ := returned.judged
    obtain ⟨journal, counts⟩ := judged.journal (stand.standing stands) before.2
    refine ⟨journal.trans before.1, ?_⟩
    by_cases late : stopOpen t
    · exact .inr (judged.late (stand.standing stands) late).1
    · exact counts.imp_left fun same => by
        rw [same]
        exact before.2.resolve_right late

theorem notClosed_bare {d e : Doorway} (h : bareDoorway d = bareDoorway e) : d.state = e.state := by
  have states : (bareDoorway d).state = (bareDoorway e).state := by rw [h]
  exact states

theorem linesAdopted_arrived (stands : standing s) (valid : imageLaw s) (arrived : s.door.cycle = .arrived)
    (shut : ∀ k : Fin 4, notClosed s k = false) : (linesAdopted image s).door.cycle = .arrived := by
  refine (linesAdopted_induct (s := s) (image := image)
    (P := fun t => t.door.cycle = .arrived ∧ ∀ k : Fin 4, notClosed t k = false) ?_
    fun n t u stand returns before returned => ?_).1
  · have door : (adoptLines image s).door = s.door := by simp
    have same : (adoptLines image s).image = s.image := by simp
    refine ⟨by rw [door, arrived], fun k => ?_⟩
    rw [notClosed, same, door]
    exact shut k
  · obtain ⟨y, judged⟩ := returned.judged
    have stays : ∀ k : Fin 4, notClosed u k = false := fun k => by
      have was := before.2 k
      rw [notClosed_eq, doorwayOpen] at was ⊢
      rw [judged.ends]
      obtain same | ⟨switch, present, moved⟩ := returned.way k
      · rw [notClosed_bare same]
        exact was
      · have line := valid_lineOfRole (r := (lineEntry s.image n).role) valid
          (by obtain e | e := switch <;> rw [e] <;> simp) (by obtain e | e := switch <;> rw [e] <;> simp) rfl
        rw [moved, stand.lost switch line returns, wayJudged]
        split
        · exact Bool.and_false _
        · exact was
    exact ⟨judged.waits (stand.standing stands) before.1 stays judged.ends, stays⟩

end Cycle

end Sys2Proof.Proofs

/-! The Doorway Monitor after an adoption (R75, R76, R81, R85, R88). -/

namespace Sys2Proof.Proofs

open Sys2Proof Sys2Proof.Machine Sys2Proof.Safety

section Doors

variable {s x : State} {image : Mem}

/-- The doorways and the flags under the new image, the stop cycle not yet judged. -/
def waysTaken (before : Mem) (x : State) : State :=
  judgeRamp (judgeKneel ((List.finRange 4).foldl (adoptDoorway before) x))

theorem adoptDoors_eq (before : Mem) (x : State) :
    adoptDoors before x = judgePermit (judgeCycle (waysTaken before x)) := rfl

theorem judgePermit_cycle (y : State) : (judgePermit y).door.cycle = y.door.cycle := rfl

theorem judgePermit_journal (y : State) : (judgePermit y).door.journal = y.door.journal := rfl

theorem judgePermit_marks (y : State) : MarksOnly y.door (judgePermit y).door := .same rfl rfl rfl rfl

theorem waysTaken_marks (before : Mem) (x : State) : MarksOnly x.door (waysTaken before x).door ∧
    (waysTaken before x).door.cycle = x.door.cycle := by
  refine ⟨?_, by simp [waysTaken]⟩
  exact ((adoptDoorways_marks before _ x).trans (judgeKneel_marks _)).trans (judgeRamp_marks _)

theorem waysTaken_standing (before : Mem) (stands : standing x) : standing (waysTaken before x) :=
  standing_congr (by simp [waysTaken]) (by simp [waysTaken]) stands

/-- A doorway is open after the judgement exactly where it is before it. -/
theorem adoptDoors_open (before : Mem) (x : State) (k : Fin 4) :
    notClosed (adoptDoors before x) k = notClosed (waysTaken before x) k := by
  have ways : (adoptDoors before x).door.doorways = (waysTaken before x).door.doorways := by
    simp [adoptDoors_eq]
  have same : (adoptDoors before x).image = (waysTaken before x).image := by simp [adoptDoors_eq]
  rw [notClosed_eq, notClosed_eq, doorwayOpen, doorwayOpen, ways, same]

theorem adoptDoors_opens (before : Mem) (stands : standing x)
    (opens : ∃ k : Fin 4, notClosed (adoptDoors before x) k = true) : (adoptDoors before x).door.cycle = .atStop := by
  rw [adoptDoors_eq, judgePermit_cycle]
  refine judgeCycle_opens (waysTaken_standing before stands) ((anyOpen_iff _).mpr ?_)
  obtain ⟨k, isOpen⟩ := opens
  exact ⟨k, (adoptDoors_open before x k).symm.trans isOpen⟩

theorem waysTaken_late (before : Mem) (late : stopOpen x) : stopOpen (waysTaken before x) := by
  rw [stopOpen, (waysTaken_marks before x).2]
  exact late

theorem adoptDoors_departs (before : Mem) (stands : standing x) (late : stopOpen x)
    (closed : ∀ k : Fin 4, doorwayPresent x.image k = true → (adoptDoors before x).door.doorways[k].state = .closed) :
    (adoptDoors before x).door.cycle = .departing := by
  rw [adoptDoors_eq, judgePermit_cycle]
  refine judgeCycle_departs (waysTaken_standing before stands) (waysTaken_late before late) ((allClosed_iff _).mpr ?_)
  intro k present
  have same : (waysTaken before x).image = x.image := by simp [waysTaken]
  have ways : (adoptDoors before x).door.doorways = (waysTaken before x).door.doorways := by
    simp [adoptDoors_eq]
  rw [same] at present
  have own := closed k present
  simp only [ways] at own
  exact own

theorem adoptDoors_waits (before : Mem) (stands : standing x) (arrived : x.door.cycle = .arrived)
    (shut : ∀ k : Fin 4, notClosed (adoptDoors before x) k = false) :
    (adoptDoors before x).door.cycle = .arrived := by
  have closed : ¬ anyOpen (waysTaken before x) = true := by
    rw [anyOpen_iff]
    rintro ⟨k, isOpen⟩
    rw [← adoptDoors_open, shut] at isOpen
    cases isOpen
  have arrives := (waysTaken_marks before x).2.trans arrived
  have stays := judgeCycle_waits (waysTaken_standing before stands) arrives closed
  rw [adoptDoors_eq, judgePermit_cycle, stays, arrives]

theorem adoptDoors_marks (before : Mem) (stands : standing x) (late : stopOpen x) :
    MarksOnly x.door (adoptDoors before x).door := by
  have judged := (judgeCycle_late (waysTaken_standing before stands) (waysTaken_late before late)).2
  rw [adoptDoors_eq]
  exact ((waysTaken_marks before x).1.trans judged).trans (judgePermit_marks _)

theorem adoptDoors_journal (before : Mem) (stands : standing x) (counted : x.door.nextSequence ≠ 0 ∨ stopOpen x) :
    (adoptDoors before x).door.journal = x.door.journal := by
  obtain ⟨marks, cycle⟩ := waysTaken_marks before x
  have counted' : (waysTaken before x).door.nextSequence ≠ 0 ∨ stopOpen (waysTaken before x) := by
    rw [stopOpen, cycle, marks.sequence]
    exact counted
  rw [adoptDoors_eq, judgePermit_journal]
  exact (judgeCycle_journal (waysTaken_standing before stands) counted').1.trans marks.journal

theorem adoptDoors_permit (before : Mem) (x : State) :
    (adoptDoors before x).door.dpermit = permitJudged (adoptDoors before x) := by
  rw [adoptDoors_eq]
  exact judgePermit_permit _

/-! ## From the state before the adoption -/

theorem imageInstalled_door (image : Mem) (s : State) : (imageInstalled image s).door = (linesAdopted image s).door := rfl

theorem imageInstalled_standing (image : Mem) (stands : standing s) : standing (imageInstalled image s) :=
  standing_congr (t := imageInstalled image s) (s := linesAdopted image s) rfl rfl
    ((linesAdopted_stand image s).standing stands)

/-- The Doorway Monitor after an adoption: the stop cycle, its record, the journal and the permit. -/
theorem doorsAdopted_cycle (image : Mem) (stands : standing s) :
    let t := adoptDoors s.image (imageInstalled image s)
    ((∃ k : Fin 4, notClosed t k = true) → t.door.cycle = .atStop) ∧
    (stopOpen s → (∀ k : Fin 4, doorwayPresent image k = true → t.door.doorways[k].state = .closed) →
      t.door.cycle = .departing) ∧
    (imageLaw s → s.door.cycle = .arrived → (∀ k : Fin 4, notClosed s k = false) →
      (∀ k : Fin 4, notClosed t k = false) → t.door.cycle = .arrived) ∧
    (s.door.nextSequence ≠ 0 → t.door.journal = s.door.journal) ∧
    (stopOpen s → MarksOnly s.door t.door) := by
  have installed := imageInstalled_standing image stands
  have door := imageInstalled_door image s
  have late : stopOpen s → stopOpen (imageInstalled image s) := fun h => by
    rw [stopOpen, door]
    exact (linesAdopted_late stands h).1
  refine ⟨adoptDoors_opens _ installed, fun h closed => adoptDoors_departs _ installed (late h) closed,
    fun valid arrived shut closed => adoptDoors_waits _ installed ?_ closed, fun number => ?_, fun h => ?_⟩
  · rw [door]
    exact linesAdopted_arrived stands valid arrived shut
  · obtain ⟨journal, counted⟩ := linesAdopted_journal (image := image) stands number
    refine (adoptDoors_journal _ installed ?_).trans (by rw [door, journal])
    rw [stopOpen, door]
    exact counted
  · refine (linesAdopted_late (image := image) stands h).2.trans ?_
    rw [← door]
    exact adoptDoors_marks _ installed (late h)

end Doors

end Sys2Proof.Proofs

/-! The warnings at an adoption: each returns to INACTIVE and is judged afresh (R106, R109, R130). -/

namespace Sys2Proof.Proofs

open Sys2Proof Sys2Proof.Machine Sys2Proof.Safety

section Warnings

variable {s t u : State} {image : Mem}

/-! ## The warnings before the judgement -/

/-- A warning after the first two steps of an adoption (R109). -/
theorem warning_adopted (x : Warning) : x.adopted = Warning.reset := rfl

/-- The warnings of an adoption, before they are judged against the new image. -/
def freshWarnings (image : Mem) (handed : Vector (Option Handed) 8) : Vector Warning 48 :=
  Vector.ofFn fun w : Fin 48 =>
    { state := .inactive, timer := none, number := none, age := 0, onsetAt := 0
      truth := (warningDef image w).enabled && gaugeJudged (warningDef image w) handed false }

theorem clearWarnings_warn (before : Mem) (s : State) : (clearWarnings before s).warn = { s.warn with
    list := [], warnings := Vector.ofFn fun _ : Fin 48 => Warning.reset } := by
  simp [clearWarnings, warning_adopted]

/-- The gauge truths of warnings that have just returned to INACTIVE. -/
theorem judgeGauges_fresh (fresh : s.warn.warnings = Vector.ofFn fun _ : Fin 48 => Warning.reset) :
    (judgeGauges s).warn = { s.warn with warnings := freshWarnings s.image s.warn.handed } := by
  have each : ∀ w : Fin 48, (if (warningDef s.image w).enabled = true then
      { Warning.reset with truth := gaugeTruth (warningDef s.image w) s.warn.handed Warning.reset.truth }
      else Warning.reset) =
      { state := .inactive, timer := none, number := none, age := 0, onsetAt := 0
        truth := (warningDef s.image w).enabled && gaugeJudged (warningDef s.image w) s.warn.handed false } := fun w => by
    rw [gaugeTruth_eq]
    cases (warningDef s.image w).enabled <;> rfl
  have judged : (judgeGauges s).warn.warnings = freshWarnings s.image s.warn.handed := by
    ext w below
    simp only [judgeGauges, fresh, freshWarnings, Vector.getElem_ofFn, Fin.getElem_fin]
    exact each ⟨w, below⟩
  rw [← judged]
  rfl

theorem warningsCleared_warn (image : Mem) (s : State) : (warningsCleared image s).warn = { s.warn with
    list := [], warnings := freshWarnings image s.warn.handed } := by
  have units : (unitsAdopted image s).warn = s.warn := by
    simp [unitsAdopted, imageInstalled, (linesAdopted_beside image s).1]
  have new : (clearWarnings s.image (unitsAdopted image s)).image = image := by
    simp [unitsAdopted, imageInstalled, installImage]
  rw [warningsCleared, judgeGauges_fresh (by rw [clearWarnings_warn]), new, clearWarnings_warn, units]

/-! ## The repeat and the records -/

theorem Quieted.more {now : Nat} {moved : Prop} (h : Quieted now moved s t) (arbiter : u.out.arbiter = t.out.arbiter)
    (calls : stopCalls u ↔ stopCalls t) : Quieted now moved s u :=
  (h.trans (Quieted.beside (now := now) calls arbiter)).iff (by simp)

theorem Deactivated.more {left : Fin 48 → Prop} (h : Deactivated left s t) (faults : u.faults = t.faults)
    (jobs : ∀ o ∈ t.store.queue, o ∈ u.store.queue) : Deactivated left s u := by
  obtain ⟨each, gone, kept, queue, views⟩ := h
  refine ⟨fun j => by rw [faults]; exact each j, fun w j q isLeft held code unique => ?_, fun j other => ?_,
    fun o mem => jobs o (queue o mem), by rw [faults]; exact views⟩
  · obtain ⟨now, job⟩ := gone w j q isLeft held code unique
    rw [faults]
    exact ⟨now, fun active => ⟨jobs _ (job active).1, (job active).2⟩⟩
  · rw [faults]
    exact kept j other

/-- The records of the listed warnings become PASSIVE, in the order of the list. -/
theorem returnAll_returns (before : Mem) : ∀ (l : List (Fin 48)) (s : State),
    Deactivated (fun w => w ∈ l ∧ (warningDef before w).record = true) s
      (l.foldl (fun s w => if (warningDef before w).record then returnInactive w s else s) s)
  | [], _ => Deactivated.refl.iff (by simp)
  | v :: l, s => by
    have first : Deactivated (fun w => w = v ∧ (warningDef before w).record = true) s
        (if (warningDef before v).record then returnInactive v s else s) := by
      split
      next record =>
        refine (returnInactive_returns v s).iff fun w => ⟨fun own => ⟨own, own ▸ record⟩, And.left⟩
      next none => exact Deactivated.refl.iff fun w => ⟨False.elim, fun own => none (own.1 ▸ own.2)⟩
    exact (first.trans (returnAll_returns before l _)).iff fun w => by rw [List.mem_cons, or_and_right]

theorem clearWarnings_returns (before : Mem) (s : State) :
    Deactivated (fun w => w ∈ s.warn.list ∧ (warningDef before w).record = true) s (clearWarnings before s) :=
  (returnAll_returns before s.warn.list s).more (by simp [clearWarnings]) (by simp [clearWarnings])

/-- The state of an adoption once every warning is INACTIVE, the repeat not yet followed. -/
def warningsReturned (before : Mem) (s : State) : State :=
  let s1 := s.warn.list.foldl (fun s w => if (warningDef before w).record then returnInactive w s else s) s
  { s1 with warn := { s1.warn with
    warnings := Vector.ofFn fun w => s1.warn.warnings[w].adopted
    list := [] } }

theorem clearWarnings_eq (before : Mem) (s : State) : clearWarnings before s = syncRepeat (warningsReturned before s) :=
  rfl

theorem warningsReturned_calls (before : Mem) (s : State) : ¬ stopCalls (warningsReturned before s) := by
  rintro ⟨w, active, -⟩
  simp [warningsReturned, warning_adopted, Warning.reset] at active

theorem clearWarnings_follows (before : Mem) (s : State) :
    repeatFollows s.time.now False s.out.arbiter (clearWarnings before s).out.arbiter := by
  have follows := syncRepeat_follows (warningsReturned before s)
  have time : (warningsReturned before s).time = s.time := by simp [warningsReturned]
  have arbiter : (warningsReturned before s).out = s.out := by simp [warningsReturned]
  rwa [time, arbiter, eq_false (warningsReturned_calls before s), ← clearWarnings_eq] at follows

/-! ## The judgement -/

theorem warningsCleared_calm (image : Mem) (s : State)
    (calm : ∀ w : Fin 48, (adoptImage image s).warn.warnings[w].state ≠ .activeUnack) :
    Quieted s.time.now True s (adoptImage image s) ∧
    Deactivated (fun w => w ∈ s.warn.list ∧ (warningDef s.image w).record = true) s (adoptImage image s) := by
  obtain ⟨warn, arbiter, faults, queue⟩ := linesAdopted_beside image s
  have units : (unitsAdopted image s).warn = s.warn ∧ (unitsAdopted image s).out.arbiter = s.out.arbiter ∧
      (unitsAdopted image s).faults = s.faults ∧
      (unitsAdopted image s).store.queue = (linesAdopted image s).store.queue ∧
      (unitsAdopted image s).time = s.time := by
    simp [unitsAdopted, imageInstalled, warn, arbiter, faults, (linesAdopted_stand image s).time]
  obtain ⟨unitsWarn, unitsArbiter, unitsFaults, unitsQueue, time⟩ := units
  have states : ∀ w : Fin 48, (warningsCleared image s).warn.warnings[w].state = .inactive := fun w => by
    rw [warningsCleared, judgeGauges_state, clearWarnings_inactive]
  rw [adoptImage_eq] at calm ⊢
  obtain ⟨quiet, returns⟩ := judgeAll_calm (x := warningsCleared image s) fun w active => absurd active (calm w)
  have silent : ¬ stopCalls (judgeAll (warningsCleared image s)) := fun ⟨w, active, _⟩ => calm w active
  have cleared : (warningsCleared image s).out = (clearWarnings s.image (unitsAdopted image s)).out ∧
      (warningsCleared image s).faults = (clearWarnings s.image (unitsAdopted image s)).faults ∧
      (warningsCleared image s).store = (clearWarnings s.image (unitsAdopted image s)).store ∧
      (warningsCleared image s).time = s.time := by
    simp [warningsCleared, time]
  obtain ⟨out, records, store, now⟩ := cleared
  have follows := clearWarnings_follows s.image (unitsAdopted image s)
  rw [time, unitsArbiter, ← out] at follows
  have stays : (judgeAll (warningsCleared image s)).out.arbiter = (warningsCleared image s).out.arbiter := by
    by_cases sounding : (warningsCleared image s).out.arbiter.repeatTimer = none
    · refine quiet.silent sounding fun ⟨w, active, _⟩ => ?_
      rw [states w] at active
      cases active
    · refine quiet.sounds sounding (.inl fun ⟨w, listed, _⟩ => ?_)
      rw [states w] at listed
      cases listed
  refine ⟨.follow (fun c => absurd c silent) ?_, ?_⟩
  · rw [stays, eq_false silent]
    exact follows
  · have before : Deactivated (fun _ => False) s (unitsAdopted image s) :=
      Deactivated.refl.more unitsFaults fun o mem => by
        rw [unitsQueue]
        exact queue o mem
    have listed := clearWarnings_returns s.image (unitsAdopted image s)
    rw [unitsWarn] at listed
    have toCleared := (before.trans listed).more records fun o mem => by rwa [store]
    refine (toCleared.trans returns).iff fun w => ?_
    rw [states w]
    simp [endsListed, WarnState.listed]

end Warnings

end Sys2Proof.Proofs

/-! What an adoption makes of the state, part by part (R11, R69, R88, R109, R169, R171). -/

namespace Sys2Proof.Proofs

open Sys2Proof Sys2Proof.Machine Sys2Proof.Safety

/-! ## The staged image -/

/-- A byte written outside a slice does not reach it. -/
theorem slice_write (m : Mem) (v : Byte) {a base size : Nat} (outside : a < base ∨ base + size ≤ a) :
    (m.write a v).slice base size = m.slice base size := by
  have dropped : ∀ (w : Byte) (l : Mem), List.filter (fun c : Host.Cell => decide (base ≤ c.1 ∧ c.1 < base + size))
      ((a, w) :: l) = List.filter (fun c : Host.Cell => decide (base ≤ c.1 ∧ c.1 < base + size)) l := fun w l =>
    List.filter_cons_of_neg (by
      rw [decide_eq_true_eq]
      omega)
  have filtered : List.filter (fun c : Host.Cell => decide (base ≤ c.1 ∧ c.1 < base + size)) (m.write a v) =
      List.filter (fun c : Host.Cell => decide (base ≤ c.1 ∧ c.1 < base + size)) m := by
    induction m with
    | nil =>
      unfold Mem.write
      split
      · rfl
      · exact dropped v []
    | cons c m ih =>
      obtain ⟨b, w⟩ := c
      unfold Mem.write
      split
      · split
        · rfl
        · exact dropped v _
      · split
        next same =>
          subst same
          rw [dropped w]
          split
          · rfl
          · exact dropped v m
        · rw [List.filter_cons, List.filter_cons, ih]
  unfold Mem.slice
  rw [filtered]

section Adopted

variable {s : State} {i : Nat} {n : Fin 8}

theorem beginTake_staging (s : State) (i : Nat) (n : Fin 8) :
    stagingImage (beginTake i n s) = s.win.ram.slice 0x0400 2048 := by
  have low : slotBase n + 4 < 0x0400 := by
    have := n.isLt
    unfold slotBase
    omega
  rw [stagingImage, beginTake_ram, slice_write _ _ (.inl low), slice_write _ _ (.inl (by omega))]
  rfl

end Adopted

end Sys2Proof.Proofs

/-! The state after an adoption that passed its checks (R11, R69, R88, R109, R169, R171). -/

namespace Sys2Proof.Proofs

open Sys2Proof Sys2Proof.Machine Sys2Proof.Safety

section Done

variable {b : State} {image : Mem} {n : Fin 8}

/-- The state after an adoption, its slot in flight, the images not yet rewritten. -/
def adoptionDone (n : Fin 8) (image : Mem) (b : State) : State :=
  setWindowOp .adopt (.slot n) (enqueue .configuration { adoptImage image b with
    win := { (adoptImage image b).win with adoption := some { side := .window, started := false } } })

/-- What the job and the slot's operation leave of the blocks. -/
theorem adoptionDone_blocks (n : Fin 8) (image : Mem) (b : State) :
    let t := adoptionDone n image b
    let u := adoptImage image b
    t.time = u.time ∧ t.sense = u.sense ∧ t.pulse = u.pulse ∧ t.dist = u.dist ∧ t.analog = u.analog ∧ t.door = u.door ∧
    t.warn = u.warn ∧ t.out = u.out ∧ t.faults = u.faults ∧ t.link = u.link ∧ t.image = u.image ∧
    t.pending = u.pending ∧ t.store.array = u.store.array ∧ t.store.job = u.store.job ∧
    t.store.notRetained = u.store.notRetained := by
  simp [adoptionDone]

theorem adoptionDone_window (n : Fin 8) (image : Mem) (b : State) :
    let t := adoptionDone n image b
    let u := adoptImage image b
    t.win.adoption = some { side := .window, started := false } ∧ t.win.ops.adopt = .slot n ∧
    t.win.ops.test = u.win.ops.test ∧
    t.win.source = u.win.source ∧ t.win.slots = u.win.slots ∧ t.win.attention = u.win.attention ∧
    t.win.claims = u.win.claims ∧ t.win.ram = u.win.ram ∧ t.win.notice = u.win.notice := by
  simp [adoptionDone, setWindowOp, WindowOps.put]

theorem adoptionDone_queue (n : Fin 8) (image : Mem) (b : State) :
    Object.configuration ∈ (adoptionDone n image b).store.queue ∧
    ∀ o ∈ (adoptImage image b).store.queue, o ∈ (adoptionDone n image b).store.queue := by
  have queue : (adoptionDone n image b).store.queue = addJob (adoptImage image b).store.queue .configuration := by
    simp [adoptionDone, enqueue_store]
  rw [queue]
  exact ⟨mem_addJob.mpr (.inr rfl), fun o mem => mem_addJob.mpr (.inl mem)⟩

/-! ## The blocks -/

theorem adoptImage_blocks (image : Mem) (b : State) :
    (adoptImage image b).image = image ∧ (adoptImage image b).win.source = .adopted ∧
    (adoptImage image b).sense = (adoptLines image b).sense ∧
    (adoptImage image b).door = (adoptDoors b.image (imageInstalled image b)).door ∧
    (adoptImage image b).analog = (unitsAdopted image b).analog := by
  have sense := (linesAdopted_stand image b).sense
  refine ⟨?_, ?_, ?_, ?_, ?_⟩
  · simp [adoptImage, installImage]
  · simp [adoptImage, installImage]
  · rw [← sense]
    simp [adoptImage_eq, warningsCleared, unitsAdopted, imageInstalled]
  · simp [adoptImage_eq, warningsCleared, unitsAdopted]
  · simp [adoptImage_eq, warningsCleared]

/-- The channels: a sender whose entry changed starts afresh but for its group (R69). -/
theorem unitsAdopted_analog (image : Mem) (one : oneIgnition b) : (unitsAdopted image b).analog = { b.analog with
    channels := Vector.ofFn fun c : Fin 6 =>
      let x := b.analog.channels[c]
      if h : c.val < 5 then
        if senderEntry b.image ⟨c.val, h⟩ = senderEntry image ⟨c.val, h⟩ then x
        else
          { sum := x.sum, count := x.count, late := x.late, mean := none, x := none, y := none
            status := .invalid, fault := false, hold := none, quick := 0 }
      else x } := by
  have start : (adoptDoors b.image (imageInstalled image b)).analog = b.analog := by
    simp [imageInstalled, linesAdopted_analog image one]
  have new : (adoptDoors b.image (imageInstalled image b)).image = image := by
    simp [imageInstalled, installImage]
  have own : ∀ x : State, (adoptAnalog b.image x).analog = { x.analog with
      channels := Vector.ofFn fun c : Fin 6 =>
        let y := x.analog.channels[c]
        if h : c.val < 5 then
          if senderEntry b.image ⟨c.val, h⟩ = senderEntry x.image ⟨c.val, h⟩ then y
          else
            { sum := y.sum, count := y.count, late := y.late, mean := none, x := none, y := none
              status := .invalid, fault := false, hold := none, quick := 0 }
        else y } := fun _ => rfl
  rw [unitsAdopted, own, start, new]

/-! ## The outputs -/

theorem warningsCleared_out (image : Mem) (b : State) :
    (warningsCleared image b).out.test = (linesAdopted image b).out.test ∧
    (warningsCleared image b).out.lamps = (linesAdopted image b).out.lamps ∧
    (warningsCleared image b).out.lastResult = (linesAdopted image b).out.lastResult := by
  simp [warningsCleared, unitsAdopted, imageInstalled]

theorem adoptImage_lamps (image : Mem) (idle : b.out.test = none) : (adoptImage image b).out.lamps = b.out.lamps := by
  obtain ⟨test, lamps, -⟩ := warningsCleared_out image b
  rw [linesAdopted_idle image idle] at test lamps
  rw [adoptImage_eq, ((outJudged_steps.judgeAll (warningsCleared image b)).idle (test.trans idle)).2.1, lamps]

theorem adoptImage_brake {l : Fin 32} (one : oneIgnition b) (returns : lineReturns b image l)
    (role : (lineEntry b.image l).role = .parkingBrake) (active : lineState b l = .active) (run : b.out.test ≠ none) :
    (adoptImage image b).out.test = none ∧ (adoptImage image b).out.lastResult = .aborted .parkingBrake := by
  obtain ⟨test, -, result⟩ := warningsCleared_out image b
  obtain ⟨ended, reason⟩ := linesAdopted_brake one returns role active run
  obtain ⟨after, -, kept⟩ := (outJudged_steps.judgeAll (warningsCleared image b)).idle (test.trans ended)
  rw [adoptImage_eq]
  exact ⟨after, kept.trans (result.trans reason)⟩

/-! ## The window -/

theorem adoptionDone_slot (image : Mem) (free : b.win.ops.test ≠ .slot n) :
    (adoptionDone n image b).win.slots[n] = b.win.slots[n] := by
  obtain ⟨-, -, -, -, slots, -⟩ := adoptionDone_window n image b
  simp only [slots]
  exact (adoptImage_spared image b n free).1

theorem adoptionDone_ram (n : Fin 8) (image : Mem) (b : State) :
    ramKept ([] ++ slotResultArea b.win.ops.test) b (adoptionDone n image b) := fun a outside => by
  obtain ⟨-, -, -, -, -, -, -, ram, -⟩ := adoptionDone_window n image b
  rw [ramRead, ram]
  exact (adoptImage_reach image b).ram a outside

end Done

end Sys2Proof.Proofs

/-! The doorways and the images at the end of an adoption (R72, R75, R86, R88, R109). -/

namespace Sys2Proof.Proofs

open Sys2Proof Sys2Proof.Machine Sys2Proof.Safety

section Ways

variable {b t : State} {image : Mem} {k : Fin 4} {l : Fin 32}

/-- The lines, the doorways and the image at the end of an adoption from `b`. -/
structure WaysStand (image : Mem) (b t : State) : Prop where
  sense : t.sense = (adoptLines image b).sense
  new : t.image = image
  time : t.time.now = b.time.now
  ways : t.door.doorways = (adoptDoors b.image (imageInstalled image b)).door.doorways

/-- A doorway that takes a combination from its bare state. -/
theorem overlaid_moved {now limit : Nat} {c : Combo} {d e : Doorway} (bare : bareDoorway e = bareDoorway d) :
    overlaid t k (wayJudged now limit c e) =
      overlaid t k (if c = d.combo then d else doorwayMoved now limit c d) := by
  rw [← overlaid_bare, wayJudged_bare, bare, ← wayJudged_bare, overlaid_bare, doorwayMoved_eq, wayJudged, ite_not]

theorem WaysStand.way (h : WaysStand image b t) (k : Fin 4) : t.door.doorways[k] =
    if doorwayPresent image k = true then
      overlaid t k (wayJudged b.time.now (travelLimit image k) (comboJudged t k)
        (if doorwayPresent b.image k = true then (linesAdopted image b).door.doorways[k] else Doorway.reset))
    else Doorway.reset := by
  have sense : (imageInstalled image b).sense = t.sense := by
    rw [h.sense, ← (linesAdopted_stand image b).sense]
    rfl
  have new : (imageInstalled image b).image = t.image := h.new.symm
  have now : (imageInstalled image b).time.now = b.time.now := by
    have time := (linesAdopted_stand image b).time
    rw [show (imageInstalled image b).time = (linesAdopted image b).time from rfl, time]
  have role : ∀ r, roleState (imageInstalled image b) r = roleState t r := roleState_congr sense new
  have overlay : overlaid (imageInstalled image b) k = overlaid t k := funext fun d => by
    rw [overlaid, overlaid, roleActive, roleActive, role, role, roleActive, roleActive]
  have combo : comboNow (imageInstalled image b) k = comboJudged t k := by
    rw [comboJudged_eq, comboNow, comboNow, role, role]
  have own := (adoptDoors_ways b.image (imageInstalled image b)).1 k
  simp only [wayAdopted, overlay, combo, now, new, h.new, imageInstalled_door] at own
  simp only [h.ways]
  exact own

/-- A doorway of the new image that was absent under the old one (R88). -/
theorem WaysStand.arrives (h : WaysStand image b t) (present : doorwayPresent image k = true)
    (absent : doorwayPresent b.image k = false) : t.door.doorways[k] =
      overlaid t k (doorwayMoved b.time.now (travelLimit image k) (comboJudged t k) Doorway.reset) := by
  rw [h.way k, if_pos present, if_neg (by simp [absent]), doorwayMoved_eq, reset_judged]

/-- A doorway none of whose known switches changed its entry (R88). -/
theorem WaysStand.stays (h : WaysStand image b t) (present : doorwayPresent image k = true)
    (was : doorwayPresent b.image k = true)
    (still : ∀ n : Fin 32, switchOf k (lineEntry b.image n).role → ¬ lineReturns b image n) :
    t.door.doorways[k] = overlaid t k (if comboJudged t k = b.door.doorways[k].combo then b.door.doorways[k]
      else doorwayMoved b.time.now (travelLimit image k) (comboJudged t k) b.door.doorways[k]) := by
  rw [h.way k, if_pos present, if_pos was]
  exact overlaid_moved (linesAdopted_wayKept k still)

/-- A doorway one of whose known switches changed its entry (R11, R88). -/
theorem WaysStand.returns {r : Role} (h : WaysStand image b t) (present : doorwayPresent image k = true)
    (was : doorwayPresent b.image k = true) (switch : switchOf k r) (line : lineOfRole b.image r = some l)
    (returns : lineReturns b image l) : t.door.doorways[k] = overlaid t k
      (if b.door.doorways[k].combo ≠ .fault then
        doorwayMoved b.time.now (travelLimit image k) (comboJudged t k) Doorway.reset
      else if comboJudged t k = .fault then b.door.doorways[k]
      else doorwayMoved b.time.now (travelLimit image k) (comboJudged t k) b.door.doorways[k]) := by
  have bare := linesAdopted_wayLost switch line returns was
  rw [h.way k, if_pos present, if_pos was]
  by_cases known : b.door.doorways[k].combo ≠ .fault
  · rw [if_pos known] at bare ⊢
    rw [doorwayMoved_eq, reset_judged, ← overlaid_bare, wayJudged_bare, bare]
  · rw [if_neg known] at bare ⊢
    rw [overlaid_moved bare, not_not.mp known]

end Ways

end Sys2Proof.Proofs

/-! ADOPT_CONFIG: its checks, and a request that passes (R171). -/

namespace Sys2Proof.Proofs

open Sys2Proof Sys2Proof.Machine Sys2Proof.Safety

section Adoption

variable {s : State}

/-! ## The checks -/

/-- The vehicle is as an adoption needs it (R171). -/
def adoptable (s : State) : Prop := standing s ∧
  ((lineOfRole s.image .parkingBrake).isNone || roleActive s .parkingBrake) = true

theorem adoptable_iff (s : State) : adoptable s ↔ ¬ (ignitionOn s = false ∨ s.pulse.motion ≠ .standstill ∨
    ((lineOfRole s.image .parkingBrake).isNone || roleActive s .parkingBrake) = false) := by
  unfold adoptable standing
  cases ignitionOn s <;> cases ((lineOfRole s.image .parkingBrake).isNone || roleActive s .parkingBrake) <;> simp

theorem adoptCheck_claim (other : s.win.claims.config ≠ .window) : adoptCheck s = some (.notClaimed, 0) := by
  simp [adoptCheck, holdsClaim, Claims.holder, sideHolder, other]

theorem unfit_iff (s : State) : (!ignitionOn s ∨ s.pulse.motion ≠ .standstill ∨
    !((lineOfRole s.image .parkingBrake).isNone || roleActive s .parkingBrake)) ↔ ¬ adoptable s := by
  rw [adoptable_iff, not_not, Bool.not_eq_true', Bool.not_eq_true']

theorem claim_held (claim : s.win.claims.config = .window) : ¬ (!holdsClaim s .window .config) = true := by
  simp [holdsClaim, Claims.holder, sideHolder, claim]

theorem adoptCheck_state (claim : s.win.claims.config = .window) (unfit : ¬ adoptable s) :
    adoptCheck s = some (.wrongState, 0) := by
  rw [adoptCheck, if_neg (claim_held claim), if_pos ((unfit_iff s).mpr unfit)]

theorem adoptCheck_busy (claim : s.win.claims.config = .window) (fit : adoptable s) (busy : s.win.adoption ≠ none) :
    adoptCheck s = some (.busy, 0) := by
  rw [adoptCheck, if_neg (claim_held claim), if_neg fun unfit => (unfit_iff s).mp unfit fit,
    if_pos (Option.isSome_iff_ne_none.mpr busy)]

theorem adoptCheck_image (claim : s.win.claims.config = .window) (fit : adoptable s) (idle : s.win.adoption = none) :
    adoptCheck s = (firstFailing (stagingImage s)).map fun item => (.configRejected, byte item) := by
  rw [adoptCheck, if_neg (claim_held claim), if_neg fun unfit => (unfit_iff s).mp unfit fit, if_neg (by simp [idle])]
  cases firstFailing (stagingImage s) <;> rfl

end Adoption

end Sys2Proof.Proofs

/-! ADOPT_CONFIG (O38): the state at the end of an adoption, and the checks before it. -/

namespace Sys2Proof.Proofs

open Sys2Proof Sys2Proof.Machine Sys2Proof.Safety

section Adopted

variable {i : Nat} {n : Fin 8} {image : Mem} {s : State}

/-- The state after an adoption that passed its checks at its take. -/
def adopted (i : Nat) (n : Fin 8) (image : Mem) (s : State) : State :=
  publishAll true false s (adoptionDone n image (beginTake i n s))

/-- What the rewritten images leave. -/
theorem adopted_blocks (i : Nat) (n : Fin 8) (image : Mem) (s : State) :
    let t := adopted i n image s
    let u := adoptImage image (beginTake i n s)
    t.time = u.time ∧ t.sense = u.sense ∧ t.pulse = u.pulse ∧ t.dist = u.dist ∧ t.analog = u.analog ∧ t.door = u.door ∧
    t.warn = u.warn ∧ t.out = u.out ∧ t.faults = u.faults ∧ t.link = u.link ∧ t.image = u.image ∧
    t.pending = u.pending ∧ t.store = (adoptionDone n image (beginTake i n s)).store := by
  obtain ⟨time, sense, pulse, dist, analog, door, warn, out, faults, link, img, pending, -⟩ :=
    adoptionDone_blocks n image (beginTake i n s)
  simp [adopted, time, sense, pulse, dist, analog, door, warn, out, faults, link, img, pending]

theorem adopted_window (i : Nat) (n : Fin 8) (image : Mem) (s : State) :
    let t := adopted i n image s
    let v := adoptionDone n image (beginTake i n s)
    t.win.adoption = v.win.adoption ∧ t.win.ops = v.win.ops ∧ t.win.source = v.win.source ∧
    t.win.slots = v.win.slots ∧ t.win.attention = v.win.attention ∧ t.win.claims = v.win.claims := by
  simp [adopted]

/-! ## The window -/

theorem adoptionDone_area {area : Area} (high : 0x0300 ≤ area.1) :
    areaSame area s (adoptionDone n image (beginTake i n s)) := fun a low _ => by
  have own : slotBase n + 5 ≤ 0x0300 := by
    have := n.isLt
    unfold slotBase
    omega
  rw [adoptionDone_ram n image (beginTake i n s) a fun r mem => .inr ?_]
  · refine beginTake_kept s i n a fun r mem => .inr ?_
    obtain rfl : r = (slotBase n + 3, 2) := by simpa using mem
    exact own.trans (high.trans low)
  · exact (slotResult_low (by simpa using mem)).trans (high.trans low)

theorem adopted_ram (i : Nat) (n : Fin 8) (image : Mem) (s : State) {a : Nat} (high : 0x0300 ≤ a) (low : a < 0x1000) :
    ramRead (adopted i n image s) a = ramRead s a := by
  rw [adopted, publishAll_below _ _ _ _ low]
  exact adoptionDone_area (area := (a, 1)) high a le_rfl (Nat.lt_succ_self a)

theorem adopted_result (wf : s.win.ram.wf) (free : s.win.ops.test ≠ .slot n) :
    slotByte (adopted i n image s) n 3 = 0xFF ∧ slotByte (adopted i n image s) n 4 = 0 := by
  have kept : ∀ k, 3 ≤ k → k < 5 →
      slotByte (adoptionDone n image (beginTake i n s)) n k = slotByte (beginTake i n s) n k := by
    intro k low high
    refine adoptionDone_ram n image (beginTake i n s) _ fun r mem => ?_
    have own : (beginTake i n s).win.ops.test = s.win.ops.test := rfl
    rw [own] at mem
    cases op : s.win.ops.test with
    | idle => simp [op, slotResultArea] at mem
    | orphan => simp [op, slotResultArea] at mem
    | slot m =>
      have apart : m.val ≠ n.val := fun e => free (by rw [op, Fin.ext e])
      obtain rfl : r = (slotBase m + 3, 2) := by simpa [op, slotResultArea] using mem
      simp only [slotBase]
      omega
  obtain ⟨result, detail⟩ := beginTake_result s i n wf
  refine ⟨?_, ?_⟩
  · rw [adopted, publishAll_slotByte _ _ _ _ _ (by omega), kept 3 (by omega) (by omega), result]
  · rw [adopted, publishAll_slotByte _ _ _ _ _ (by omega), kept 4 (by omega) (by omega), detail]

/-! ## The images -/

theorem adopted_shown (i : Nat) (n : Fin 8) (image : Mem) (s : State) :
    let t := adopted i n image s
    let v := adoptionDone n image (beginTake i n s)
    senseBytes t = senseBytes v ∧ doorBytes t = doorBytes v ∧ listBytes t = listBytes v := by
  refine ⟨senseBytes_congr ?_ ?_, doorBytes_congr ?_ ?_, listBytes_congr ?_ ?_⟩ <;> simp [adopted]

theorem adopted_images (i : Nat) (n : Fin 8) (image : Mem) (s : State) :
    let t := adopted i n image s
    (senseBytes t ≠ senseBytes s → imageWritten senseArea (senseBytes t) s t) ∧
    (doorBytes t ≠ doorBytes s → imageWritten doorArea (doorBytes t) s t) ∧
    imageWritten listArea (listBytes t) s t ∧ noticeSet t .warningsChanged = true := by
  intro t
  obtain ⟨sense, door, list⟩ := adopted_shown i n image s
  rw [sense, door, list]
  refine ⟨fun changed => ?_, fun changed => ?_, ?_, ?_⟩
  · exact imageWritten_congr (by simp [senseArea]) (adoptionDone_area (by simp [senseArea]))
      (publishAll_sense true false (Ne.symm changed)) fun _ _ _ => rfl
  · exact imageWritten_congr (by simp [doorArea]) (adoptionDone_area (by simp [doorArea]))
      (publishAll_door true (.inr (Ne.symm changed))) fun _ _ _ => rfl
  · exact imageWritten_congr (by simp [listArea]) (adoptionDone_area (by simp [listArea]))
      (publishAll_list false (.inl rfl)) fun _ _ _ => rfl
  · change noticeSet (publishAll true false s _) .warningsChanged = true
    rw [publishAll_notice]
    simp

/-! ## The warnings -/

theorem adopted_sources (i : Nat) (n : Fin 8) (image : Mem) (s : State) :
    SameSources (adopted i n image s) (warningsCleared image (beginTake i n s)) := by
  constructor <;> simp [adopted, adoptionDone, adoptImage_eq]

theorem adopted_judged (i : Nat) (n : Fin 8) (image : Mem) (s : State) :
    warningsJudged (adopted i n image s) i
      { s.warn with list := [], warnings := freshWarnings image s.warn.handed } (adopted i n image s).warn := by
  have judged := judgeAll_judges (adopted_sources i n image s)
  obtain ⟨-, -, -, -, -, -, warn, -⟩ := adopted_blocks i n image s
  have time : (warningsCleared image (beginTake i n s)).time.now = i := by
    have stand := (linesAdopted_stand image (beginTake i n s)).time
    have kept : (warningsCleared image (beginTake i n s)).time = (linesAdopted image (beginTake i n s)).time := by
      simp [warningsCleared, unitsAdopted, imageInstalled]
    rw [kept, stand]
    rfl
  rw [warningsCleared_warn, time] at judged
  rw [warn, adoptImage_eq]
  exact judged

theorem adopted_returns (calm : ∀ w : Fin 48, (adopted i n image s).warn.warnings[w].state ≠ .activeUnack) :
    returnsHanded s (adopted i n image s) i True (fun w => w ∈ s.warn.list) := by
  obtain ⟨-, -, -, -, -, -, warn, out, faults, -, img, -, store⟩ := adopted_blocks i n image s
  obtain ⟨-, -, -, -, -, -, doneWarn, doneOut, doneFaults, -, doneImage, -⟩ :=
    adoptionDone_blocks n image (beginTake i n s)
  have calls : ∀ x y : State, x.warn = y.warn → x.image = y.image → (stopCalls x ↔ stopCalls y) := fun x y w g => by
    rw [stopCalls, stopCalls, w, g]
  obtain ⟨quiet, returns⟩ := warningsCleared_calm image (beginTake i n s) (by rwa [← warn])
  refine returnsHanded_of (b := beginTake i n s) (u := adoptionDone n image (beginTake i n s)) rfl Iff.rfl rfl rfl
    (quiet.more (by rw [doneOut]) (calls _ _ doneWarn doneImage))
    (returns.more doneFaults (adoptionDone_queue n image (beginTake i n s)).2) (by rw [out, doneOut])
    (calls _ _ (warn.trans doneWarn.symm) (img.trans doneImage.symm)) (faults.trans doneFaults.symm) store
    fun changed => ?_
  rw [adopted, publishAll_notice]
  simp [changed]

end Adopted

end Sys2Proof.Proofs

/-! ADOPT_CONFIG as a whole (O38). -/

namespace Sys2Proof.Proofs

open Sys2Proof Sys2Proof.Machine Sys2Proof.Safety

section Adopted

variable {i : Nat} {n : Fin 8} {image : Mem} {s : State}

/-- The lines under their new entries (R11). -/
theorem adopted_line (i : Nat) (n : Fin 8) (image : Mem) (s : State) (l : Fin 32) :
    (lineEntry s.image l = lineEntry image l → (adopted i n image s).sense.lines[l] = s.sense.lines[l]) ∧
    (lineEntry s.image l ≠ lineEntry image l → (adopted i n image s).sense.lines[l] =
      { debounced := if l = 0 then s.sense.lines[l].debounced else .unknown
        candidate := none, run := 0, lastClass := s.sense.lines[l].lastClass }) := by
  obtain ⟨-, sense, -⟩ := adopted_blocks i n image s
  have line := adoptLines_line image (beginTake i n s) l
  have own : (adopted i n image s).sense.lines[l] = (adoptLines image (beginTake i n s)).sense.lines[l] := by
    rw [sense, (adoptImage_blocks image (beginTake i n s)).2.2.1]
  rw [own, line]
  refine ⟨fun same => if_pos same, fun changed => (if_neg changed).trans ?_⟩
  by_cases first : l = 0 <;> simp [Line.adopted, first]

theorem adopted_ways (i : Nat) (n : Fin 8) (image : Mem) (s : State) :
    WaysStand image (beginTake i n s) (adopted i n image s) := by
  obtain ⟨time, sense, -, -, -, door, -, -, -, -, img, -⟩ := adopted_blocks i n image s
  obtain ⟨new, -, lines, ways, -⟩ := adoptImage_blocks image (beginTake i n s)
  exact ⟨sense.trans lines, img.trans new, by rw [time]; simp, by rw [door, ways]⟩

/-- The doorways, the flags and the permit (R75, R85, R88). -/
theorem adopted_doors (i : Nat) (n : Fin 8) (image : Mem) (s : State) :
    let t := adopted i n image s
    t.door.kneel = roleActive t .kneel ∧ t.door.ramp = roleActive t .ramp ∧ t.door.age = s.door.age ∧
    t.door.dpermit = permitJudged t := by
  intro t
  obtain ⟨-, sense, pulse, -, -, door, -, -, -, -, img, -⟩ := adopted_blocks i n image s
  obtain ⟨new, -, lines, ways, -⟩ := adoptImage_blocks image (beginTake i n s)
  have stand := linesAdopted_stand image (beginTake i n s)
  have installed : (imageInstalled image (beginTake i n s)).sense = t.sense ∧
      (imageInstalled image (beginTake i n s)).image = t.image ∧
      (imageInstalled image (beginTake i n s)).pulse = t.pulse ∧
      (imageInstalled image (beginTake i n s)).door.age = s.door.age := by
    refine ⟨?_, ?_, ?_, ?_⟩
    · rw [sense, lines, ← stand.sense]
      rfl
    · rw [img, new]
      rfl
    · rw [pulse, (adoptImage_frame image (beginTake i n s)).2.1, ← stand.pulse]
      rfl
    · rw [imageInstalled_door, linesAdopted_age]
      rfl
  obtain ⟨xSense, xImage, xPulse, xAge⟩ := installed
  have door' : t.door = (adoptDoors (beginTake i n s).image (imageInstalled image (beginTake i n s))).door :=
    door.trans ways
  revert door' xSense xImage xPulse xAge
  generalize imageInstalled image (beginTake i n s) = x
  generalize (beginTake i n s).image = before
  intro xSense xImage xPulse xAge door'
  obtain ⟨-, kneel, ramp⟩ := adoptDoors_ways before x
  have role : ∀ r, roleActive x r = roleActive t r := fun r => by
    rw [roleActive, roleActive, roleState_congr xSense xImage]
  have age : t.door.age = s.door.age := by
    rw [door', ← xAge]
    simp
  have same : PermitSame (adoptDoors before x) t := by
    refine ⟨by rw [door'], by rw [door'], ?_, ?_, ?_, ?_⟩
    · rw [← xPulse]
      simp
    · rw [← xPulse]
      simp
    · rw [← xSense]
      simp
    · rw [← xImage]
      simp
  refine ⟨by rw [door', kneel, role], by rw [door', ramp, role], age, ?_⟩
  rw [same.judged, door', adoptDoors_permit]

/-- The stop cycle, its record and the journal (R76, R79, R81, R88). -/
theorem adopted_cycle (image : Mem) (stands : standing (beginTake i n s)) :
    let t := adopted i n image s
    ((∃ k : Fin 4, notClosed t k = true) → t.door.cycle = .atStop) ∧
    (stopOpen s → (∀ k : Fin 4, doorwayPresent image k = true → t.door.doorways[k].state = .closed) →
      t.door.cycle = .departing) ∧
    (imageLaw s → s.door.cycle = .arrived → (∀ k : Fin 4, notClosed s k = false) →
      (∀ k : Fin 4, notClosed t k = false) → t.door.cycle = .arrived) ∧
    (s.door.nextSequence ≠ 0 → t.door.journal = s.door.journal) ∧ (stopOpen s → MarksOnly s.door t.door) := by
  intro t
  obtain ⟨-, -, -, -, -, door, -, -, -, -, img, -⟩ := adopted_blocks i n image s
  obtain ⟨new, -, -, ways, -⟩ := adoptImage_blocks image (beginTake i n s)
  have door' : t.door = (adoptDoors (beginTake i n s).image (imageInstalled image (beginTake i n s))).door :=
    door.trans ways
  have image' : t.image = (adoptDoors (beginTake i n s).image (imageInstalled image (beginTake i n s))).image := by
    rw [img, new]
    simp [imageInstalled, installImage]
  have closed : ∀ k, notClosed t k =
      notClosed (adoptDoors (beginTake i n s).image (imageInstalled image (beginTake i n s))) k := fun k => by
    rw [notClosed_eq, notClosed_eq, doorwayOpen, doorwayOpen, door', image']
  simp only [closed, door']
  exact doorsAdopted_cycle image stands

/-- The slot, the adoption in flight and its job (R169, R171). -/
theorem adopted_taken (i : Nat) (n : Fin 8) (image : Mem) (s : State) :
    let t := adopted i n image s
    t.image = image ∧ t.win.source = .adopted ∧ t.win.adoption = some { side := .window, started := false } ∧
    t.win.ops.adopt = .slot n ∧ t.win.attention[n] = none ∧ t.time.now = i ∧
    (s.win.ops.test ≠ .slot n → t.win.slots[n] = .taken) ∧ Object.configuration ∈ t.store.queue := by
  intro t
  obtain ⟨time, -, -, -, -, -, -, -, -, -, img, -, store⟩ := adopted_blocks i n image s
  obtain ⟨adoption, ops, source, slots, attention, -⟩ := adopted_window i n image s
  obtain ⟨waiter, op, -, doneSource, -, doneAttention, -⟩ := adoptionDone_window n image (beginTake i n s)
  obtain ⟨new, fromWindow, -⟩ := adoptImage_blocks image (beginTake i n s)
  refine ⟨img.trans new, source.trans (doneSource.trans fromWindow), adoption.trans waiter, by rw [ops, op], ?_, ?_,
    fun free => ?_, ?_⟩
  · simp only [t, attention, doneAttention]
    simp [beginTake]
  · rw [time, (adoptImage_frame image (beginTake i n s)).1]
    rfl
  · have kept := adoptionDone_slot image (b := beginTake i n s) (n := n) free
    simp only [t, slots, kept]
    simp [beginTake]
  · rw [store]
    exact (adoptionDone_queue n image (beginTake i n s)).1

/-- The lamps, a running test and the channels (R69, R119). -/
theorem adopted_units (i : Nat) (n : Fin 8) (image : Mem) (s : State) :
    let t := adopted i n image s
    (s.out.test = none → t.out.lamps = s.out.lamps) ∧
    (∀ l : Fin 32, l ≠ 0 → (lineEntry s.image l).role = .parkingBrake → lineEntry s.image l ≠ lineEntry image l →
      lineState s l = .active → s.out.test ≠ none → oneIgnition s →
      t.out.test = none ∧ t.out.lastResult = .aborted .parkingBrake) ∧
    (oneIgnition s → t.analog = (unitsAdopted image (beginTake i n s)).analog ∧ oneIgnition (beginTake i n s)) := by
  intro t
  obtain ⟨-, -, -, -, analog, -, -, out, -⟩ := adopted_blocks i n image s
  obtain ⟨-, -, -, -, channels⟩ := adoptImage_blocks image (beginTake i n s)
  refine ⟨fun idle => ?_, fun l notFirst role moved active running one => ?_,
    fun one => ⟨analog.trans channels, one⟩⟩
  · rw [out, adoptImage_lamps image (b := beginTake i n s) idle]
    rfl
  · rw [out]
    refine adoptImage_brake (b := beginTake i n s) (l := l) one ⟨notFirst, moved, fun unknown => ?_⟩ role active running
    have was : s.sense.lines[l].debounced = .active := active
    have is : s.sense.lines[l].debounced = .unknown := unknown
    rw [was] at is
    cases is

/-- What an adoption leaves. -/
theorem adopted_rest (i : Nat) (n : Fin 8) (image : Mem) (s : State) :
    let t := adopted i n image s
    t.pulse = s.pulse ∧ t.dist.live = s.dist.live ∧ t.dist.retained = s.dist.retained ∧
    t.out.supervision = s.out.supervision ∧ t.win.claims = s.win.claims ∧ t.pending = s.pending ∧
    t.store.array = s.store.array ∧ t.store.job = s.store.job ∧ t.link.request = s.link.request ∧
    t.link.session = s.link.session := by
  intro t
  obtain ⟨-, -, pulse, dist, -, -, -, out, -, link, -, pending, store⟩ := adopted_blocks i n image s
  obtain ⟨-, -, -, -, -, claims⟩ := adopted_window i n image s
  obtain ⟨-, -, -, -, -, -, -, -, -, -, -, -, array, job, -⟩ := adoptionDone_blocks n image (beginTake i n s)
  obtain ⟨-, -, -, -, -, -, doneClaims, -⟩ := adoptionDone_window n image (beginTake i n s)
  rw [pulse, dist, out, claims, doneClaims, pending, store, array, job, link]
  simp

/-! ## A request that is refused -/

/-- The state after the take of an adoption. -/
def adoptTaken (i : Nat) (n : Fin 8) (s : State) : State :=
  let u := serveSlot .adopt n (adoptOperation (beginTake i n s))
  publishAll (s.win.adoption.isNone && u.win.adoption.isSome) false s u

theorem exec_adoptConfig (due : takeDue s i n 1) : exec .adoptConfig s = .next (adoptTaken i n s) :=
  congrArg (fun x : State => Host.Outcome.next (publishAll (s.win.adoption.isNone && x.win.adoption.isSome) false s x))
    (windowRequest_due due .adopt fun _ s => adoptOperation s)

theorem adoptTaken_refused {r : Result} {d : Byte} (check : adoptCheck (beginTake i n s) = some (r, d)) :
    slotCompletes s (adoptTaken i n s) s i n r.code d [] [] := by
  have served : serveSlot .adopt n (adoptOperation (beginTake i n s)) = finishSlot n r d (beginTake i n s) := by
    rw [adoptOperation, check]
    rfl
  have quiet : (s.win.adoption.isNone && (finishSlot n r d (beginTake i n s)).win.adoption.isSome) = false := by
    have same : (finishSlot n r d (beginTake i n s)).win.adoption = s.win.adoption := rfl
    rw [same]
    cases s.win.adoption <;> rfl
  have publishes := (finishSlot_quiet i n r d s).publish
  rw [publish] at publishes
  rw [adoptTaken, served]
  rw [quiet, publishes]
  exact slotCompletes_begin s i n r d

theorem adoptTaken_passed (check : adoptCheck (beginTake i n s) = none) (idle : s.win.adoption = none) :
    adoptTaken i n s = adopted i n (stagingImage (beginTake i n s)) s := by
  have served : serveSlot .adopt n (adoptOperation (beginTake i n s)) =
      adoptionDone n (stagingImage (beginTake i n s)) (beginTake i n s) := by
    rw [adoptOperation, check]
    rfl
  have flagged : (s.win.adoption.isNone &&
      (adoptionDone n (stagingImage (beginTake i n s)) (beginTake i n s)).win.adoption.isSome) = true := by
    rw [(adoptionDone_window n _ (beginTake i n s)).1, idle]
    rfl
  rw [adoptTaken, served]
  rw [flagged, adopted]

end Adopted

/-- Settles O38: the checks in their order, then what the blocks make of the new image. -/
theorem adoptConfig : Obligations.AdoptConfig := by
  unfold Obligations.AdoptConfig
  intro s i n due
  refine ⟨_, exec_adoptConfig due, ?_⟩
  intro unset image
  have staged : stagingImage (beginTake i n s) = image := beginTake_staging s i n
  have fits : adoptable (beginTake i n s) ↔
      ¬ (ignitionOn s = false ∨ s.pulse.motion ≠ .standstill ∨ unset = false) := adoptable_iff (beginTake i n s)
  split
  next other => exact adoptTaken_refused (r := .notClaimed) (d := 0) (adoptCheck_claim other)
  next claim =>
  have held : (beginTake i n s).win.claims.config = .window := not_not.mp claim
  split
  next unfit =>
    exact adoptTaken_refused (r := .wrongState) (d := 0) (adoptCheck_state held fun fit => fits.mp fit unfit)
  next fit =>
  have fit' := fits.mpr fit
  split
  next busy => exact adoptTaken_refused (r := .busy) (d := 0) (adoptCheck_busy held fit' busy)
  next idle =>
  have check := adoptCheck_image held fit' (not_not.mp idle)
  rw [staged] at check
  split
  next item failing =>
    rw [failing] at check
    exact adoptTaken_refused (r := .configRejected) (d := byte item) check
  next valid =>
  rw [valid] at check
  rw [adoptTaken_passed check (not_not.mp idle), staged]
  obtain ⟨new, source, adoption, op, attention, now, slot, queue⟩ := adopted_taken i n image s
  obtain ⟨lamps, brake, channels⟩ := adopted_units i n image s
  have ways := adopted_ways i n image s
  obtain ⟨kneel, ramp, age, permit⟩ := adopted_doors i n image s
  obtain ⟨senseImage, doorImage, listImage, changed⟩ := adopted_images i n image s
  obtain ⟨opens, departs, waits, journal, marks⟩ := adopted_cycle (i := i) (n := n) image fit'.1
  obtain ⟨pulse, live, retained, supervision, claims, pending, array, job, request, session⟩ :=
    adopted_rest i n image s
  refine ⟨new, source, adoption, op, attention, now, fun free => ⟨slot free, fun wf => adopted_result wf free⟩, queue,
    changed, fun l => (adopted_line i n image s l).1, fun l => (adopted_line i n image s l).2, fun m idle => ?_,
    brake, fun one => ?_, fun k => ?_, kneel, ramp, opens, departs, waits, senseImage, doorImage,
    adopted_judged i n image s, listImage, adopted_returns, pulse, age, permit, journal, fun late => ?_, live, retained,
    supervision, claims, pending, array, job, request, session, fun a high low => adopted_ram i n image s high low⟩
  · rw [lamps idle]
  · obtain ⟨analog, one'⟩ := channels one
    rw [analog, unitsAdopted_analog image one']
    rfl
  · exact ⟨fun absent => (ways.way k).trans (if_neg (by simp [absent])),
      fun present absent => ways.arrives present absent, fun present was =>
      ⟨fun still => ways.stays present was still, fun r l switch line moved =>
        ways.returns present was switch line moved⟩⟩
  · obtain ⟨sequence, record, latch, stop⟩ := marks late
    exact ⟨sequence, record, latch, stop⟩

end Sys2Proof.Proofs
